-- ==== Sys2Proof/Word.lean ====
section
/-!
DEFINITION. The word types of the spec (R9, R10) and their plainest arithmetic: what the manual calls a value of 8, 16,
32 or 64 bits is a bit vector of that width, and values that wrap are compared by signed difference (R10).
-/

namespace Sys2Proof

abbrev Byte := BitVec 8
abbrev U8 := BitVec 8
abbrev U16 := BitVec 16
abbrev U32 := BitVec 32
abbrev U64 := BitVec 64

/-- The signed difference a − b of two wrapping 32-bit values (R10). -/
def sdiff32 (a b : U32) : Int := (a - b).toInt

/-- "a is later than b" for wrapping 32-bit values (R10). -/
def later32 (a b : U32) : Bool := 0 < sdiff32 a b

/-- The later of two wrapping 32-bit values (R10). -/
def latest32 (a b : U32) : U32 := if later32 a b then a else b

/-- The signed difference of two `SEQ` values (R108: the 8-bit exception to R10). -/
def sdiff8 (a b : U8) : Int := (a - b).toInt

/-- A 32-bit counter that saturates at 0xFFFF_FFFF (R28). -/
def satInc32 (a : U32) : U32 := if a = 0xFFFFFFFF#32 then a else a + 1

/-- A natural number clamped to n bits. -/
def satNat (n v : Nat) : Nat := min v (2 ^ n - 1)

/-- A natural number as a 32-bit word, by its low 32 bits. -/
abbrev w32 (n : Nat) : U32 := BitVec.ofNat 32 n

/-- The low and the high half of a 64-bit quantity held as `_LO` and `_HI` (R458). -/
def lo32 (n : Nat) : U32 := BitVec.ofNat 32 n
def hi32 (n : Nat) : U32 := BitVec.ofNat 32 (n / 2 ^ 32)

/-- An integer as a two's-complement word, clamped to the I32 limits. -/
def sat32 (i : Int) : U32 :=
  if i < -2147483648 then 0x80000000#32 else if 2147483647 < i then 0x7FFFFFFF#32 else BitVec.ofInt 32 i

/-- One bit of a natural number used as a set of bits. -/
def hasBit (m k : Nat) : Bool := m.testBit k

/-- A set of bits with bit k set, or cleared. -/
def setBit (m k : Nat) (b : Bool) : Nat :=
  if m.testBit k then (if b then m else m - 2 ^ k) else (if b then m + 2 ^ k else m)

/-- The field [hi:lo] of a 32-bit word, as a number. -/
def fieldOf (w : U32) (hi lo : Nat) : Nat := w.toNat / 2 ^ lo % 2 ^ (hi + 1 - lo)

/-- The word with its field [hi:lo] replaced by the low bits of v. -/
def withField (w : U32) (hi lo v : Nat) : U32 :=
  BitVec.ofNat 32 (w.toNat - fieldOf w hi lo * 2 ^ lo + v % 2 ^ (hi + 1 - lo) * 2 ^ lo)

/-- Little-endian bytes of a number (R9). -/
def leBytes : Nat → Nat → List Byte
  | 0, _ => []
  | n + 1, v => BitVec.ofNat 8 v :: leBytes n (v / 256)

/-- The number that little-endian bytes spell (R9). -/
def ofLe : List Byte → Nat
  | [] => 0
  | b :: bs => b.toNat + 256 * ofLe bs

end Sys2Proof
end

