-- ==== Sys2Proof/Machine/Cmap.lean ====
section
/-!
DEFINITION. A canonical sparse map: a list of (key, value) pairs with strictly rising keys and no entry equal to what an
unlisted key reads as. The word file (parameters and tables) and the byte memories of State are such maps, so equal
contents are equal data.
-/

namespace Sys2Proof.Machine

/-- What key `k` holds; an unlisted key holds `d k`. -/
def Cmap.get {α : Type} (d : Nat → α) : List (Nat × α) → Nat → α
  | [], k => d k
  | (j, v) :: m, k => if k < j then d k else if k = j then v else Cmap.get d m k

/-- The map with `v` at `k`; writing what an unlisted key holds removes the entry. -/
def Cmap.put {α : Type} [DecidableEq α] (d : Nat → α) : List (Nat × α) → Nat → α → List (Nat × α)
  | [], k, v => if v = d k then [] else [(k, v)]
  | (j, w) :: m, k, v =>
    if k < j then (if v = d k then (j, w) :: m else (k, v) :: (j, w) :: m)
    else if k = j then (if v = d k then m else (k, v) :: m)
    else (j, w) :: Cmap.put d m k v

/-- Keys all above a bound. -/
def Cmap.above {α : Type} (b : Nat) (m : List (Nat × α)) : Bool :=
  match m with
  | [] => true
  | (j, _) :: _ => decide (b < j)

/-- The canonical form: strictly rising keys, no entry equal to the unlisted value. -/
def Cmap.wf {α : Type} [DecidableEq α] (d : Nat → α) : List (Nat × α) → Bool
  | [] => true
  | (j, v) :: m => decide (v ≠ d j) && Cmap.above j m && Cmap.wf d m

/-- The map with only the entries whose key the test keeps. -/
def Cmap.keep {α : Type} (f : Nat → Bool) (m : List (Nat × α)) : List (Nat × α) := m.filter (fun e => f e.1)

/-- Consecutive writes from key `k` up. -/
def Cmap.putAll {α : Type} [DecidableEq α] (d : Nat → α) : List (Nat × α) → Nat → List α → List (Nat × α)
  | m, _, [] => m
  | m, k, v :: vs => Cmap.putAll d (Cmap.put d m k v) (k + 1) vs

/-- Consecutive reads of `n` keys from `k` up. -/
def Cmap.getAll {α : Type} (d : Nat → α) (m : List (Nat × α)) (k : Nat) : Nat → List α
  | 0 => []
  | n + 1 => Cmap.get d m k :: Cmap.getAll d m (k + 1) n

end Sys2Proof.Machine
end

