-- ==== Sys2Proof/Config.lean ====
section
/-!
DEFINITION. What one implementation fixes and the spec leaves open, as constants without a body: nothing can be proved of
their values, so a claim holds whatever they are.
-/

namespace Sys2Proof.Config

/-- The module event codes of R494: bits 11:0 of the code of the event named, which the image's code list gives. -/
opaque evCode : String → BitVec 12

/-- The words of table `REC_CODES` as the running images define them (R495): entry, word. -/
opaque recCodes : Nat → Nat → BitVec 32

/-- The factory values of SYS_SERIAL, SYS_HW_REV and of the MAC words (R469, R473). -/
opaque serial : BitVec 32
opaque hwRev : BitVec 32
opaque orderCode : Bool
opaque mac : Nat → BitVec 32

/-- The version of the firmware of each class that the module was delivered with, by its class code (R469, R519), the trunk protocol levels
that its firmware supports (R541), and its pair protocol level and execution semantics level, as bytes 1 and 0 (R469). -/
opaque fwVersion : Nat → BitVec 32
opaque tplRange : BitVec 16
opaque levels : BitVec 16

/-- The severity of a record of a code that `REC_CODES` does not define, such as the summary of R489 (the spec states none). -/
opaque fixedSev : BitVec 16 → Nat

/-- The firmware regions that the running images give a guard beside those of R507 (R506): guard, region, word. -/
opaque guardRegion : Nat → Nat → Nat → BitVec 32

/-- What a station's maker gave it (R142): vendor and product code, firmware version and trunk protocol level, by serial. -/
opaque stnVendor : BitVec 32 → BitVec 16
opaque stnProduct : BitVec 32 → BitVec 16
opaque stnVersion : BitVec 32 → BitVec 32
opaque stnLevel : BitVec 32 → BitVec 8

/-- The clock servo (R33, R34, R38), whose law the spec leaves open: the frequency error that it estimates, in parts per 10^12, from
the rate in force and the offset measured, and the correction that it would add for an offset. -/
opaque freqError : Int → Int → Int
opaque correction : Int → Int

/-- A free value: what the spec leaves open, one for each count of the state's counter and each index. -/
opaque freeWord : Nat → Nat → BitVec 32
opaque freeBit : Nat → Nat → Bool

/-- The sign and payload bits of a NaN that an invalid operation answers (R232 leaves them open). -/
opaque nanPayload : BitVec 32

end Sys2Proof.Config
end

