-- ==== Sys2Proof/Machine/ParamTable.lean ====
section
/-!
DEFINITION. The parameter space and the tables as the owner chapters define them: every parameter with its access,
default, range, class and modes (R455 to R479), and every table with its size, defaults and writable fields (R459).
-/

namespace Sys2Proof.Machine

/-- How a parameter is accessed (R467). -/
inductive Acc where
  | ro | rw | w1c
  deriving DecidableEq, Repr

/-- Which values a writable parameter takes. -/
inductive Rng where
  | any
  | le (lo hi : Nat)
  | oneOf (l : List Nat)
  | mask (m : Nat)
  | sle (lo hi : Int)
  deriving DecidableEq, Repr

/-- The classes of R460. -/
inductive Cls where
  | imm | tick | restart
  deriving DecidableEq, Repr

/-- One row of an owner chapter's parameter table. `modes` has bit m set when a write is accepted in mode m (R409). -/
structure ParamRow where
  base : Nat
  span : Nat := 1
  insts : Nat := 1
  acc : Acc := .ro
  dflt : Nat := 0
  range : Rng := .any
  cls : Cls := .imm
  pair : Bool := false
  modes : Nat := 0xFFF
  w1c : Nat := 0
  counter : Bool := false
  deriving DecidableEq, Repr

/-- A value inside its range. -/
def Rng.ok (r : Rng) (v : U32) : Bool :=
  match r with
  | .any => true
  | .le lo hi => decide (lo ≤ v.toNat) && decide (v.toNat ≤ hi)
  | .oneOf l => l.contains v.toNat
  | .mask m => v &&& ~~~ (w32 m) == 0#32
  | .sle lo hi => decide (lo ≤ v.toInt) && decide (v.toInt ≤ hi)

/-- The parameters of group 0x0. -/
def paramGroup0 : List ParamRow :=
  [ { base := 0x10 },
    { base := 0x11 },
    { base := 0x12 },
    { base := 0x13, dflt := 0x11000100 },
    { base := 0x14 },
    { base := 0x15 },
    { base := 0x16, acc := .rw, range := .le 0 1, cls := .imm, modes := 0x202 },
    { base := 0x17 },
    { base := 0x0 },
    { base := 0x1 },
    { base := 0x2 },
    { base := 0x3 },
    { base := 0x4 },
    { base := 0x5 },
    { base := 0x6 },
    { base := 0x7 },
    { base := 0x8 },
    { base := 0x9 },
    { base := 0xa },
    { base := 0xb, acc := .w1c, w1c := 0x6000 },
    { base := 0xc },
    { base := 0xd, counter := true },
    { base := 0xe },
    { base := 0xf } ]

/-- The parameters of group 0x1. -/
def paramGroup1 : List ParamRow :=
  [ { base := 0x1000, acc := .w1c, w1c := 0x3 },
    { base := 0x1001, acc := .rw, range := .le 0 3, cls := .tick, modes := 0x202 },
    { base := 0x1002, acc := .rw, range := .le 0 127, cls := .imm, modes := 0x202 },
    { base := 0x1003, acc := .rw, range := .le 0 1, cls := .imm, modes := 0x202 },
    { base := 0x1004 },
    { base := 0x1005 },
    { base := 0x1006, acc := .rw, dflt := 0x64, range := .le 1 200, cls := .tick },
    { base := 0x1007, acc := .rw, dflt := 0x3e8, range := .le 20 1000000, cls := .imm },
    { base := 0x1008, dflt := 0x25 },
    { base := 0x1009 },
    { base := 0x1010 },
    { base := 0x1011 },
    { base := 0x1012 },
    { base := 0x1013 } ]

/-- The parameters of group 0x2. -/
def paramGroup2 : List ParamRow :=
  [ { base := 0x2000, insts := 16 },
    { base := 0x2001, insts := 16, acc := .rw, dflt := 0xff, range := .oneOf [0, 1, 0xFF], cls := .tick, pair := true, modes := 0x20a },
    { base := 0x2002, insts := 16, acc := .rw, range := .le 0 3, cls := .tick, pair := true, modes := 0x20a },
    { base := 0x2003, insts := 16, dflt := 0xff },
    { base := 0x2004, insts := 16 },
    { base := 0x2005, insts := 16, acc := .rw, range := .le 0 1200, cls := .tick, pair := true, modes := 0x20a },
    { base := 0x2006, insts := 16, acc := .rw, dflt := 0xc, range := .le 0 24, cls := .tick },
    { base := 0x2007, insts := 16, counter := true },
    { base := 0x2008, insts := 16, counter := true },
    { base := 0x2010, insts := 16, acc := .rw, dflt := 0xb4, range := .le 120 400, cls := .tick },
    { base := 0x2011, insts := 16, dflt := 0xffff },
    { base := 0x2014, insts := 16, acc := .rw, dflt := 0x1, range := .le 0 2, cls := .tick },
    { base := 0x2015, insts := 16, acc := .rw, dflt := 0xccd, cls := .tick },
    { base := 0x2018, insts := 16, dflt := 0xffffffff },
    { base := 0x2019, insts := 16, dflt := 0xffffffff },
    { base := 0x201a, insts := 16, dflt := 0xffff },
    { base := 0x201c, insts := 16, acc := .rw, dflt := 0x32, range := .le 10 500, cls := .tick },
    { base := 0x2020, insts := 16, acc := .rw, dflt := 0x2, range := .le 1 8, cls := .tick, pair := true },
    { base := 0x2021, insts := 16, acc := .rw, dflt := 0x3, range := .le 1 15, cls := .tick, pair := true },
    { base := 0x2022, insts := 16, acc := .rw, dflt := 0x3, range := .le 1 16, cls := .tick, pair := true, modes := 0x20a },
    { base := 0x2023, insts := 16, counter := true },
    { base := 0x2024, insts := 16, counter := true },
    { base := 0x2025, insts := 16, counter := true },
    { base := 0x2026, insts := 16, counter := true },
    { base := 0x2027, insts := 16, counter := true },
    { base := 0x2028, insts := 16, counter := true },
    { base := 0x2029, insts := 16 },
    { base := 0x202a, insts := 16 } ]

/-- The parameters of group 0x3. -/
def paramGroup3 : List ParamRow :=
  [ { base := 0x3000, insts := 16, acc := .w1c, w1c := 0x200 },
    { base := 0x3001, insts := 16, acc := .rw, dflt := 0x20, range := .le 8 128, cls := .tick, pair := true },
    { base := 0x3002, insts := 16, acc := .rw, range := .le 0 127, cls := .tick, pair := true },
    { base := 0x3003, insts := 16, acc := .rw, dflt := 0x1, range := .le 1 16, cls := .tick, pair := true },
    { base := 0x3004, insts := 16, acc := .rw, cls := .tick, pair := true },
    { base := 0x3005, insts := 16, acc := .rw, cls := .tick, pair := true },
    { base := 0x3006, insts := 16, acc := .rw, dflt := 0x1, range := .le 0 32, cls := .tick, pair := true },
    { base := 0x3007, insts := 16, acc := .rw, dflt := 0x4, range := .le 1 8, cls := .tick, pair := true },
    { base := 0x3008, insts := 16 },
    { base := 0x3009, insts := 16 },
    { base := 0x300a, insts := 16 },
    { base := 0x300b, insts := 16 },
    { base := 0x3010, insts := 16, counter := true },
    { base := 0x3011, insts := 16, counter := true },
    { base := 0x3012, insts := 16, counter := true },
    { base := 0x3013, insts := 16, counter := true },
    { base := 0x3014, insts := 16 },
    { base := 0x3015, insts := 16 } ]

/-- The parameters of group 0x4. -/
def paramGroup4 : List ParamRow :=
  [ { base := 0x4000, acc := .w1c, w1c := 0x300 },
    { base := 0x4001, acc := .rw, dflt := 0x1, range := .le 0 1, cls := .imm, modes := 0x202 },
    { base := 0x4002, acc := .rw, dflt := 0x50, range := .le 8 8000, cls := .tick, pair := true },
    { base := 0x4003, counter := true },
    { base := 0x4004 },
    { base := 0x4005 },
    { base := 0x4006, acc := .rw, dflt := 0x8, range := .le 4 64, cls := .tick, pair := true },
    { base := 0x4007, acc := .rw, dflt := 0x4, range := .le 2 64, cls := .tick, pair := true },
    { base := 0x4008 },
    { base := 0x4009 },
    { base := 0x400a, counter := true },
    { base := 0x4010, acc := .w1c, w1c := 0x180 },
    { base := 0x4011 },
    { base := 0x4012 },
    { base := 0x4013, acc := .rw, dflt := 0x50, range := .le 16 8000, cls := .tick, pair := true },
    { base := 0x4014, counter := true },
    { base := 0x4015 } ]

/-- The parameters of group 0x5. -/
def paramGroup5 : List ParamRow :=
  [ { base := 0x5000, acc := .w1c, w1c := 0x10 },
    { base := 0x5001 },
    { base := 0x5002, counter := true },
    { base := 0x5003, counter := true },
    { base := 0x5004, counter := true },
    { base := 0x5005 } ]

/-- The parameters of group 0x6. -/
def paramGroup6 : List ParamRow :=
  [ { base := 0x6000, acc := .w1c, w1c := 0x3c000 },
    { base := 0x6001 },
    { base := 0x6002 },
    { base := 0x6003 },
    { base := 0x6004, acc := .rw, dflt := 0x7d0, range := .le 500 60000, cls := .imm, pair := true, modes := 0x202 },
    { base := 0x6005, acc := .rw, dflt := 0x1, range := .le 0 1, cls := .imm, pair := true, modes := 0x202 },
    { base := 0x6006, acc := .rw, dflt := 0x10, range := .le 12 800, cls := .tick, pair := true },
    { base := 0x6007, acc := .rw, dflt := 0x50, range := .le 8 8000, cls := .tick, pair := true },
    { base := 0x6008, counter := true },
    { base := 0x6009, counter := true },
    { base := 0x600a, counter := true },
    { base := 0x600b, counter := true },
    { base := 0x600c, counter := true },
    { base := 0x600d, counter := true },
    { base := 0x600e },
    { base := 0x600f },
    { base := 0x6020, acc := .w1c, w1c := 0x29800 },
    { base := 0x6021, dflt := 0xffffffff },
    { base := 0x6022, dflt := 0xffffffff },
    { base := 0x6023, acc := .rw, range := .sle (-200) 200, cls := .tick, pair := true, modes := 0x202 },
    { base := 0x6024, acc := .rw, range := .sle (-200) 200, cls := .tick, pair := true, modes := 0x202 },
    { base := 0x6025, counter := true },
    { base := 0x6026, counter := true },
    { base := 0x6027, counter := true },
    { base := 0x6028 },
    { base := 0x6029, acc := .rw, dflt := 0x800, range := .le 64 131072, cls := .imm, pair := true },
    { base := 0x602a, acc := .rw, dflt := 0x10, range := .le 2 64, cls := .imm, pair := true },
    { base := 0x602b, acc := .rw, dflt := 0x2710, range := .le 1000 120000, cls := .imm, pair := true },
    { base := 0x602c },
    { base := 0x602d },
    { base := 0x602e, counter := true } ]

/-- The parameters of group 0x7. -/
def paramGroup7 : List ParamRow :=
  [ { base := 0x7000, acc := .w1c, w1c := 0x200 },
    { base := 0x7001, acc := .rw, range := .mask 0xF, cls := .restart, modes := 0x202 },
    { base := 0x7002 },
    { base := 0x7003 },
    { base := 0x7004 },
    { base := 0x7005 },
    { base := 0x7006, acc := .rw, dflt := 0x2238, range := .le 720 43800, cls := .imm },
    { base := 0x7007 },
    { base := 0x7008, acc := .rw, range := .mask 0x131, cls := .tick },
    { base := 0x7009, counter := true } ]

/-- The parameters of group 0x8. -/
def paramGroup8 : List ParamRow :=
  [ { base := 0x8000 },
    { base := 0x8001, acc := .rw, dflt := 0x3, range := .le 0 5, cls := .imm, pair := true },
    { base := 0x8002, counter := true },
    { base := 0x8003, counter := true } ]

/-- The parameters of group 0x9. -/
def paramGroup9 : List ParamRow :=
  [ { base := 0x9000 },
    { base := 0x9001, counter := true } ]

/-- The parameters of group 0xa. -/
def paramGroupA : List ParamRow :=
  [ { base := 0xa000, acc := .w1c, w1c := 0xc },
    { base := 0xa001, acc := .rw, dflt := 0xa, range := .le 1 60, cls := .tick },
    { base := 0xa002, acc := .rw, dflt := 0x3c, range := .le 0 1800, cls := .imm },
    { base := 0xa003, acc := .rw, dflt := 0xa, range := .le 0 600, cls := .imm },
    { base := 0xa004, acc := .rw, dflt := 0x1c, cls := .imm },
    { base := 0xa005 },
    { base := 0xa006 },
    { base := 0xa007 },
    { base := 0xa008, counter := true },
    { base := 0xa009, counter := true },
    { base := 0xa010 },
    { base := 0xa011 } ]

/-- The parameters of group 0xb. -/
def paramGroupB : List ParamRow :=
  [ { base := 0xb000, insts := 8, acc := .w1c, dflt := 0x20, w1c := 0xe },
    { base := 0xb001, insts := 8, acc := .rw, dflt := 0x1, range := .le 0 1, cls := .imm },
    { base := 0xb002, insts := 8, acc := .rw, dflt := 0x3c, range := .le 1 60000, cls := .imm },
    { base := 0xb003, insts := 8, acc := .rw, dflt := 0x20, range := .le 1 1024, cls := .imm },
    { base := 0xb004, insts := 8, acc := .rw, dflt := 0x1, range := .le 0 2, cls := .imm },
    { base := 0xb005, insts := 8, span := 2 },
    { base := 0xb007, insts := 8, span := 2, dflt := 0x200 },
    { base := 0xb009, insts := 8 },
    { base := 0xb00a, insts := 8 },
    { base := 0xb00b, insts := 8, span := 2, counter := true },
    { base := 0xb00d, insts := 8, counter := true },
    { base := 0xb00e, insts := 8, counter := true },
    { base := 0xb00f, insts := 8, counter := true },
    { base := 0xb010, insts := 8, counter := true },
    { base := 0xb011, insts := 8 },
    { base := 0xb012, insts := 8, span := 2 },
    { base := 0xb014, insts := 8 },
    { base := 0xb015, insts := 8 },
    { base := 0xb016, insts := 8, counter := true },
    { base := 0xb017, insts := 8, counter := true },
    { base := 0xb800 },
    { base := 0xb801, counter := true },
    { base := 0xb802, counter := true },
    { base := 0xb803, span := 2 },
    { base := 0xb805, acc := .rw, dflt := 0x18, range := .le 1 720, cls := .imm },
    { base := 0xb806 },
    { base := 0xb807, counter := true },
    { base := 0xb808 },
    { base := 0xb809 },
    { base := 0xb80a, counter := true },
    { base := 0xb80b, counter := true },
    { base := 0xb80c },
    { base := 0xb80d, counter := true },
    { base := 0xb80e, counter := true },
    { base := 0xb80f, counter := true } ]

/-- The parameters of group 0xc. -/
def paramGroupC : List ParamRow :=
  [ { base := 0xc000, insts := 16, acc := .w1c, w1c := 0x2c00 },
    { base := 0xc001, insts := 16, acc := .rw, cls := .tick, modes := 0x202 },
    { base := 0xc002, insts := 16 },
    { base := 0xc003, insts := 16, span := 2 },
    { base := 0xc005, insts := 16, counter := true },
    { base := 0xc006, insts := 16, counter := true },
    { base := 0xc007, insts := 16, counter := true },
    { base := 0xc008, insts := 16, counter := true },
    { base := 0xc009, insts := 16, counter := true },
    { base := 0xc00a, insts := 16, counter := true },
    { base := 0xc00b, insts := 16, counter := true },
    { base := 0xc010, insts := 16, span := 8, counter := true },
    { base := 0xc018, insts := 16, span := 8 } ]

/-- The parameters of group 0xd. -/
def paramGroupD : List ParamRow :=
  [ { base := 0xd000, insts := 16 },
    { base := 0xd001, insts := 16 },
    { base := 0xd002, insts := 16, acc := .rw, dflt := 0x1, range := .le 1 8, cls := .imm },
    { base := 0xd003, insts := 16, acc := .rw, dflt := 0x8, range := .le 1 15, cls := .imm },
    { base := 0xd004, insts := 16 },
    { base := 0xd005, insts := 16 },
    { base := 0xd006, insts := 16 },
    { base := 0xd007, insts := 16 },
    { base := 0xd008, insts := 16 },
    { base := 0xd009, insts := 16, counter := true },
    { base := 0xd00a, insts := 16, counter := true },
    { base := 0xd00b, insts := 16, counter := true },
    { base := 0xd00c, insts := 16 },
    { base := 0xd00d, insts := 16 },
    { base := 0xd00e, insts := 16 },
    { base := 0xd00f, insts := 16, acc := .rw, dflt := 0x3c, range := .le 5 600, cls := .imm },
    { base := 0xd010, insts := 16, span := 6, acc := .rw, cls := .imm },
    { base := 0xd016, insts := 16, span := 6 },
    { base := 0xd01c, insts := 16, span := 6 },
    { base := 0xd022, insts := 16, acc := .rw, dflt := 0x78, range := .le 10 3600, cls := .imm },
    { base := 0xd023, insts := 16 },
    { base := 0xd024, insts := 16 },
    { base := 0xd025, insts := 16 },
    { base := 0xd026, insts := 16, span := 2 },
    { base := 0xd080, acc := .w1c, w1c := 0x3200 },
    { base := 0xd081 },
    { base := 0xd082 },
    { base := 0xd083, acc := .rw, dflt := 0x1, range := .le 0 1, cls := .imm },
    { base := 0xd084, acc := .rw, dflt := 0x3c, range := .le 10 600, cls := .imm },
    { base := 0xd085, counter := true },
    { base := 0xd086, counter := true },
    { base := 0xd087 },
    { base := 0xd088 },
    { base := 0xd089 },
    { base := 0xd08a, counter := true },
    { base := 0xd08b } ]

/-- The parameters of group 0xe. -/
def paramGroupE : List ParamRow :=
  [ { base := 0xe000, acc := .w1c, w1c := 0x300 },
    { base := 0xe001 },
    { base := 0xe002 },
    { base := 0xe003, acc := .rw, dflt := 0x5a, range := .le 7 365, cls := .imm },
    { base := 0xe004 },
    { base := 0xe005, counter := true },
    { base := 0xe006, counter := true },
    { base := 0xe007, acc := .rw, dflt := 0xffff, cls := .imm, modes := 0x202 },
    { base := 0xe010, insts := 2, acc := .rw, dflt := 0xC0A83010, cls := .imm },
    { base := 0xe011, insts := 2, acc := .rw, dflt := 0xffffff00, cls := .imm },
    { base := 0xe012, insts := 2, acc := .rw, cls := .imm },
    { base := 0xe013, insts := 2 },
    { base := 0xe014, insts := 2 },
    { base := 0xe015, insts := 2 },
    { base := 0xe016, insts := 2, counter := true },
    { base := 0xe017, insts := 2 },
    { base := 0xe040, insts := 8, counter := true },
    { base := 0xe041, insts := 8, counter := true },
    { base := 0xe042, insts := 8 },
    { base := 0xe043, insts := 8 } ]

/-- The sensors' parameters (R476): kinds 0 to 5 and 6 to 11, each for S0 to S31. -/
def sensKind (id : Nat) : Option (Nat × Nat) :=
  if 0xF000 ≤ id ∧ id < 0xF0C0 then some ((id - 0xF000) / 0x20, (id - 0xF000) % 0x20)
  else if 0xF100 ≤ id ∧ id < 0xF1C0 then some ((id - 0xF100) / 0x20 + 6, (id - 0xF100) % 0x20)
  else none

/-- "No lower limit" and "no upper limit" of R477. -/
abbrev noLo : Nat := 0x80000000
abbrev noHi : Nat := 0x7FFFFFFF

/-- The transceiver's own threshold (R477). -/
abbrev xcvrThr : Nat := 0x80000001

/-- The default thresholds of R432 and R478: WARN_LO, WARN_HI, ALARM_LO, ALARM_HI of sensor `s`. -/
def sensDefaults (s : Nat) : Nat × Nat × Nat × Nat :=
  if s < 4 then (noLo, 1000, noLo, 1100)
  else match s with
  | 4 => (noLo, 950, noLo, 1050)
  | 5 => (noLo, 500, noLo, 600)
  | 6 => (noLo, 800, noLo, 900)
  | 7 => (noLo, 850, noLo, 950)
  | 8 => (776, 824, 760, 840)
  | 9 => (1067, 1133, 1045, 1155)
  | 10 => (1746, 1854, 1710, 1890)
  | 11 => (2425, 2575, 2375, 2625)
  | 12 => (4850, 5150, 4750, 5250)
  | 13 => (3201, 3399, 3135, 3465)
  | 14 => (3000, noHi, 2500, noHi)
  | 15 => (200, noHi, 150, noHi)
  | 16 => (900, 2600, 850, 2650)
  | 17 => (4750, 6250, 4700, 6300)
  | 18 => (noLo, 500, noLo, 550)
  | 25 => (noLo, 700, noLo, 900)
  | 26 => (noLo, 24, noLo, 40)
  | 27 => (noLo, 16, noLo, 256)
  | 28 => (xcvrThr, xcvrThr, xcvrThr, xcvrThr)
  | 29 => (xcvrThr, xcvrThr, xcvrThr, xcvrThr)
  | 30 => (noLo, 800, noLo, 1000)
  | 31 => (noLo, 16, noLo, 256)
  | _ => (1920, noHi, 1500, noHi)

/-- The row of a sensor parameter (R476). -/
def sensRow (id kind s : Nat) : ParamRow :=
  let d := sensDefaults s
  match kind with
  | 2 => { base := id, acc := .rw, dflt := d.1, cls := .imm }
  | 3 => { base := id, acc := .rw, dflt := d.2.1, cls := .imm }
  | 4 => { base := id, acc := .rw, dflt := d.2.2.1, cls := .imm }
  | 5 => { base := id, acc := .rw, dflt := d.2.2.2, cls := .imm }
  | 6 => { base := id, dflt := 0x7FFFFFFF, counter := true }
  | 7 => { base := id, dflt := 0x80000000, counter := true }
  | _ => { base := id, counter := decide (8 ≤ kind) }

/-- The rows of the group of R457 that a parameter number names. -/
def groupRows (id : Nat) : List ParamRow :=
  match id / 0x1000 with
  | 0 => paramGroup0 | 1 => paramGroup1 | 2 => paramGroup2 | 3 => paramGroup3 | 4 => paramGroup4 | 5 => paramGroup5
  | 6 => paramGroup6 | 7 => paramGroup7 | 8 => paramGroup8 | 9 => paramGroup9 | 10 => paramGroupA | 11 => paramGroupB
  | 12 => paramGroupC | 13 => paramGroupD | 14 => paramGroupE
  | _ => []

/-- Whether a row names parameter `id`, in one of its instances (R455, R456). -/
def ParamRow.names (r : ParamRow) (id : Nat) : Bool :=
  decide (r.base ≤ id) && decide ((id - r.base) % 0x100 < r.span) && decide ((id - r.base) / 0x100 < r.insts)

/-- The row that defines parameter `id`, if any (R456). -/
def paramRow (id : Nat) : Option ParamRow :=
  match sensKind id with
  | some (k, s) => some (sensRow id k s)
  | none => (groupRows id).find? (·.names id)

/-- One table of the module (R459): its first number, its instances, its entries, the 32-bit words of an entry, the
writable bits of each word, the non-zero default words, and whether it is pair configuration. -/
structure TableRow where
  base : Nat
  insts : Nat := 1
  entries : Nat
  words : Nat
  rw : List (Nat × Nat) := []
  dflt : List (Nat × Nat) := []
  pair : Bool := false
  state : Bool := false
  modes : Nat := 0xFFF
  clear : List (Nat × Nat) := []
  deriving DecidableEq, Repr

/-- The tables of the module, in the order of their numbers. -/
def tableRows : List TableRow :=
  [ { base := 0x00C0, entries := 4, words := 8 },
    { base := 0x00C1, entries := 16, words := 2 },
    { base := 0x00C2, entries := 10, words := 4 },
    { base := 0x00C3, entries := 5, words := 4, dflt := [(1, 0xFFFFFFFF)] },
    { base := 0x20C0, insts := 16, entries := 1024, words := 32,
      rw := [(1, 0xFFFFFFFF), (2, 0x00FF0000), (3, 0xFFFFFFFF), (4, 0xFFFFFFFF), (5, 0xFFFFFFFF), (6, 0xFFFFFFFF),
        (7, 0xFFFFFFFF), (8, 0xFFFFFFFF), (9, 0xFFFFFFFF), (10, 0xFFFFFFFF), (11, 0xFFFFFFFF), (12, 0xFFFFFFFF)] },
    { base := 0x20C1, insts := 16, entries := 1024, words := 2, dflt := [(0, 0xFFFFFFFF)],
      clear := [(0, 0xFFFF), (1, 0xFFFFFFFF)] },
    { base := 0x20C2, insts := 16, entries := 192, words := 2, pair := true },
    { base := 0x20C3, insts := 16, entries := 16, words := 2 },
    { base := 0x20C4, insts := 16, entries := 192, words := 2, rw := [(0, 0xF00), (1, 0xFFFFFFFF)],
      dflt := [(0, 0xF0000800)], pair := true },
    { base := 0x20C5, insts := 16, entries := 32, words := 4 },
    { base := 0x20C6, insts := 16, entries := 64, words := 20 },
    { base := 0x20C7, insts := 16, entries := 16, words := 36, dflt := [(0, 0x100)] },
    { base := 0x30C0, insts := 16, entries := 512, words := 2, rw := [(0, 0xFFFFC000), (1, 0xFFF3FFFF)],
      dflt := [(0, 0x003FC000)], pair := true },
    { base := 0x30C1, insts := 16, entries := 8192, words := 2 },
    { base := 0x40C0, entries := 32, words := 4, rw := [(0, 0x0007E000)], dflt := [(0, 0x6000)], pair := true,
      modes := 0x202 },
    { base := 0x40C1, entries := 32, words := 4, clear := [(1, 0xFFFFFFFF), (2, 0xFFFFFFFF)] },
    { base := 0x40C2, entries := 1024, words := 6,
      rw := [(0, 0xC0000000), (1, 0xFFFFFFFF), (2, 0xFFFFFFFF), (3, 0xFFFFFFFF), (4, 0xFFFFFFFF), (5, 0xFFFFFFFF)],
      state := true },
    { base := 0x40C3, entries := 32, words := 4 },
    { base := 0x40C4, insts := 16, entries := 768, words := 4, rw := [(0, 1), (2, 0xFFFFFFFF), (3, 0xFFFFFFFF)],
      pair := true },
    { base := 0x40C5, entries := 1024, words := 6 },
    { base := 0x50C0, entries := 1024, words := 16, dflt := [(0, 0x10000000)] },
    { base := 0x50C1, entries := 256, words := 8 },
    { base := 0x50C2, entries := 128, words := 4 },
    { base := 0x50C3, entries := 1024, words := 8, clear := [(4, 0xFFFFFFFF)] },
    { base := 0x50C4, entries := 256, words := 8, clear := [(4, 0xFFFFFFFF)] },
    { base := 0x50C5, entries := 128, words := 2 },
    { base := 0x60C0, entries := 24, words := 2, rw := [(0, 0xFC000000), (1, 0xFFFFFFFF)], pair := true,
      modes := 0x202, clear := [(0, 0xFFFF)] },
    { base := 0x60C1, entries := 16, words := 4,
      clear := [(1, 0xFFFFFFFF), (2, 0xFFFFFFFF), (3, 0xFFFFFFFF)] },
    { base := 0x70C0, entries := 2, words := 8 },
    { base := 0x80C0, entries := 16, words := 2, rw := [(0, 0xFCFF03FF)], dflt := [(0, 0x04040064)], pair := true,
      modes := 0x202 },
    { base := 0x80C1, entries := 8, words := 4,
      rw := [(0, 0xFE007FFF), (1, 0xFFFFFFFF), (2, 0xFFFFFFFF), (3, 0xFFFFFFFF)], pair := true, modes := 0x202 },
    { base := 0x80C2, entries := 6, words := 4, rw := [(0, 0x80000000)], dflt := [(1, 0xFFFF0000)], pair := true,
      clear := [(1, 0xFFFF0000), (2, 0xFFFFFFFF), (3, 0xFFFFFFFF)] },
    { base := 0x80C3, entries := 24, words := 2, clear := [(0, 0xFFFF)] },
    { base := 0x90C0, entries := 4, words := 8,
      rw := [(1, 0xFEFF0000), (2, 0xFE000000), (3, 0xFFFFFFFF), (4, 0xFFFF00FF), (5, 0xFFFFFFFF), (6, 0xFFFFFFFF),
        (7, 0xFFFF0000)] },
    { base := 0x90C1, insts := 4, entries := 256, words := 1, rw := [(0, 0xFFFFFFFF)] },
    { base := 0x90C2, insts := 4, entries := 8, words := 24,
      rw := (0, 0xFFF80000) :: (List.range 17).map fun i => (i + 1, 0xFFFFFFFF) },
    { base := 0xA0C0, entries := 8, words := 16 },
    { base := 0xA0C1, entries := 1, words := 16 },
    { base := 0xB8C0, entries := 1024, words := 8, rw := [(1, 0xFFFFFFC0)] },
    { base := 0xC0C0, insts := 16, entries := 32, words := 4 },
    { base := 0xC0C1, insts := 16, entries := 32, words := 4,
      rw := [(0, 0xFFFFFFC0), (1, 0xFFFF), (2, 0xFFFFFFC0), (3, 0x8FFFFFFF)], pair := true, modes := 0x202 },
    { base := 0xD0C0, entries := 16, words := 16 },
    { base := 0xD0C1, insts := 16, entries := 192, words := 2 } ]

/-- Whether a row names table `tid` (R455, R456). -/
def TableRow.names (r : TableRow) (tid : Nat) : Bool :=
  decide (r.base ≤ tid) && decide ((tid - r.base) % 0x100 = 0) && decide ((tid - r.base) / 0x100 < r.insts)

def tableRow (tid : Nat) : Option TableRow := tableRows.find? (·.names tid)

/-- The value paired with `w` in a short list of words, else 0. -/
def wordOf (l : List (Nat × Nat)) (w : Nat) : Nat := ((l.find? (·.1 == w)).map (·.2)).getD 0

/-- The key of a table word in the word file: parameters keep their own numbers as keys. (DESIGN CHOICE, log entry 4) -/
abbrev tkey (tid entry word : Nat) : Nat := 2 ^ 32 + tid * 2 ^ 20 + entry * 2 ^ 6 + word

/-- What an unlisted word of the word file reads as: the default of its parameter, or the reset word of its table. (DESIGN CHOICE, log entry 3) -/
def dfltWord (k : Nat) : U32 :=
  if k < 2 ^ 16 then
    match paramRow k with
    | some r => if k = 0xE110 then 0xC0A83110#32 else w32 r.dflt
    | none => 0#32
  else
    let tid := (k - 2 ^ 32) / 2 ^ 20
    let e := (k - 2 ^ 32) / 2 ^ 6 % 2 ^ 14
    let w := k % 2 ^ 6
    if tid = 0xB8C0 then Config.recCodes e w
    else match tableRow tid with
      | some r => w32 (wordOf r.dflt w)
      | none => 0#32

end Sys2Proof.Machine
end

