-- ==== Sys2Proof/Word/Types.lean ====
section
/-!
DEFINITION. The plain-data types that commands and State share: the parts of the module, the modes, the frames of the
trunk as bytes with what a receiver measures of them, mailbox requests, and the kinds of recorder events.
-/

namespace Sys2Proof.Machine

/-- The dies, in the numbering of R418. -/
inductive Die where
  | core | line | fd0 | fd1 | keeper
  deriving DecidableEq, Repr

def Die.num : Die → Nat
  | .core => 0 | .line => 1 | .fd0 => 2 | .fd1 => 3 | .keeper => 4

/-- The packages, in the numbering of R418. -/
inductive Pkg where
  | main | field | keeper
  deriving DecidableEq, Repr

def Pkg.num : Pkg → Nat
  | .main => 0 | .field => 1 | .keeper => 2

/-- The twelve modes M0 to M11 of R409. -/
inductive Mode where
  | boot | hold | listen | commission | standalone | lead | trail | resync | replay | service | update | faultSafe
  deriving DecidableEq, Repr

/-- The mode number of R409. -/
def Mode.num : Mode → Nat
  | .boot => 0 | .hold => 1 | .listen => 2 | .commission => 3 | .standalone => 4 | .lead => 5 | .trail => 6
  | .resync => 7 | .replay => 8 | .service => 9 | .update => 10 | .faultSafe => 11

/-- The mode that a mode number names (R409). -/
def Mode.ofNum : Nat → Option Mode
  | 0 => some .boot | 1 => some .hold | 2 => some .listen | 3 => some .commission | 4 => some .standalone
  | 5 => some .lead | 6 => some .trail | 7 => some .resync | 8 => some .replay | 9 => some .service
  | 10 => some .update | 11 => some .faultSafe | _ => none

/-- The run modes: STANDALONE, LEAD and TRAIL. -/
def Mode.run : Mode → Bool
  | .standalone | .lead | .trail => true
  | _ => false

/-- The modes in which the module contends for event rounds (R123). -/
def Mode.contends : Mode → Bool
  | .standalone | .lead | .commission => true
  | _ => false

/-- The two links of the sync link. -/
inductive Link where
  | a | b
  deriving DecidableEq, Repr

/-- The source codes of a reset (R416). -/
inductive ResetSrc where
  | por | bor | pin | wdt | swr | dbg | clkf | lockup
  deriving DecidableEq, Repr

def ResetSrc.code : ResetSrc → Nat
  | .por => 1 | .bor => 2 | .pin => 3 | .wdt => 4 | .swr => 5 | .dbg => 6 | .clkf => 7 | .lockup => 8

/-- The scope of a reset with its unit (R418). -/
inductive ResetScope where
  | module
  | mainDomain
  | die (d : Die)
  | package (p : Pkg)
  | region (r : Fin 14)
  deriving DecidableEq, Repr

/-- A frame as one receiver has it on the trunk: the byte values from frame byte 3 to the end of the CRC (R94, R97),
whether every code group was sound (R92), whether it began with SOB and not SOF, and the receive stamp of its start
byte at the connector, plant time in ns (R42, R43). (DESIGN CHOICE, log entry 1) -/
structure RxFrame where
  bytes : List Byte
  codeOk : Bool
  sob : Bool
  stamp : Nat
  deriving DecidableEq, Repr

/-- What the front end measures of one frame received with a coefficient set: the SNR in 0.1 dB (R79), the set's new
coefficient words W1 to W12 and drift after an adaptation step, should one apply (R72, R73), and the echo delay in ns,
where the equaliser error shows one (R84). (DESIGN CHOICE, log entry 1) -/
structure RxMeasure where
  snr : Nat
  adapted : List U32
  drift : Nat
  echo : Option Nat
  deriving DecidableEq, Repr

/-- A management request as a station receives it (R107): its address, and its payload bytes in wire order, the first
two being `MCMD` and `MTAG`. -/
structure MReq where
  addr : U8
  payload : List Byte
  deriving DecidableEq, Repr

/-- The requester of a mailbox command: the mailbox, the `TAG`, the session number and the port it came in by. -/
structure Rq where
  mb : Fin 8
  tag : U16
  session : U32
  deriving DecidableEq, Repr



/-! ### Messages of the sync link (R286 to R293) -/

/-- A control message (R292). -/
structure Ctl where
  code : Nat
  arg : Nat
  word : U32
  tick : Nat
  deriving DecidableEq, Repr

/-- The validity, states and edge records of one digital channel in a snapshot (R270). -/
structure DioSnap where
  state : Bool
  valid : Bool
  edges : Nat
  decided : Nat
  first : Nat
  dir : Bool
  deriving DecidableEq, Repr

/-- One current-loop channel in a snapshot (R270). -/
structure ClSnap where
  value : U32
  valid : Bool
  compliance : Bool
  deriving DecidableEq, Repr

/-- A local snapshot (R270): the digital channels, the current loops, and the sag state of each group. -/
structure Snap where
  dio : List DioSnap
  cl : List ClSnap
  sag : List Nat
  deriving DecidableEq, Repr

/-- The payload of an EXCH frame (R291): completion vector, late vectors of loops, generators and groups, the local
snapshot and the control messages. -/
structure Exch where
  tick : Nat
  done : Nat
  lateLoops : Nat
  lateGens : Nat
  lateGroups : Nat
  snap : Snap
  ctl : List Ctl
  deriving DecidableEq, Repr

/-- The payload of a BEAT (R293). -/
structure Beat where
  tick : Nat
  tx : Nat
  echoTick : Nat
  echoRx : Nat
  claim : U32
  mode : Nat
  solo : Bool
  withdrawing : Bool
  orderK : Bool
  catching : Bool
  pairLevel : Nat
  execLevel : Nat
  progHash : List Byte
  cfgHash : List Byte
  stateDigest : List Byte
  mask : Nat
  wireMask : Nat
  digests : List (List Byte)
  deriving DecidableEq, Repr

/-- A record of an RX frame (R290). -/
structure RxRecord where
  port : Fin 16
  kind : Nat
  entry : Nat
  cycle : Nat
  stamp : Nat
  hdr : List Byte
  data : List Byte
  deriving DecidableEq, Repr

/-! ### Program packages and runs (R164 to R178, R208) -/

/-- One instance of a change package's instance map (R208, R217): its owner task, the action (0 KEEP, 1 MAP, 2 NEW,
3 REMOVE), the old and the new placement and length, and for MAP the bytes moved: (from, to, length). -/
structure InstMove where
  task : Nat
  action : Nat
  oldAt : Nat
  newAt : Nat
  len : Nat
  fields : List (Nat × Nat × Nat)
  init : List Byte
  deriving DecidableEq, Repr

/-- An orphan of a change package (R208, R218): the 8-byte word of an output image, its mask, HOLD or SUBSTITUTE, and the
substitute word. -/
structure Orphan where
  offset : Nat
  mask : U64
  hold : Bool
  subst : U64
  deriving DecidableEq, Repr

/-- A PRG image, or a change package (R164, R208), as far as the module acts on it: its hashes, its execution semantics
level, whether every limit and check of R164, R178, R216 and R296 holds, its task table, its instance map, its shared
variables, orphans, loop-table words and migration times, and the placement of each task's instances (task, address, length). -/
structure Package where
  hash : List Byte
  base : List Byte
  program : List Byte
  execLevel : Nat
  limitsOk : Bool
  dramBytes : Nat
  retainBytes : Nat
  tasks : List (List U32)
  moves : List InstMove
  initCells : List (Nat × Byte)
  retain : List (Nat × Nat)
  orphans : List Orphan
  loopWords : List (Nat × Nat × Nat × U32)
  mts : List Nat
  owners : List (Nat × Nat × Nat)
  deriving DecidableEq, Repr

/-- What a task run leaves (R178): its words of output images (process-memory offset, mask, value), its writes to shared
variables (address, byte), the receive-queue entries acknowledged and the transmit entries submitted or freed (port,
entry, words), its outbox messages, and its run time in microseconds. (DESIGN CHOICE, log entry 1) -/
structure RunEffects where
  outs : List (Nat × U64 × U64)
  vars : List (Nat × Byte)
  inst : List (Nat × Byte)
  rxqAcks : List (Fin 16 × Fin 64)
  txqPuts : List (Fin 16 × Fin 16 × List U32)
  txqFrees : List (Fin 16 × Fin 16)
  inboxReads : List (Fin 16)
  outbox : List (List Byte)
  micros : Nat
  deriving DecidableEq, Repr

/-- A run that has left nothing yet. -/
def RunEffects.none : RunEffects :=
  { outs := [], vars := [], inst := [], rxqAcks := [], txqPuts := [], txqFrees := [], inboxReads := [], outbox := [],
    micros := 0 }

/-- What a run has left so far, with what its end adds. -/
def RunEffects.add (a b : RunEffects) : RunEffects :=
  { outs := b.outs, vars := a.vars ++ b.vars, inst := b.inst, rxqAcks := a.rxqAcks ++ b.rxqAcks,
    txqPuts := a.txqPuts ++ b.txqPuts, txqFrees := a.txqFrees ++ b.txqFrees,
    inboxReads := a.inboxReads ++ b.inboxReads, outbox := a.outbox ++ b.outbox, micros := b.micros }

/-! ### Acquisition and Gauge (file 13) -/

/-- What a capture unit has of a segment when it closes (R383, R384, R386): plant time of the first sample or record, its
count, the records lost, whether it holds calibration samples and whether its pre-trigger part is short, and the samples or
records as bytes. -/
structure SegData where
  firstTime : Nat
  count : Nat
  lost : Nat
  cal : Bool
  preShort : Bool
  deadNs : Nat
  bytes : List Byte
  deriving DecidableEq, Repr

/-- A Gauge record (R392, R393): its tick, type, payload length, the bytes of the process memory and the words that it
records as new, and a digest or hash that it carries. -/
structure GRec where
  tick : Nat
  rtype : Nat
  len : Nat
  pm : List (Nat × Byte)
  words : List (Nat × U32)
  data : List Byte
  deriving DecidableEq, Repr

/-- A snapshot (R394): its tick, whether it is full, and the pair state at its tick: process memory, program data and the
words of tables. (DEDUCED, log entry 24) -/
structure GSnap where
  tick : Nat
  full : Bool
  pm : List (Nat × Byte)
  dram : List (Nat × Byte)
  words : List (Nat × U32)
  prgHash : List Byte
  cfgHash : List Byte
  deriving DecidableEq, Repr

/-- The content of a marked window (R397, R400): the snapshots from S on, the first being the full state, the records from S
to E, E, the full program and configuration hash at S, and the execution semantics level. -/
structure GWin where
  snaps : List GSnap
  recs : List GRec
  endTick : Nat
  prgHash : List Byte
  cfgHash : List Byte
  level : Nat
  deriving DecidableEq, Repr

/-! ### Images and station packages (file 19) -/

/-- A station firmware package (R532): vendor and product code, base and target version, target level, the manifest record,
and the delta of each target block as commands with the length of what each produces (R534). -/
structure StnPkg where
  vendor : U16
  product : U16
  base : U32
  target : U32
  level : Nat
  manifest : List Byte
  blocks : List (List (List Byte × Nat))
  deriving DecidableEq, Repr

/-! ### Resets and BOOT (file 14) -/

/-- What a step of the release order brings (R324, R421 to R424, R528, R76): the dies whose clocks are not yet stable, whether
the step's own tests passed, the EPs that failed the comparator test and its duration in µs, the ports whose calibration failed,
RAWTIME at the load of the time unit, the supply of each field group in 10 mV, and whether the settings had valid forms. -/
structure StepRes where
  unstable : List Die
  ok : Bool
  epFail : Nat
  duration : Nat
  calFail : Nat
  raw : Nat
  volts : List Nat
  convertOk : Bool
  deriving DecidableEq, Repr

/-- What a Keeper start meets: the strap and slot pins with the carrier code, the banks that verify (bit b for bank b), whether its clock reference was
found usable, what the lever contact shows, and whether the journal entry of the last RESTART write was cut short (R427). -/
structure KeeperStart where
  bootsel : Fin 4
  clksel : Fin 4
  posB : Bool
  carrier : Fin 128
  bankOk : Nat
  leverOut : Bool
  journalCut : Bool
  deriving DecidableEq, Repr

/-! ### Access guards (file 18) -/

/-- Who makes an access (R503, R515), with what the refusal of an access ends: the bytes that the run of an EP had written to its
instance, the unit of the loop engine (0 a loop, 1 a generator, 2 a group), what a capture unit's open segment holds, and the
request that the Keeper or the debug port carries out. -/
inductive Initiator where
  | ep (n : Fin 4) (priv : Fin 4) (inst : List (Nat × Byte))
  | loops (kind : Fin 3) (unit : Nat)
  | acq (u : Fin 4) (d : SegData)
  | gauge
  | sync
  | keeper (rq : Rq) (opcode : Nat)
  | debug (rq : Rq) (opcode : Nat)
  deriving DecidableEq, Repr

/-- A memory error met in an entry of a guard's current table (R511): corrected, uncorrectable, or unnoticed, leaving these words. -/
inductive RegionError where
  | corrected
  | uncorrectable
  | altered (words : List U32)
  deriving DecidableEq, Repr

/-! ### Changes that wait for a tick (files 15 and 16) -/

/-- What waits for an effect tick (R445, R462): a word with its new value, a counter clear, a manual output (R352), a group's
acknowledgement (R357), an address assigned (R147), a raised claim (R253), a guard's switch (R513), a force commit or clear
(R199), a task's resumption (R184), a schedule staged for a tick (R127), or a whole configuration (R529). -/
inductive StagedItem where
  | param (id : Nat) (value : U32)
  | table (tid entry word : Nat) (value : U32)
  | clear (id : Nat)
  | manual (chan : Nat) (value : U32)
  | groupAck (g : Nat)
  | assign (p addr : Nat) (serial : U32)
  | claim (amount : U32)
  | guardArm (g : Nat)
  | forces (commit : Bool)
  | resume (task : Nat)
  | schedule (p tick : Nat)
  | config (words : List (Nat × U32))
  deriving DecidableEq, Repr

/-! ### Time and the sync link (files 02 and 10) -/

/-- An IEEE 1588 message as the servo has it (R39): the port it came in by, its transport and domain, the grandmaster it is of, that
one's UTC offset, and the offset of plant time from it in ns, where the message completes a measurement. -/
structure PtpMsg where
  engB : Bool
  ieee : Bool
  domain : Fin 256
  gm : U64
  utc : Int
  offset : Option Int
  deriving DecidableEq, Repr

/-- What a frame of the sync link has in its header, and how it came (R283, R285): the cage it arrived at, its `LINK` bit, whether its
check holds, its number and its tick. -/
structure LinkFrame where
  link : Link
  linkBit : Bool
  sound : Bool
  fseq : U32
  tick : Nat
  deriving DecidableEq, Repr

/-- What a management frame carries beside its bytes (R286): a change package with its checks, a station
firmware package, or a program or configuration image of phase IMAGES (R303) with the result of its verification. -/
inductive MsgContent where
  | none
  | change (pkg : Package) (signed : Bool)
  | station (pkg : StnPkg)
  | program (pkg : Package) (verified : Bool)
  | config (words : List (Nat × U32)) (verified : Bool)
  deriving DecidableEq, Repr

/-! ### Schedules (R110 to R129) -/

/-- One used entry of the schedule matrix (R124), with its index in the table. -/
structure MEntry where
  idx : Nat
  addr : Nat
  part : Nat
  pass : Nat
  optional : Bool
  noInput : Bool
  posMask : Nat
  eqSet : Nat
  outWord : Nat
  deriving DecidableEq, Repr

/-- One entry of `SCHED_TIMES` (R125). -/
structure STime where
  pos : Nat
  entry : Nat
  launch : Nat
  deriving DecidableEq, Repr

/-- A schedule as committed (R110 to R129): the parameters in force, the used matrix entries, the launch times, the
budget figures, D and the delays it was computed with, and the input tick of every hypercycle position (R114). -/
structure Sched where
  rate : Nat
  period : Nat
  phase : Nat
  hyper : Nat
  bcast : Nat
  apply : Nat
  rounds : Nat
  evLen : Nat
  arbBit : Nat
  loopDelay : Nat
  entries : List MEntry
  times : List STime
  inputTicks : List Nat
  widths : List Nat
  inputEnd : Nat
  budgetEnd : Nat
  digest : U32
  deriving DecidableEq, Repr

/-! ### What a resync transfers (R297, R305, R306) -/

/-- A task's run state in a capture (R297, R305). -/
structure CutTask where
  released : Option Nat
  finished : Bool
  agreed : Bool
  late : Bool
  started : Bool
  kept : List (Nat × U64 × U64)
  randCalls : Nat
  newCode : Bool
  migrated : Bool
  suspended : Bool
  deriving DecidableEq, Repr

/-- A port's pair state in a capture: its schedules, and the words that stand in for missing frames. -/
structure CutPort where
  port : Fin 16
  cur : Option Sched
  staged : Option (Sched × Nat)
  configured : List Nat
  txqOrder : List Nat
  txqSubs : List Nat
  rxqPos : Nat
  cycle : Nat
  cycleTick : Nat
  begun : Bool
  deriving DecidableEq, Repr

/-- The state of tick Z as the lead captured it (R297, R305): the bytes of the process memory and of the program data, by offset and by
address, the words of the transferred tables and parameters, the pair seed, the program that runs, the staged change with its commit
tick, the tasks, the ports, the program cells of the loop engine, the inbox, the last valid word of each part, and what was received of the cycles in progress. -/
structure CutState where
  z : Nat
  pm : List (Nat × Byte)
  dram : List (Nat × Byte)
  words : List (Nat × U32)
  seed : List Byte
  program : Package
  change : Option Package
  commit : Nat
  tasks : List CutTask
  ports : List CutPort
  cells : List (Nat × U32)
  inbox : List (Nat × List Byte)
  inboxUsed : List (Nat × Nat)
  lastValid : List (Nat × U64)
  snap : Option Snap
  records : List RxRecord
  deriving DecidableEq, Repr

/-- The lead's items of one tick, buffered by a returning module (R306): its EXCH and BEAT, and its RX records. -/
structure LeadItems where
  exch : Exch
  beat : Beat
  records : List RxRecord
  deriving DecidableEq, Repr

/-! ### The Keeper (file 15) -/

/-- An operator certificate (R450) as far as the checks of R447 need it; `ok`: it has version 1 and verifies against the plant authority
key. -/
structure Cert where
  serial : U64
  roles : U32
  notBefore : U64
  notAfter : U64
  ok : Bool
  deriving DecidableEq, Repr

/-- What the outside brings to a queued request beside its bytes (log entry 1): results of verification, and what a transferred object or
a unit holds. (DESIGN CHOICE, log entry 1) -/
inductive ReqFact where
  | signed (ok : Bool)
  | change (pkg : Package) (signed : Bool)
  | window (win : GWin) (signed : Bool)
  | install (pkg : Option Package) (words : List (Nat × U32)) (signed : Bool)
  | station (pkg : StnPkg) (signed : Bool)
  | segment (d : SegData)
  | attest (signature : List Byte)
  | opening (certOk : Bool) (secret answer : List Byte)
  deriving DecidableEq, Repr

/-- What one housekeeping period meets (R431): the samples of S0 to S31, where a source is present; the four thresholds of each
transceiver, S28 first; whether the probe of the interconnect was answered; the time that steps 1 to 5 took, µs; the length of the
period in ns of plant time; how many requests step 6 reaches and what they need, by mailbox and tag; how many records step 7 has time
for, and the time of its longest write, µs; the refresh of NAND; link state and error count of each ENG port; and how many responses
of each mailbox the transport has delivered. (DESIGN CHOICE, log entry 1) -/
structure Period where
  samples : List (Option Int)
  xcvr : List Int
  probe : Bool
  stepUs : Nat
  ns : Nat
  reach : Nat
  facts : List (Fin 8 × U16 × ReqFact)
  records : Nat
  recordUs : Nat
  refresh : U32
  refreshing : Bool
  links : List (Fin 16)
  rxErr : List Nat
  delivered : List (Fin 8 × Nat)
  deriving DecidableEq, Repr

end Sys2Proof.Machine
end

