-- ==== Sys2Proof/Syntax.lean ====
section
/-!
DEFINITION. The commands of the block: one constructor for every row of the table, with what the outside brings to it as
operands (log entry 1).
-/

namespace Sys2Proof

open Machine

/-- A command. -/
inductive Instr where
  /-- `RESET_POR` (R416): The standby rail crosses its power-on threshold and resets the whole module. -/
  | resetPor (others : List (ResetSrc × ResetScope))
  /-- `RESET_BOR` (R14): The brown-out detector of one package resets that package, with the containment consequences of its boundary. -/
  | resetBor (p : Pkg) (others : List (ResetSrc × ResetScope))
  /-- `RESET_PIN` (R416): RESET_N held low for at least 10 µs resets the whole module for as long as it stays low. -/
  | resetPin (lowNs : Nat) (others : List (ResetSrc × ResetScope))
  /-- `RESET_WDT` (R435): A watchdog or supervision failure resets the whole module, the main domain or one region. -/
  | resetWdt (sc : ResetScope) (others : List (ResetSrc × ResetScope))
  /-- `RESET_SWR` (R416): A software-requested restart (SYS_RESTART, proof restart or activation restart) resets the main domain, the whole module or one region. -/
  | resetSwr (others : List (ResetSrc × ResetScope))
  /-- `RESET_CLKF` (R422): A clock monitor finds a clock failed and holds its die in reset with cause CLKF. -/
  | resetClkf (d : Die) (others : List (ResetSrc × ResetScope))
  /-- `RESET_LOCKUP` (R416): An EP or the Keeper stops in an unrecoverable exception state and the corresponding scope is reset. -/
  | resetLockup (ep : Option (Fin 4)) (others : List (ResetSrc × ResetScope))
  /-- `DEFERRED_RELEASE` (R422): A release held pending for clock stability happens at the end of the first 1 ms of stability. -/
  | deferredRelease (d : Die) (r : StepRes)
  /-- `DEFERRED_RELEASE_TIMEOUT` (R422): A release deferred for more than 100 ms becomes a CLKF of that die. -/
  | deferredReleaseTimeout (d : Die)
  /-- `CLKF_RELEASE_RETRY` (R422): Every 10 s the Keeper requests again the release of a die held in reset by CLKF. -/
  | clkfReleaseRetry (d : Die) (r : StepRes)
  /-- `CLK_FALLBACK` (R420): The selected clock reference is absent or out of tolerance for 1 ms and the generators switch to the internal oscillator. -/
  | clkFallback
  /-- `KEEPER_DOMAIN_RELEASE` (R564): After MATE_N has read 0 for 10 ms the Keeper domain is released, straps and slot pins are latched and the Keeper starts. -/
  | keeperDomainRelease (k : KeeperStart)
  /-- `BOOT_RELEASE_STEP` (R424): On completion of one release step the Keeper starts the next step of the release order. -/
  | bootReleaseStep (r : StepRes)
  /-- `ACTIVATION_COPY` (R525): After the activation restart the boot loader copies the Chamber images into the inactive bank and switches the active bank. -/
  | activationCopy (ok : Bool) (bankOk : Fin 4)
  /-- `BOOT_END` (R411): BOOT completes and the module enters FAULT-SAFE, UPDATE, LISTEN or HOLD. -/
  | bootEnd
  /-- `MATE_BREAK` (R566): MATE_N reading 1 for 20 µs outside HOLD and FAULT-SAFE closes the gates, de-energises outputs and withdraws with cause 0x09. -/
  | mateBreak
  /-- `MAINS_LOSS` (R562): Mains is lost and the DC bus discharges toward the brown-out of the packages. -/
  | mainsLoss
  /-- `SWAP_LEVER_OUT` (R268): The swap lever is moved to OUT and the module acts according to its mode. -/
  | swapLeverOut
  /-- `SWAP_LEVER_IN` (R268): The swap lever is returned without extraction, clearing SWAP_READY and possibly entering LISTEN. -/
  | swapLeverIn
  /-- `REGION_RESET` (R425): A region reset is accepted, the Sluice closes and pending transactions are answered and drained. -/
  | regionReset (r : Fin 14) (src : ResetSrc)
  /-- `REGION_RELEASE` (R425): A reset region is released after its 64 cycles and its initialisation starts. -/
  | regionRelease (r : Fin 14)
  /-- `REGION_INIT_DONE` (R425): A region finishes its initialisation and the Sluice opens. -/
  | regionInitDone (r : Fin 14) (fail : Fin 16) (volts : List Nat)
  /-- `MODE_TRANSITION` (R412): An accepted mode change takes effect at the tick boundary. -/
  | modeTransition
  /-- `TICK_BOUNDARY` (R21): Tick k begins: releases, staged changes due at the boundary, the Emit and the Intake. -/
  | tickBoundary (dev : List Int) (differs : Nat) (cl : List U32) (gaugeLost : Bool)
  /-- `TAIL_BEACON_LAUNCH` (R101): The Tail end launches its beacon 2 µs after the cycle start when the Head end was not heard in the previous cycle. -/
  | tailBeaconLaunch (p : Fin 16) (dev : Int)
  /-- `TAIL_BROADCAST_LAUNCH` (R110): The Tail end launches its output broadcast after the Head-end broadcast has passed. -/
  | tailBroadcastLaunch (p : Fin 16) (differs : Bool)
  /-- `LOOP_WINDOW` (R227): The loop engine steps generators, evaluates due loops and resolves override groups. -/
  | loopWindow (loops : List Nat) (gens : List Nat) (groups : List Nat) (ns : Nat)
  /-- `PROGRAM_WINDOW_OPEN` (R167): At 55 µs each EP starts or continues its ready task of highest priority. -/
  | programWindowOpen (meas : List (Nat × Nat))
  /-- `RUN_FINISH` (R167): A task run finishes and the EP starts the next ready task. -/
  | runFinish (m : Fin 32) (eff : RunEffects)
  /-- `OUTPUT_CUT` (R180): At 110 µs output images are frozen, the completion vector and local snapshot are taken and suspended contexts are saved. -/
  | outputCut (fault : Bool) (volts : List U16)
  /-- `PARTNER_EXCH_RECEIVE` (R291): The partner's EXCH frame of the tick arrives. -/
  | partnerExchReceive (h : LinkFrame) (x : Exch)
  /-- `EXCH_TIMEOUT` (R179): The partner EXCH has not arrived by 117.0 µs and the module uses its own vectors alone. -/
  | exchTimeout
  /-- `BEAT_LAUNCH` (R289): Replacements are made, digests formed and the BEAT launched. -/
  | beatLaunch (txA : Nat) (txB : Nat)
  /-- `PARTNER_BEAT_RECEIVE` (R293): The partner's BEAT arrives, giving the heartbeat, digests and the time stamps for offset measurement. -/
  | partnerBeatReceive (h : LinkFrame) (rx : Nat) (b : Beat)
  /-- `TICK_END_DIGEST` (R317): At 120 µs both cores of each EP digest their register state and compare on lane 7. -/
  | tickEndDigest (reached : Nat) (diff : List (Fin 4 × U64))
  /-- `EXCHANGE_WINDOW_END` (R289): At 125 µs agreements, comparisons and the heartbeat of the tick are decided. -/
  | exchangeWindowEnd (lockA : Bool) (lockB : Bool)
  /-- `INTAKE_MISS` (R116): Partner reception data missing at the Intake keeps the previous input image and sets INTAKE_LATE. -/
  | intakeMiss (p : Fin 16)
  /-- `RX_RECORD_RECEIVE` (R290): A partner RX frame of slot frames, event-window frames or a reception vector arrives. -/
  | rxRecordReceive (h : LinkFrame) (records : List RxRecord)
  /-- `MSG_FRAME_RECEIVE` (R286): A management MSG frame arrives over the sync link. -/
  | msgFrameReceive (h : LinkFrame) (kind : Nat) (body : List Byte) (content : MsgContent)
  /-- `XFER_FRAME_RECEIVE` (R286): A resync XFER frame carrying a page quarter arrives. -/
  | xferFrameReceive (h : LinkFrame) (addr : Nat) (quarter : Fin 4) (pass : U8) (data : List Byte)
  /-- `LINK_UNUSABLE` (R282): A link with no valid frame or excessive delay for 8 ticks becomes unusable. -/
  | linkUnusable (l : Link)
  /-- `LINK_USABLE` (R282): A link meeting all conditions for 64 ticks becomes usable again. -/
  | linkUsable (l : Link)
  /-- `HEARTBEAT_LOST` (R263): No valid heartbeat for 8 ticks sets HB_LOST and SOLO. -/
  | heartbeatLost
  /-- `ALIGN_FAULT` (R38): A trail offset beyond ±1,000 ns in 8 ticks sets ALIGN_FAULT and withdraws. -/
  | alignFault
  /-- `PTP_MESSAGE_RECEIVE` (R39): An IEEE 1588 message is received and time-stamped and the servo updated. -/
  | ptpMessageReceive (m : PtpMsg)
  /-- `PTP_HOLDOVER` (R40): The grandmaster silent for 3 s or replaced sets HOLDOVER and keeps the last RATE. -/
  | ptpHoldover
  /-- `LOCKSTEP_MISMATCH` (R320): A comparator difference drives the fault signal, withdraws the module with cause 0x01 and records the fault. -/
  | lockstepMismatch (l : List (Fin 4 × Fin 8 × U64 × U64))
  /-- `GUARD_ACCESS_REFUSED` (R515): A guard refuses an access, records the fault and acts by initiator. -/
  | guardAccessRefused (who : Initiator) (kind : Fin 3) (addr : BitVec 48) (len : Fin 65) (passed : Bool) (errors : List (Fin 16 × Fin 32 × RegionError))
  /-- `WITHDRAWAL` (R249): A module closes its driver gates, de-energises outputs, sends a withdraw notice and enters the mode of its cause. -/
  | withdrawal
  /-- `DIVERGENCE_OUTCOME` (R257): At tick k + 2 the verdicts decide who withdraws or takes over. -/
  | divergenceOutcome
  /-- `TAKEOVER` (R261): The trail enters LEAD at the highest claim known plus 2 and takes the lead duties. -/
  | takeover
  /-- `LISTEN_ALONE_EXPIRE` (R248): After PAIR_LISTEN_ALONE without a partner and with ports ready, the module enters STANDALONE. -/
  | listenAloneExpire
  /-- `CLAIM_SUSPECT` (R253): Every PRESENT station sending OUT_HOLD for 16 cycles sets CLAIM_SUSPECT. -/
  | claimSuspect (p : Fin 16)
  /-- `LOCAL_DISAGREE` (R273): Two valid sources differing for PAIR_DISAGREE_TICKS set DISAGREE. -/
  | localDisagree (c : Fin 24)
  /-- `HANDOVER_TICK` (R267): At tick X the roles change with new claims. -/
  | handoverTick
  /-- `HO_CONFIRM_TIMEOUT` (R267): A trail that sent ACK without CONFIRM by X − 4 withdraws or takes LEAD at X. -/
  | hoConfirmTimeout
  /-- `HO_ACK_TIMEOUT` (R267): Without an ACK the lead abandons the handover. -/
  | hoAckTimeout
  /-- `WITHDRAW` (R292): A WITHDRAW control message from the partner is received. -/
  | withdraw (cause : U8)
  /-- `VERDICT` (R256): A partner VERDICT control message is received. -/
  | verdict (fault : Bool) (k : Nat)
  /-- `CHG_PROPOSE` (R212): The trail receives a commit proposal and checks it. -/
  | chgPropose (c : Nat) (hash : List Byte) (seed : List Byte)
  /-- `CHG_ACK` (R212): The lead receives the trail's ACK and sends CONFIRM. -/
  | chgAck (c : Nat)
  /-- `CHG_NAK` (R212): The lead receives a NAK and abandons the commit. -/
  | chgNak (c : Nat) (cause : Nat)
  /-- `CHG_CONFIRM` (R212): The trail receives CONFIRM and the phase becomes CONFIRMED. -/
  | chgConfirm (c : Nat)
  /-- `CHG_ACK_TIMEOUT` (R212): No ACK by the exchange of C − 8 abandons the commit. -/
  | chgAckTimeout
  /-- `CHG_CONFIRM_TIMEOUT` (R212): A trail without CONFIRM by C − 4 withdraws at C with cause 0x07. -/
  | chgConfirmTimeout
  /-- `HO_PROPOSE` (R267): The trail receives a handover proposal naming X. -/
  | hoPropose (x : Nat)
  /-- `HO_ACK` (R267): The lead receives the trail's handover ACK. -/
  | hoAck (x : Nat)
  /-- `HO_CONFIRM` (R267): The trail receives the handover CONFIRM. -/
  | hoConfirm (x : Nat)
  /-- `ACTION` (R292): An ACTION control message with its effect tick is received. -/
  | action (arg : U8) (effect : Nat) (fseq : U32)
  /-- `CHANGE_COMMIT_TICK` (R220): At tick C the loop banks are exchanged and the new pair seed applies. -/
  | changeCommitTick
  /-- `CHANGE_SAVE_DONE` (R214): The full retentive save is marked and the change becomes DONE. -/
  | changeSaveDone
  /-- `RETAIN_SAVE` (R204): Every PRG_RETAIN_PERIOD ticks a retentive save starts, or is skipped. -/
  | retainSave
  /-- `RETAIN_SAVE_DONE` (R204): A retentive save finishes with the generation number and mark. -/
  | retainSaveDone
  /-- `FORCE_EFFECT` (R199): At the effect tick a force commit or clear changes the current force table. -/
  | forceEffect
  /-- `PAIR_CHANGE_EFFECT` (R445): At the effect tick a relayed pair-state or configuration change is applied in both modules. -/
  | pairChangeEffect
  /-- `RELAY_CHANGE_RECEIVE` (R445): The trail receives a change and effect tick over MB4 and acknowledges it. -/
  | relayChangeReceive (effect : Nat) (id : U32) (items : List StagedItem)
  /-- `RELAY_ACK_TIMEOUT` (R445): No acknowledgement by the effect tick minus 2 abandons the change. -/
  | relayAckTimeout
  /-- `RELAYED_REQUEST` (R445): The lead executes a request relayed from the trail over MB4. -/
  | relayedRequest (tag : U16) (opcode : Nat) (payload : List Byte)
  /-- `MAINT_RECORD_RECEIVE` (R547): The partner's maintenance activities arrive over MB4 and update the pair record. -/
  | maintRecordReceive (set : U16) (ports : List (Fin 10 × U16))
  /-- `JOIN_REQ` (R302): A JOIN_REQ from a partner in LISTEN is received and answered, deferred or refused. -/
  | joinReq
  /-- `JOIN_REQ_SEND` (R302): A module in LISTEN sends JOIN_REQ once per second while its conditions hold. -/
  | joinReqSend
  /-- `JOIN_ACCEPT` (R302): The returning module receives JOIN_ACCEPT naming tick k. -/
  | joinAccept (k : Nat)
  /-- `RESYNC_ENTER` (R302): At tick k the returning module enters RESYNC and the lead starts IMAGES or pass 0. -/
  | resyncEnter
  /-- `JOIN_ACCEPT_TIMEOUT` (R302): The returning module's BEAT of k + 8 not showing RESYNC makes the lead drop its capture. -/
  | joinAcceptTimeout
  /-- `COPY_PASS_END` (R304): A copy pass ends and the next pass or the cut tick is chosen. -/
  | copyPassEnd (dirty : Nat) (sent : Nat)
  /-- `CUT_TICK` (R305): At tick Z the lead captures the non-page items and dirty pages. -/
  | cutTick
  /-- `CUT` (R305): The CUT message is received and the returning module installs the state of tick Z. -/
  | cut (st : CutState)
  /-- `CATCHUP_TICK` (R306): The returning module finishes executing one tick from the lead's items and compares digests. -/
  | catchupTick (items : LeadItems) (runs : List (Fin 32 × RunEffects))
  /-- `CATCHUP_TIMEOUT` (R306): Not caught up within RESYNC_CATCHUP_MAX abandons the resync. -/
  | catchupTimeout
  /-- `READY` (R307): The lead receives READY and answers JOIN. -/
  | ready (x : Nat)
  /-- `JOIN` (R307): The returning module receives JOIN naming J. -/
  | join (j : Nat)
  /-- `READY_TIMEOUT` (R307): No JOIN by tick x + 8 abandons with cause 0x2. -/
  | readyTimeout
  /-- `JOIN_TICK` (R307): At J the module enters TRAIL at the lead's claim minus 1. -/
  | joinTick
  /-- `JOIN_ABANDON` (R309): A JOIN_ABANDON message is received and the lead drops capture and tracking. -/
  | joinAbandon (cause : U8)
  /-- `RESYNC_ABANDON` (R309): An interrupted resync is abandoned and the module returns to LISTEN. -/
  | resyncAbandon (cause : U8)
  /-- `RESYNC_RETRY` (R309): 10 s after an abandon the returning module tries again. -/
  | resyncRetry
  /-- `TRUNK_BEACON_RECEIVE` (R98): The module receives a valid beacon on a port and checks rate, digest slices and claim. -/
  | trunkBeaconReceive (p : Fin 16) (f : RxFrame)
  /-- `RATE_DWELL_EXPIRE` (R81): After 20 ms at one rate the port tries the next rate. -/
  | rateDwellExpire (p : Fin 16)
  /-- `SLOT_FRAME_RECEIVE` (R112): A frame in an expected input slot is checked for timing, CRC and header. -/
  | slotFrameReceive (p : Fin 16) (i : Nat) (f : RxFrame) (m : RxMeasure)
  /-- `PARTNER_BROADCAST_RECEIVE` (R254): The partner's broadcast is received and compared on the wire. -/
  | partnerBroadcastReceive (p : Fin 16) (f : RxFrame)
  /-- `EVENT_FRAME_RECEIVE` (R106): An event frame of a won round is received at this end. -/
  | eventFrameReceive (p : Fin 16) (m : Fin 32) (f : RxFrame)
  /-- `MGMT_REPLY_RECEIVE` (R107): A management reply is received in the reply phase. -/
  | mgmtReplyReceive (p : Fin 16) (m : Fin 32) (f : RxFrame)
  /-- `RANGING_REPLY_RECEIVE` (R61): A ranging reply is stamped and a one-way delay derived. -/
  | rangingReplyReceive (p : Fin 16) (m : Fin 32) (f : RxFrame) (other : Option Nat)
  /-- `TRAINING_FRAME_RECEIVE` (R71): A training frame trains its slot's set in COMMISSION. -/
  | trainingFrameReceive (p : Fin 16) (i : Nat) (f : RxFrame) (m : RxMeasure)
  /-- `LINE_ACTIVITY_NO_START` (R92): Line activity without a decoded start is counted as noise or collision. -/
  | lineActivityNoStart (p : Fin 16) (inSlot : Bool) (inArbitration : Bool)
  /-- `BACKGROUND_CALIBRATION` (R77): A port repeats offset and gain calibration in its longest idle interval, or skips it. -/
  | backgroundCalibration (p : Fin 16) (idle : Nat)
  /-- `CAL_STALE` (R77): 10,000 consecutive skipped calibrations set CAL_STALE. -/
  | calStale (p : Fin 16)
  /-- `EQ_RETRAIN_END` (R73): After 64 trunk cycles of RETRAIN, TRK_EQMODE returns to TRACK. -/
  | eqRetrainEnd (p : Fin 16)
  /-- `BREAK_DECLARE` (R83): Two cycles of the break pattern declare a break between two neighbours. -/
  | breakDeclare (p : Fin 16)
  /-- `BREAK_CLEAR` (R85): Every station heard at both ends for 16 cycles clears BREAK. -/
  | breakClear (p : Fin 16)
  /-- `TDR_RUN` (R86): A reflectometry pulse is sent and reflections reported. -/
  | tdrRun (p : Fin 16) (refl : List (Nat × Int))
  /-- `TDR_WAIT_TIMEOUT` (R87): A TDR request finding no interval within 64 cycles is refused. -/
  | tdrWaitTimeout (p : Fin 16)
  /-- `SCHED_SWITCH` (R127): The staged schedule becomes current at the first hypercycle start at or after the named tick. -/
  | schedSwitch (p : Fin 16)
  /-- `EVENT_ROUND` (R121): An event round's arbitration runs and the winner is determined. -/
  | eventRound (p : Fin 16) (m : Fin 32) (others : List (Nat × Nat))
  /-- `EVENT_ROUND_FRAME_PHASE` (R122): The winner launches its frame at the start of the frame phase. -/
  | eventRoundFramePhase (p : Fin 16)
  /-- `TXQ_ENTRY_SEND` (R161): A queued transmit entry is sent as a management request, retried or failed. -/
  | txqEntrySend (p : Fin 16)
  /-- `KEEPER_STATION_REQUEST` (R576): A Keeper request to a station is sent, retried up to 3 times, or failed. -/
  | keeperStationRequest (p : Fin 16)
  /-- `STATION_DISTRIBUTION_FRAME` (R533): An update frame is sent to a served station in its share of event rounds. -/
  | stationDistributionFrame (p : Fin 16)
  /-- `UPD_VERIFY_POLL` (R535): Every 8 cycles the module polls UPD_VERIFY. -/
  | updVerifyPoll (p : Fin 16)
  /-- `STN_ABSENT_TIMEOUT` (R536): A station ABSENT for 64 cycles before activation fails with cause 0x2. -/
  | stnAbsentTimeout (p : Fin 16)
  /-- `STN_VERIFY_TIMEOUT` (R536): A station not verified within IMG_STN_VERIFY_TO fails with cause 0x5. -/
  | stnVerifyTimeout (p : Fin 16)
  /-- `STN_ACTIVATE_TIMEOUT` (R536): No return notice within IMG_STN_ACTIVATE_TO fails with cause 0x6. -/
  | stnActivateTimeout (p : Fin 16)
  /-- `STATION_RATE_SEARCH` (R132): A station searches the four rates without driving the line. -/
  | stationRateSearch (p : Fin 16) (serial : U32) (restart : Bool)
  /-- `STATION_BEACON_RECEIVE` (R133): A station disciplines its clock to a valid beacon and applies schedule switches. -/
  | stationBeaconReceive (p : Fin 16) (serial : U32) (f : RxFrame)
  /-- `STATION_CLAIM_LEARNED` (R137): After two cycles with valid frames the station sets H and LEARNED. -/
  | stationClaimLearned (p : Fin 16) (serial : U32)
  /-- `STATION_BROADCAST_RECEIVE` (R138): A station accepts, refuses or discards a broadcast by its claim and SEQ. -/
  | stationBroadcastReceive (p : Fin 16) (serial : U32) (f : RxFrame)
  /-- `STATION_OUTPUT_APPLY` (R139): The station switches its staged outputs at the apply instant. -/
  | stationOutputApply (p : Fin 16) (serial : U32)
  /-- `STATION_OUTPUT_TIMEOUT` (R140): The station goes to hold or safe outputs after its output timeout. -/
  | stationOutputTimeout (p : Fin 16) (serial : U32)
  /-- `STATION_HOLDOVER_EXPIRE` (R135): From the fifth cycle without a beacon the station stops launching and taking broadcasts. -/
  | stationHoldoverExpire (p : Fin 16) (serial : U32)
  /-- `STATION_BEACON_LOSS` (R132): 32 cycles without a beacon restart the station's rate search. -/
  | stationBeaconLoss (p : Fin 16) (serial : U32)
  /-- `STATION_INPUT_LAUNCH` (R111): A station launches an input frame at its LAUNCH time. -/
  | stationInputLaunch (p : Fin 16) (serial : U32) (part : Fin 4) (word : U64) (train : Option (Fin 32))
  /-- `STATION_ANNOUNCE_NO_ANSWER` (R146): An unanswered stranger announcement doubles the back-off window. -/
  | stationAnnounceNoAnswer (p : Fin 16) (serial : U32)
  /-- `STATION_HUSH_EXPIRE` (R146): The hush time ends and the stranger may announce again. -/
  | stationHushExpire (p : Fin 16) (serial : U32)
  /-- `STATION_JABBER` (R59): 250 µs of continuous transmission disables the station's driver. -/
  | stationJabber (p : Fin 16) (serial : U32)
  /-- `STATION_RANGING_REPLY` (R60): A station answers a ranging request T_R after its start byte. -/
  | stationRangingReply (p : Fin 16) (serial : U32) (f : RxFrame)
  /-- `IDENTIFY` (R142): The station replies with its level, serial, vendor, product and firmware version. -/
  | identify (p : Fin 16) (serial : U32) (r : MReq)
  /-- `SET_ADDR` (R142): The station with the named serial takes a new address. -/
  | setAddr (p : Fin 16) (serial : U32) (r : MReq)
  /-- `CFG_SLOTS` (R142): The station stores slot entries of its configuration. -/
  | cfgSlots (p : Fin 16) (serial : U32) (r : MReq)
  /-- `CFG_TIMING` (R142): The station stores its timeout, urgency, P, H and delays. -/
  | cfgTiming (p : Fin 16) (serial : U32) (r : MReq)
  /-- `CFG_COMMIT` (R144): The station checks its entries and stages or makes current its configuration. -/
  | cfgCommit (p : Fin 16) (serial : U32) (r : MReq)
  /-- `READ_DIAG` (R142): The station returns its diagnostic counters. -/
  | readDiag (p : Fin 16) (serial : U32) (r : MReq)
  /-- `QUARANTINE` (R149): The station with the named serial enters quarantine. -/
  | quarantine (p : Fin 16) (serial : U32) (r : MReq)
  /-- `RELEASE` (R149): The station with the named serial leaves quarantine. -/
  | release (p : Fin 16) (serial : U32) (r : MReq)
  /-- `HUSH` (R146): The stranger with the named serial stays silent for the given time. -/
  | hush (p : Fin 16) (serial : U32) (r : MReq)
  /-- `STATION_PROFILE_COMMAND` (R142): A maker-defined command 0x40 to 0x7F is executed by the station. -/
  | stationProfileCommand (p : Fin 16) (serial : U32) (r : MReq) (status : U8) (reply : List Byte) (holdMask : List (Nat × U64)) (safeVals : List (Nat × U64)) (diag : Bool)
  /-- `UPDATE_FRAME` (R534): The station applies an update frame's commands into its second bank. -/
  | updateFrame (p : Fin 16) (serial : U32) (r : MReq) (blockOk : Bool)
  /-- `UPD_BEGIN` (R535): The station starts or continues an update session. -/
  | updBegin (p : Fin 16) (serial : U32) (r : MReq)
  /-- `UPD_VERIFY` (R535): The station reports verification of its second bank. -/
  | updVerify (p : Fin 16) (serial : U32) (r : MReq) (result : Fin 3)
  /-- `UPD_ACTIVATE` (R535): The verified station schedules its bank switch. -/
  | updActivate (p : Fin 16) (serial : U32) (r : MReq)
  /-- `STATION_BANK_SWITCH` (R535): At the end of the reply cycle the station switches banks and restarts. -/
  | stationBankSwitch (p : Fin 16) (serial : U32)
  /-- `STATION_HEALTH_FALLBACK` (R145): A station unable to confirm its health falls back to its old bank. -/
  | stationHealthFallback (p : Fin 16) (serial : U32)
  /-- `DIO_SAMPLE` (R343): An input channel sample updates the filter counter and may record an edge. -/
  | dioSample (c : Fin 16) (raw : Bool) (t : Nat)
  /-- `DIO_OVERLOAD` (R348): A channel at its current limit for 2 ms, or overheated, switches itself off. -/
  | dioOverload (c : Fin 16) (thermal : Bool)
  /-- `DIO_OPEN` (R349): An on channel below 5 mA for 100 ms sets OPEN. -/
  | dioOpen (c : Fin 16)
  /-- `GROUP_WARNING` (R355): A group supply below 19.2 V for 1 ms enters WARNING. -/
  | groupWarning (g : Fin 6)
  /-- `GROUP_OFF` (R355): A group supply below 15 V for 50 µs switches the group off. -/
  | groupOff (g : Fin 6)
  /-- `GROUP_RECOVERING` (R355): The supply returning to 19.2 V moves the group from OFF to RECOVERING. -/
  | groupRecovering (g : Fin 6)
  /-- `GROUP_NORMAL` (R357): After 20 ms at 19.2 V the group returns to NORMAL, latching or resuming. -/
  | groupNormal (g : Fin 6)
  /-- `GROUP_OVERLOAD` (R358): A group above 2.2 A for 5 ms switches all outputs off and sets GRP_OVL. -/
  | groupOverload (g : Fin 4)
  /-- `CL_COMPLIANCE_SET` (R363): Driver voltage within 0.5 V of its limit for 1 ms sets the compliance flag. -/
  | clComplianceSet (k : Fin 8)
  /-- `CL_COMPLIANCE_CLEAR` (R363): Driver voltage 1.0 V below the limit for 10 ms clears the compliance flag. -/
  | clComplianceClear (k : Fin 8)
  /-- `CL_LIVE_ZERO` (R367): A live-zero channel below 3.6 mA for 8 ticks becomes invalid. -/
  | clLiveZero (k : Fin 8)
  /-- `HART_REPLY_RECEIVE` (R369): A HART reply completes or retries a transaction. -/
  | hartReplyReceive (k : Fin 8) (sound : Bool) (long : List Byte) (code : U8) (status : U8) (data : List Byte)
  /-- `HART_BURST_FRAME` (R369): A HART burst frame is discarded and counted. -/
  | hartBurstFrame (k : Fin 8)
  /-- `CAPTURE_TRIGGER` (R382): A trigger starts a capture segment or is counted as missed. -/
  | captureTrigger (unit : Fin 4) (t : Nat) (dead : Bool)
  /-- `SEGMENT_CLOSE` (R383): A full segment is closed with its header and the next is armed. -/
  | segmentClose (unit : Fin 4) (d : SegData)
  /-- `MASK_VIOLATION` (R390): A mask violation fills and closes the segment and stops the unit. -/
  | maskViolation (unit : Fin 4) (mask : Fin 8) (idx : Nat) (d : SegData) (others : List SegData)
  /-- `CAPTURE_OVERRUN` (R379): A write-buffer overflow closes the segment and stops the unit. -/
  | captureOverrun (unit : Fin 4) (d : SegData)
  /-- `GAUGE_SNAPSHOT` (R394): At a snapshot tick page copying starts, or the snapshot is skipped. -/
  | gaugeSnapshot
  /-- `GAUGE_SNAPSHOT_DONE` (R394): A snapshot copy finishes. -/
  | gaugeSnapshotDone (full : Bool)
  /-- `GAUGE_FOLD` (R395): A snapshot's pages are folded into the base before the ring reuses them. -/
  | gaugeFold
  /-- `GAUGE_WINDOW_COPY_DONE` (R398): A marked window finishes copying to NAND. -/
  | gaugeWindowCopyDone
  /-- `REPLAY_TICK` (R403): Replay executes one tick from the records and compares digests. -/
  | replayTick (effects : List (Nat × RunEffects)) (digest : List Byte) (cells : List (Nat × U32)) (bad : Bool) (held : Bool)
  /-- `HOUSEKEEPING_PERIOD` (R431): The Keeper runs its 10 ms period of sensors, supervision, lamps, time save, mailboxes, records and refresh. -/
  | housekeepingPeriod (p : Period)
  /-- `KEEPER_WATCHDOG_EXPIRE` (R435): The Keeper's watchdog not restarted within 100 ms resets the whole module. -/
  | keeperWatchdogExpire
  /-- `SENSOR_WARNING` (R433): 10 samples beyond a warning threshold enter the warning. -/
  | sensorWarning (n : Fin 32)
  /-- `SENSOR_ALARM` (R433): 10 samples beyond an alarm threshold enter the alarm. -/
  | sensorAlarm (n : Fin 32)
  /-- `SENSOR_CLEAR` (R433): 100 samples within threshold and margin leave the condition. -/
  | sensorClear (n : Fin 32)
  /-- `LIFE_SAVE` (R573): The life estimates are saved to MRAM every hour. -/
  | lifeSave
  /-- `TOKEN_REFILL` (R489): A code's bucket gains one token. -/
  | tokenRefill
  /-- `RECORDER_SCAN` (R493): Every REC_SCAN_HOURS the Keeper checks every record. -/
  | recorderScan (upsets : List (Fin 8 × Nat))
  /-- `HEALTH_WINDOW_EXPIRE` (R527): An unconfirmed health window ends and the module falls back. -/
  | healthWindowExpire
  /-- `HEALTH_AUTO_CONFIRM` (R527): After IMG_HEALTH_RUN_S of clean running the Keeper confirms the image. -/
  | healthAutoConfirm
  /-- `TRANSFER_EXPIRE` (R523): A closed transferred object unused for 24 h is removed. -/
  | transferExpire
  /-- `MAILBOX_MESSAGE_RECEIVE` (R439): A mailbox message or segment is received and its GCM tag checked. -/
  | mailboxMessageReceive (port : Fin 3) (mb : Fin 8) (opcode : U16) (tag : U16) (session : U32) (more : Bool) (gcmOk : Bool) (payload : List Byte)
  /-- `SESSION_EXPIRE` (R448): A session closes after 60 s idle, its message limit or 24 h. -/
  | sessionExpire (mb : Fin 8)
  /-- `CONNECTION_LOST` (R442): A lost connection discards responses after 10 s and closes its session. -/
  | connectionLost (port : Fin 3) (mb : Fin 8)
  /-- `PRG_MSG_OUT` (R188): The Keeper sends a program outbox message unsolicited on MB3. -/
  | prgMsgOut
  /-- `SESSION_OPEN` (R447): A session opening request is answered with ciphertext, nonce, certificate and signature. -/
  | sessionOpen (rq : Rq) (port : Fin 3) (cert : Cert) (payload : List Byte) (secret : List Byte) (answer : List Byte)
  /-- `SESSION_PROVE` (R447): The operator's signature is verified and the session number issued. -/
  | sessionProve (rq : Rq) (port : Fin 3) (payload : List Byte) (sigOk : Bool)
  /-- `SESSION_CLOSE` (R448): The session is closed on request. -/
  | sessionClose (rq : Rq)
  /-- `KEY_INSTALL` (R451): A plant authority key is installed, opening the Headwaters on first ownership. -/
  | keyInstall (rq : Rq) (port : Fin 3) (keyType : U32) (key : List Byte) (sigOk : Bool)
  /-- `KEY_REVOKE` (R451): A certificate serial is added to the revocation list. -/
  | keyRevoke (rq : Rq) (serial : U64)
  /-- `ECHO` (R453): The same bytes are returned. -/
  | echo (rq : Rq) (data : List Byte)
  /-- `PARAM_READ` (R454): Parameters are read at one tick boundary with per-item status. -/
  | paramRead (rq : Rq) (ids : List U16)
  /-- `PARAM_WRITE` (R462): Parameters without a row of their own are written all or nothing at one effect tick. -/
  | paramWrite (rq : Rq) (items : List (U16 × U32))
  /-- `TABLE_READ` (R459): Table entries are read at one tick boundary. -/
  | tableRead (rq : Rq) (tid : U16) (first : U32) (count : U16)
  /-- `TABLE_WRITE` (R459): Table entries are written all or nothing at one effect tick. -/
  | tableWrite (rq : Rq) (tid : U16) (first : U32) (entries : List (List U32))
  /-- `CNT_CLEAR` (R467): Counters are cleared at the effect tick. -/
  | cntClear (rq : Rq) (ids : List U16)
  /-- `TABLE_INFO` (R459): Entry size, count and flags of a table are returned. -/
  | tableInfo (rq : Rq) (tid : U16)
  /-- `GUARD_ARM` (R513): A write of 1 to GUARD_ARM schedules arming of a guard's shadow table. -/
  | guardArm (rq : Rq) (n : Fin 16)
  /-- `GUARD_SWITCH` (R513): At the effect tick the guard copies its shadow table into the current table. -/
  | guardSwitch
  /-- `MODE_RUN` (R411): A run request moves HOLD or SERVICE to LISTEN, or permits STANDALONE from LISTEN. -/
  | modeRun (rq : Rq)
  /-- `MODE_REQUEST` (R412): A named mode transition is checked and scheduled. -/
  | modeRequest (rq : Rq) (n : U8)
  /-- `SYS_RESTART` (R453): A restart of the main domain or whole module is requested. -/
  | sysRestart (rq : Rq) (scope : U32)
  /-- `SYS_REGION_RESET` (R425): A reset of one region is requested. -/
  | sysRegionReset (rq : Rq) (r : U8)
  /-- `TIME_STEP` (R34): Plant time is stepped at the next tick boundary, or refused. -/
  | timeStep (rq : Rq) (plant : U64)
  /-- `TRK_COMMISSION` (R66): Discovery, ranging, training and configuration of a trunk run. -/
  | trkCommission (rq : Rq) (port : U8) (steps : U8) (addrs : List U8)
  /-- `TRK_TDR` (R87): A reflectometry measurement is requested on a port. -/
  | trkTdr (rq : Rq) (port : U8)
  /-- `TRK_ASSIGN` (R147): A listed stranger is given an address. -/
  | trkAssign (rq : Rq) (port : U8) (addr : U8) (serial : U32)
  /-- `TRK_RELEASE` (R149): RELEASE is sent to a quarantined station. -/
  | trkRelease (rq : Rq) (port : U8) (serial : U32)
  /-- `SCHED_COMMIT` (R127): The staged schedule is validated and made current or scheduled. -/
  | schedCommit (rq : Rq) (port : U8) (tick : Nat)
  /-- `PRG_CHANGE_STAGE` (R209): A change package is checked and staged in both modules. -/
  | prgChangeStage (rq : Rq) (obj : List Byte) (pkg : Package) (signed : Bool)
  /-- `PRG_CHANGE_COMMIT` (R211): A commit tick is chosen and proposed. -/
  | prgChangeCommit (rq : Rq) (tick : Nat)
  /-- `PRG_CHANGE_DISCARD` (R209): A staged package is removed from both modules. -/
  | prgChangeDiscard (rq : Rq)
  /-- `PRG_FORCE_COMMIT` (R199): A force commit is scheduled for its effect tick. -/
  | prgForceCommit (rq : Rq)
  /-- `PRG_FORCE_CLEAR` (R199): A force clear is scheduled for its effect tick. -/
  | prgForceClear (rq : Rq)
  /-- `PRG_TASK_RESUME` (R184): A suspended task is resumed at current tick plus 16. -/
  | prgTaskResume (rq : Rq) (task : U8)
  /-- `PRG_MSG_SEND` (R188): A message to the program is given a delivery tick. -/
  | prgMsgSend (rq : Rq) (msg : List Byte)
  /-- `PAIR_HANDOVER` (R266): A planned handover is requested and proposed. -/
  | pairHandover (rq : Rq)
  /-- `PAIR_WITHDRAW` (R249): The module withdraws with cause 0x0C. -/
  | pairWithdraw (rq : Rq)
  /-- `PAIR_REJOIN` (R259): REJOIN_BLOCKED is cleared. -/
  | pairRejoin (rq : Rq)
  /-- `PAIR_CLAIM_RAISE` (R253): The claim is raised by the given amount at the next tick. -/
  | pairClaimRaise (rq : Rq) (amount : U32)
  /-- `CHK_PROOF_RESTART` (R327): A proof restart of the trail is started. -/
  | chkProofRestart (rq : Rq)
  /-- `CHK_FAULT_CLEAR` (R335): The CHK_FAULT table is cleared. -/
  | chkFaultClear (rq : Rq)
  /-- `DBG_HALT` (R332): An EP is halted by the debugger. -/
  | dbgHalt (rq : Rq) (n : U8)
  /-- `DBG_RESUME` (R333): A halted EP is resumed. -/
  | dbgResume (rq : Rq) (n : U8)
  /-- `DBG_STEP` (R333): An EP is single-stepped. -/
  | dbgStep (rq : Rq) (n : U8) (count : U16)
  /-- `DBG_REG_READ` (R331): Main-core registers are read. -/
  | dbgRegRead (rq : Rq) (n : U8) (first : U16) (count : U16)
  /-- `DBG_REG_WRITE` (R333): A register is written and replayed into the checker core. -/
  | dbgRegWrite (rq : Rq) (n : U8) (r : U16) (value : U64)
  /-- `DBG_MEM_READ` (R332): Memory is read through the debug port. -/
  | dbgMemRead (rq : Rq) (n : U8) (addr : U64) (len : U32)
  /-- `DBG_MEM_WRITE` (R333): Memory is written once through the debug port. -/
  | dbgMemWrite (rq : Rq) (n : U8) (addr : U64) (data : List Byte)
  /-- `DBG_BREAK` (R333): A breakpoint or watchpoint is set or cleared. -/
  | dbgBreak (rq : Rq) (n : U8) (kind : U8) (slot : U16) (addr : U64)
  /-- `DBG_RESET` (R332): A debug reset of the main domain or an EP is requested. -/
  | dbgReset (rq : Rq) (scope : U32)
  /-- `DBG_TRACE_READ` (R334): Trace buffer bytes are read. -/
  | dbgTraceRead (rq : Rq) (offset : U64) (len : U32)
  /-- `FIO_MANUAL` (R352): A local output is set manually in SERVICE. -/
  | fioManual (rq : Rq) (chan : Fin 24) (value : U32)
  /-- `FIO_GROUP_ACK` (R357): LATCHED or GRP_OVL of a group is cleared. -/
  | fioGroupAck (rq : Rq) (g : Fin 6)
  /-- `FIO_HART_SCAN` (R369): Command 0 is sent to HART addresses 1 to 63. -/
  | fioHartScan (rq : Rq) (k : Fin 8)
  /-- `FIO_HART_XFER` (R369): A HART transaction is framed and sent. -/
  | fioHartXfer (rq : Rq) (k : Fin 8) (cmd : U8) (long : List Byte) (data : List Byte)
  /-- `ACQ_ARM` (R382): A capture unit is armed. -/
  | acqArm (rq : Rq) (unit : Fin 4)
  /-- `ACQ_STOP` (R382): A capture unit is stopped. -/
  | acqStop (rq : Rq) (unit : Fin 4) (d : SegData)
  /-- `ACQ_TRIGGER` (R382): A command trigger is given to capture units. -/
  | acqTrigger (rq : Rq) (mask : Fin 16)
  /-- `ACQ_EXPORT` (R390): Segments are copied to the acquisition exports. -/
  | acqExport (rq : Rq) (unit : Fin 4) (first : U32) (count : U16)
  /-- `GAUGE_MARK` (R397): A Gauge window is marked by command. -/
  | gaugeMark (rq : Rq)
  /-- `GAUGE_PROTECT` (R398): Protection of a window slot is set or cleared. -/
  | gaugeProtect (rq : Rq) (slot : Fin 8) (set : Bool)
  /-- `GAUGE_EXPORT` (R400): Bytes of a window's export file are read. -/
  | gaugeExport (rq : Rq) (slot : Fin 8) (offset : Nat) (len : Fin 262141)
  /-- `REPLAY_LOAD` (R401): A transferred window is imported after signature check. -/
  | replayLoad (rq : Rq) (hash : List Byte) (signed : Bool) (win : GWin)
  /-- `REPLAY_START` (R402): Replay of a window is started after hash checks. -/
  | replayStart (rq : Rq) (slot : Fin 8) (tick : Nat)
  /-- `REPLAY_STOP` (R404): Replay is stopped on request. -/
  | replayStop (rq : Rq)
  /-- `REC_READ` (R496): Records of a channel are returned from one capture. -/
  | recRead (rq : Rq) (chan : U8) (count : U16) (first : U64)
  /-- `REC_SUBSCRIBE` (R497): The session's channel subscription is replaced. -/
  | recSubscribe (rq : Rq) (mask : U8)
  /-- `REC_USER` (R498): A user event is entered on RC7. -/
  | recUser (rq : Rq) (code : U16) (sev : U8) (count : U8) (key : U16) (vals : List U32)
  /-- `REC_SCAN` (R493): A check of every record is requested. -/
  | recScan (rq : Rq)
  /-- `IMG_XFER_OPEN` (R523): A transfer is opened with kind, size and hash. -/
  | imgXferOpen (rq : Rq) (kind : U8) (size : U64) (hash : List Byte)
  /-- `IMG_XFER_DATA` (R523): Transfer data are written at an offset. -/
  | imgXferData (rq : Rq) (num : U32) (offset : U64) (data : List Byte)
  /-- `IMG_XFER_CLOSE` (R523): A transfer is checked against its declared hash. -/
  | imgXferClose (rq : Rq) (num : U32)
  /-- `IMG_XFER_DROP` (R523): A closed object is removed. -/
  | imgXferDrop (rq : Rq) (hash : List Byte)
  /-- `IMG_STAGE` (R524): A firmware image is verified and written into the Chamber. -/
  | imgStage (rq : Rq) (hash : List Byte) (signed : Bool)
  /-- `IMG_CHAMBER_CLEAR` (R524): The Chamber is emptied. -/
  | imgChamberClear (rq : Rq)
  /-- `IMG_ACTIVATE` (R525): Activation is journalled and the activation restart scheduled. -/
  | imgActivate (rq : Rq)
  /-- `IMG_CONFIRM` (R527): The health window is closed with confirmation. -/
  | imgConfirm (rq : Rq)
  /-- `IMG_REVERT` (R527): The module falls back at once with cause 3. -/
  | imgRevert (rq : Rq)
  /-- `IMG_INSTALL` (R529): A PRG or CFG image is verified and made current. -/
  | imgInstall (rq : Rq) (hash : List Byte) (signed : Bool) (pkg : Option Package) (words : List (Nat × U32))
  /-- `ATTEST` (R539): A signed attestation report is produced. -/
  | attest (rq : Rq) (nonce : List Byte) (signature : List Byte)
  /-- `IDENTITY_READ` (R538): The identity certificate is returned. -/
  | identityRead (rq : Rq)
  /-- `STN_STAGE` (R532): A station package is verified and stored in both modules. -/
  | stnStage (rq : Rq) (hash : List Byte) (signed : Bool) (pkg : StnPkg)
  /-- `STN_START` (R533): Distribution of the staged package starts on a port. -/
  | stnStart (rq : Rq) (p : Fin 16)
  /-- `STN_STOP` (R536): Distribution ends after the frame in flight. -/
  | stnStop (rq : Rq) (p : Fin 16)
  /-- `STN_DISCARD` (R540): A staged station package is discarded. -/
  | stnDiscard (rq : Rq) (hash : List Byte)
  /-- `TON` (R192): An on-delay timer call updates its instance. -/
  | ton (m : Fin 32) (addr : Nat) (input : Bool) (pt : U64)
  /-- `TOF` (R192): An off-delay timer call updates its instance. -/
  | tof (m : Fin 32) (addr : Nat) (input : Bool) (pt : U64)
  /-- `TP` (R192): A pulse timer call updates its instance. -/
  | tp (m : Fin 32) (addr : Nat) (input : Bool) (pt : U64)
  /-- `CTU` (R193): An up counter call updates its instance. -/
  | ctu (m : Fin 32) (addr : Nat) (cu : Bool) (r : Bool) (pv : U32)
  /-- `CTD` (R193): A down counter call updates its instance. -/
  | ctd (m : Fin 32) (addr : Nat) (cd : Bool) (ld : Bool) (pv : U32)
  /-- `CTUD` (R193): An up-down counter call updates its instance. -/
  | ctud (m : Fin 32) (addr : Nat) (cu : Bool) (cd : Bool) (r : Bool) (ld : Bool) (pv : U32)
  /-- `R_TRIG` (R194): A rising-edge detector call updates its instance. -/
  | rTrig (m : Fin 32) (addr : Nat) (clk : Bool)
  /-- `F_TRIG` (R194): A falling-edge detector call updates its instance. -/
  | fTrig (m : Fin 32) (addr : Nat) (clk : Bool)
  /-- `SB_TIME` (R45): The time values of the release tick are returned. -/
  | sbTime (m : Fin 32)
  /-- `SB_TASK_INFO` (R190): The caller's task status entry is returned. -/
  | sbTaskInfo (m : Fin 32)
  /-- `SB_STATION_STATE` (R190): State and quality bytes of one address are returned. -/
  | sbStationState (m : Fin 32) (p : Fin 16) (addr : U8)
  /-- `SB_RXQ_GET` (R158): A receive queue entry is read. -/
  | sbRxqGet (m : Fin 32) (p : Fin 16) (e : Fin 64)
  /-- `SB_RXQ_ACK` (R158): A receive queue entry is acknowledged. -/
  | sbRxqAck (m : Fin 32) (p : Fin 16) (e : Fin 64)
  /-- `SB_TXQ_SUBMIT` (R160): A transmit entry is submitted or refused. -/
  | sbTxqSubmit (m : Fin 32) (p : Fin 16) (e : Fin 16) (words : List U32)
  /-- `SB_TXQ_GET` (R160): A transmit entry's outcome is read. -/
  | sbTxqGet (m : Fin 32) (p : Fin 16) (e : Fin 16) (free : Bool)
  /-- `SB_MBX_RECV` (R188): An inbox message is read. -/
  | sbMbxRecv (m : Fin 32) (slot : Fin 16)
  /-- `SB_MBX_SEND` (R188): A message is written to the outbox. -/
  | sbMbxSend (m : Fin 32) (msg : List Byte)
  /-- `SB_RAND` (R189): 32 bits are derived by SHAKE256 from seed, task, run and call index. -/
  | sbRand (m : Fin 32)
  /-- `MAINS_RETURN` (R562): Mains returns after the main and field packages have browned out, and the main domain restarts through BOOT. -/
  | mainsReturn
  /-- `HART_REPLY_TIMEOUT` (R369): A HART transaction draws no reply in time and is retried up to FIO_HART_RETRY or fails. -/
  | hartReplyTimeout (k : Fin 8)
  /-- `DIO_OPEN_CLEAR` (R349): The current of an on channel rises to 5 mA or more and OPEN clears. -/
  | dioOpenClear (c : Fin 16)
  /-- `STATION_JABBER_RELEASE` (R59): After the line has been idle at the station for 1 s, the station's jabber-disabled driver is enabled again. -/
  | stationJabberRelease (p : Fin 16) (serial : U32)
  /-- `STATION_HEALTH_CONFIRMED` (R145): After activation, a station confirms its own health within its maker's window and keeps the new bank. -/
  | stationHealthConfirmed (p : Fin 16) (serial : U32)
  /-- `STATION_BEACON_MISSED` (R133): A station's cycle passes without a valid beacon, so it holds its time on its disciplined frequency and advances its expected SEQ. -/
  | stationBeaconMissed (p : Fin 16) (serial : U32)
  deriving DecidableEq, Repr

end Sys2Proof
end

