-- ==== Sys2Proof/Machine/State.lean ====
section
/-!
DEFINITION. The state of the module and of the stations on its trunks, as plain data: every register, table, queue,
buffer, counter, mode and pin that the spec names, and the queue of the commands that wait.

Parameters and table words of every owner chapter are held in one canonical sparse map, `words` (see ParamTable);
the structures below hold what the chapters give the machine beside them.
-/

namespace Sys2Proof.Machine

/-- Why a step can stop with a fault. No meaning of this model ends in one: every command has an effect. -/
inductive Fault where
  /-- The word file or a byte memory is not in canonical form. Raised by no meaning; a safe name kept for a checker. -/
  | notCanonical
  deriving DecidableEq, Repr

/-- Why a command has no meaning. -/
inductive Refusal where
  /-- The command's meaning is not written yet. Raised by Dispatch only; safe: nothing is claimed of the command. -/
  | notModelled (mnemonic : String)
  deriving DecidableEq, Repr

/-! ### Time, modes and reset (files 02 and 14) -/

/-- The time unit and the Keeper's copy of plant time (R21, R30 to R40). `raw` is RAWTIME at the start of the current
tick, `tick` the current tick count. -/
structure TimeS where
  raw : Nat
  offset : Int
  anchor : Nat
  rate : Int
  tick : Nat
  rateReq : Option Int
  stepReq : Option Nat
  freqErr : Int
  alignRun : Nat
  gm : Option Nat
  gmOrigin : Nat
  keeper : Nat
  saved : Nat
  deriving DecidableEq, Repr

/-- Why a mode transition is pending (R413), in the order of precedence of its causes. -/
inductive ModeCause where
  | hardware
  | lever
  | withdrawal (cause : Nat)
  | pair
  | request
  deriving DecidableEq, Repr

/-- What a lamp shows (R415): off, steady, or flashing at a rate in Hz. -/
inductive Lamp where
  | off | steady | flash (hz : Nat)
  deriving DecidableEq, Repr

/-- The five lamps of the front (R415). ROLE has a colour. -/
structure Lamps where
  run : Lamp
  role : Lamp
  roleYellow : Bool
  fault : Lamp
  forced : Lamp
  swap : Lamp
  deriving DecidableEq, Repr

/-- Modes, dies, regions, reset and pins (R409 to R429, R564 to R568). Sets of dies and of regions are sets of bits by
their numbers of R418. -/
structure SysS where
  mode : Mode
  prev : Mode
  pending : Option (Mode × ModeCause)
  pendingRq : Option (Rq × Nat)
  diesUp : Nat
  boot : List Nat
  bootFail : Bool
  keeperUp : Bool
  deferred : List (Nat × Nat)
  sluices : Nat
  inits : Nat
  split : Nat
  bootsel : Nat
  clksel : Nat
  bootselPin : Nat
  clkselPin : Nat
  posB : Bool
  carrier : Nat
  mateOpen : Bool
  mains : Bool
  leverOut : Bool
  leverTook : Bool
  leverInAt : Option Nat
  lampTestUntil : Nat
  lamps : Lamps
  runStanding : Bool
  bootEndAt : Nat
  heardAt : Nat
  proofPending : Bool
  prgValid : Bool
  cfgValid : Bool
  toUpdate : Bool
  uptimeMs : Nat
  deriving DecidableEq, Repr

/-! ### The pair (files 09 and 10) -/

/-- The partner as `PARTNER` of R278 shows it. -/
inductive Partner where
  | absent | listen | trail | lead
  deriving DecidableEq, Repr

/-- The state of a three-message agreement (R212, R267). -/
inductive Agree3 where
  | proposed | acked | confirmed
  deriving DecidableEq, Repr

/-- A planned handover in progress (R267): the tick X, its phase, whether this module is the old lead, and who asked. -/
structure Handover where
  x : Nat
  phase : Agree3
  oldLead : Bool
  rq : Option (Fin 8 × U16)
  deriving DecidableEq, Repr

/-- A divergence resolution in progress (R256 to R258). -/
structure Resolution where
  tick : Nat
  ownFault : Option Bool
  partnerFault : Option Bool
  deriving DecidableEq, Repr

/-- Pair roles, claims and takeover: what is not in a parameter or table word. -/
structure PairS where
  claim : U32
  saved : U32
  high : U32
  partner : Partner
  partnerMode : Nat
  hbMissed : Nat
  hbSeen : Bool
  firstNoHb : Option Nat
  faultSeen : Bool
  wireDiff : Nat
  partnerWireDiff : Nat
  digestDiff : Bool
  resolution : Option Resolution
  waitLead : Option Nat
  handover : Option Handover
  withdrawing : Option Nat
  takeoverDue : Bool
  withdrawn03 : List Nat
  afterHandover : Option Nat
  waitHandover : Option Bool
  snapOwn : Snap
  snapPartner : Option Snap
  agreedSnap : Option Snap
  disagreeRun : List Nat
  agreeRun : List Nat
  partnerSole : Bool
  suspect : Nat
  withdrawAt : Option (Nat × Nat)
  deriving DecidableEq, Repr

/-- One link of the sync link (R282, R298): the consecutive ticks without a valid frame, beyond the delay limit, and with
every condition met; the last BEAT received and when; the launches of the own BEATs, latest first; whether a valid frame and a valid
BEAT came in this tick; and θ. -/
structure LinkS where
  silent : Nat
  beyond : Nat
  good : Nat
  lastTick : Nat
  lastRx : Nat
  txs : List (Nat × Nat)
  frames : Bool
  beats : Bool
  theta : Option Int
  deriving DecidableEq, Repr

def LinkS.fresh : LinkS :=
  { silent := 8, beyond := 0, good := 0, lastTick := 0, lastRx := 0, txs := [],
    frames := false, beats := false, theta := none }

/-- A management message of the sync link (R286, R292): its frame number and its body. -/
structure MsgFrame where
  fseq : U32
  kind : Nat
  body : List Byte
  deriving DecidableEq, Repr

/-- The resync of a returning module, or of the lead that serves one (R302 to R309). `lead` is the lead's side; the last three are the
RESYNC parameters as they were at its start (R310). -/
structure Resync where
  lead : Bool
  phase : Nat
  start : Nat
  pass : Nat
  sent : Nat
  z : Nat
  x : Nat
  j : Nat
  executed : Nat
  cutAt : Nat
  readySent : Bool
  converted : Bool
  cutPages : Nat
  maxPasses : Nat
  catchMax : Nat
  deriving DecidableEq, Repr

/-- The sync link and resynchronisation: what is not in a parameter word. -/
structure SyncS where
  linkA : LinkS
  linkB : LinkS
  fseq : U32
  seen : List (U32 × Nat)
  ctlOut : List Ctl
  rxOut : List RxRecord
  exch : Option Exch
  exchIn : Option Exch
  exchLate : Bool
  beat : Option Beat
  beatIn : Option Beat
  beatLast : Option Beat
  msgOut : List MsgFrame
  msgIn : List MsgFrame
  joinAsked : Option Nat
  accepted : Option Nat
  resync : Option Resync
  retryAt : Option Nat
  abandons : List Nat
  stepped : Bool
  deriving DecidableEq, Repr

/-! ### Program and online change (files 06 and 07) -/

/-- The run state of one task (R165 to R184). -/
structure TaskS where
  released : Option Nat
  finished : Bool
  agreed : Bool
  late : Bool
  fresh : Option RunEffects
  effects : Option RunEffects
  kept : List (Nat × U64 × U64)
  randCalls : Nat
  newCode : Bool
  migrated : Bool
  suspended : Bool
  started : Bool
  acc : RunEffects
  deriving DecidableEq, Repr

def TaskS.fresh0 : TaskS :=
  { released := none, finished := false, agreed := false, late := false, fresh := none, effects := none,
    kept := [], randCalls := 0, newCode := false, migrated := false, suspended := false, started := false,
    acc := RunEffects.none }

/-- The state of program execution that is not in a word or in the process memory. -/
structure ProgS where
  tasks : List TaskS
  running : List (Option Nat)
  chain : Nat
  doneOwn : Nat
  seed : List Byte
  hash : List Byte
  package : Option Package
  inbox : List (Nat × List Byte)
  inboxUsed : List (Nat × Nat)
  outbox : List (List Byte)
  changeKept : List (Nat × List (Nat × Nat))
  changes : List (Nat × List (Nat × Nat))
  lastValid : List (Nat × U64)
  heldForces : Nat
  retainMark : List (Nat × Nat × List Byte × List (Nat × Byte))
  retainBusy : Option (Nat × Nat × List (Nat × Byte))
  retainNext : Nat
  retainGen : Nat
  localCut : Option (U32 × List U32)
  underForce : List (Nat × U64)
  sbResult : List U64
  guardStop : List Nat
  deriving DecidableEq, Repr

/-- An online change (R208 to R226). -/
structure ChangeS where
  package : Option Package
  commit : Nat
  agree : Option Agree3
  proposedAt : Nat
  seed : List Byte
  ackSent : Bool
  lead : Bool
  rq : Option (Fin 8 × U16)
  orphans : List (Orphan × U64)
  pending : List Nat
  journal : Nat
  deriving DecidableEq, Repr

/-! ### Trunk line, schedule, stations and queues (files 03 to 05) -/

/-- What one end holds of a frame received in an input slot (R112), or what both agreed (R115): the slot's index in the position,
frame byte 3 and the payload word; the ends that heard it, bit 0 the Head end and bit 1 the Tail end, and whether theirs differed. -/
structure SlotRec where
  slot : Nat
  hdr : U8
  word : U64
  heard : Nat
  disagree : Bool
  deriving DecidableEq, Repr

/-- The kinds of queue frames that are agreed (R157). -/
inductive QKind where
  | event | reply | ranging
  deriving DecidableEq, Repr

/-- What one end holds of a frame of an event round: its kind, the tick whose exchange window agrees it (R157), the round,
the frame bytes from byte 3 to the end of the payload, and the receive stamp. -/
structure QRec where
  kind : QKind
  agree : Nat
  round : Nat
  bytes : List Byte
  stamp : Nat
  deriving DecidableEq, Repr

/-- An agreed event frame waiting for its Intake (R157, R158). -/
structure RxqIn where
  bytes : List Byte
  time : Nat
  cycle : Nat
  heard : Nat
  disagree : Bool
  deriving DecidableEq, Repr

/-- What a Keeper request to a station was made for (R576): it decides what its end means. -/
inductive KOrigin where
  | stranger
  | config
  | duplicate
  | mailbox (mb : Fin 8) (tag : U16)
  | commission
  | update
  deriving DecidableEq, Repr

/-- A Keeper request to a station (R576): the destination address, the payload from `MCMD` on, its `MTAG`, the attempts
made, and whether it waits for a reply, with the tick of the agreement that decides it. -/
structure KReq where
  addr : Nat
  payload : List Byte
  tag : Nat
  attempts : Nat
  awaiting : Option Nat
  origin : KOrigin
  deriving DecidableEq, Repr

/-- What this module launches in a round that it has won (R122, R161). -/
inductive Grant where
  | txq (entry : Nat)
  | keeper
  | update
  | ranging
  deriving DecidableEq, Repr

/-- The event round in progress (R119 to R122). -/
structure Round where
  index : Nat
  winner : Option (Nat × Nat)
  grant : Option Grant
  frame : Bool
  deriving DecidableEq, Repr

/-- Ranging in progress (R61, R62, R66): the address ranged (0xF0 or 0xF1 for the other end), the exchanges' delays of
this end and of the other end, the repeats made for spread, the requests that drew no reply in a row, and the tick of the agreement
that decides whether one that is out has a reply. -/
structure Ranging where
  addr : Nat
  own : List Int
  other : List Int
  repeats : Nat
  tries : Nat
  awaiting : Option Nat
  deriving DecidableEq, Repr

/-- A `TRK_COMMISSION` in progress: the steps still to be made, the one in progress (0 discover, 1 range, 2 train, 3 configure), the
addresses still to be ranged, the sets still to be trained and the cycle by which their frames have been sent, the counts of the final
response, and the requester. -/
structure Commission where
  steps : Nat
  phase : Nat
  sets : List Nat
  until_ : Nat
  todo : List Nat
  ranging : Option Ranging
  found : Nat
  ranged : Nat
  trained : Nat
  refused : Nat
  running : Bool
  mb : Fin 8
  tag : U16
  deriving DecidableEq, Repr

/-- The distribution of a station update on one port, for one station (R533 to R536): its progress word is in table
`IMG_STN_PROGRESS`; this is what the module keeps beside it. `step`: 0 `UPD_BEGIN` to send, 1 frames (block 0 is the manifest
record, b + 1 target block b), 2 verifying, 3 a poll due, 4 `UPD_ACTIVATE` to send, 5 activated; `since` is the tick at which
2 or 5 began, `polled` the cycle of the last poll. -/
structure Serve where
  addr : Nat
  block : Nat
  offset : Nat
  attempts : Nat
  awaiting : Option Nat
  step : Nat
  since : Nat
  polled : Nat
  tag : Nat
  absent : Nat
  deriving DecidableEq, Repr

/-- One trunk port of the module (files 03 to 05): what is not a parameter or a table word. -/
structure PortS where
  calibrated : Bool
  searchRate : Nat
  rateCand : Option Nat
  rotEq : Nat
  calSkipRun : Nat
  brkRun : Nat
  brkPair : Nat × Nat
  brkClearRun : Nat
  brkEst : List Nat
  echoHead : Option Nat
  echoTail : Option Nat
  tdrPending : Option (Fin 8 × U16)
  tdrWait : Nat
  retrainLeft : Nat
  setRuns : List (Nat × Nat × Nat × Nat)
  setWrites : List (Nat × Nat × U32)
  absentK : Nat
  returnM : Nat
  eqMode : Nat
  begun : Bool
  running : Bool
  firstCycle : Bool
  headHeard : Bool
  headHeardPrev : Bool
  cur : Option Sched
  staged : Option (Sched × Nat)
  commitRq : Option (Fin 8 × U16)
  cycle : Nat
  cycleTick : Nat
  own : List SlotRec
  partner : List SlotRec
  partnerVec : Bool
  missedAt : Option Nat
  agreed : List SlotRec
  agreedBreak : Bool
  configured : List Nat
  publishDue : Bool
  ownQ : List QRec
  partnerQ : List QRec
  rxqDue : List RxqIn
  txqDue : List (Nat × Option RxqIn)
  rxqPos : Nat
  rxqDropped : Nat
  txqOrder : List Nat
  txqSubs : List Nat
  txqFlight : List (Nat × Nat)
  kreqs : List KReq
  tagCount : Nat
  keeperCycle : Nat
  round : Option Round
  heardSerials : List (Nat × Nat × Nat)
  outWords : List U64
  outForced : Bool
  outClaim : U32
  lastBeacon : List Byte
  lastBcast : List Byte
  lastRequest : List Byte
  partnerBcast : Option (List Byte)
  outHoldRun : Nat
  comm : Option Commission
  trainRuns : List (Nat × Nat)
  serves : List Serve
  noiseSeen : Bool
  deriving DecidableEq, Repr

/-- A port right after reset. (DESIGN CHOICE, log entry 13) -/
def PortS.fresh : PortS :=
  { calibrated := false, searchRate := 0, rateCand := none, rotEq := 0, calSkipRun := 0, brkRun := 0, brkPair := (0, 0),
    brkClearRun := 0, brkEst := [], echoHead := none, echoTail := none, tdrPending := none, tdrWait := 0,
    retrainLeft := 0, setRuns := [], setWrites := [], absentK := 2, returnM := 3, eqMode := 1, begun := false, running := false, firstCycle := false, headHeard := false,
    headHeardPrev := false, cur := none, staged := none, commitRq := none, cycle := 0, cycleTick := 0,
    own := [], partner := [], partnerVec := false, missedAt := none, agreed := [], agreedBreak := false, configured := [], publishDue := false, ownQ := [],
    partnerQ := [], rxqDue := [], txqDue := [], rxqPos := 0, rxqDropped := 0, txqOrder := [], txqSubs := List.replicate 16 0,
    txqFlight := [], kreqs := [], tagCount := 0, keeperCycle := 0, round := none, heardSerials := [], outWords := [],
    outForced := false, outClaim := 0, lastBeacon := [], lastBcast := [], lastRequest := [], partnerBcast := none,
    outHoldRun := 0, comm := none, trainRuns := [], serves := [], noiseSeen := false }

/-- One entry of a station's configuration (R141): position, part, output word, `NO_INPUT`, launch time. -/
structure CfgEntry where
  pos : Nat
  part : Nat
  outWord : Nat
  noInput : Bool
  launch : Nat
  deriving DecidableEq, Repr

/-- A configuration that a station holds (R141). -/
structure StnCfg where
  digest : U32
  headDelay : Nat
  tailDelay : Nat
  period : Nat
  hyper : Nat
  outTimeout : Nat
  urgency : Nat
  entries : List CfgEntry
  deriving DecidableEq, Repr

/-- The configuration of a station that has none: the default output timeout of R140. -/
def StnCfg.none : StnCfg :=
  { digest := 0, headDelay := 0, tailDelay := 0, period := 0, hyper := 1, outTimeout := 3, urgency := 8, entries := [] }

/-- The update session of a station (R534, R535): session, target blocks, target version and level, the fill of each block
of the second bank, the blocks complete and checked, and its progress. -/
structure StnUpd where
  session : Nat
  total : Nat
  version : U32
  level : Nat
  fill : List (Nat × Nat)
  checked : List Nat
  verified : Bool
  switching : Bool
  deriving DecidableEq, Repr

/-- A station on a trunk (R59, R132 to R149). Non-volatile: address, quarantine, the two configurations, the output choices
and the banks. The rest is its running state. `seq` is the `SEQ` of the cycle in progress, `gotBeacon` and `taken` whether
the cycle has brought a beacon and a broadcast; `rotMask` and `rotEq` the slices received and those equal to its own. -/
structure StnS where
  addr : Nat
  quarantined : Bool
  cur : StnCfg
  staged : Option StnCfg
  holdMask : List (Nat × U64)
  safeVals : List (Nat × U64)
  version : Option U32
  level : Option Nat
  upd : Option StnUpd
  onTrial : Bool
  oldVersion : Option U32
  oldLevel : Option Nat
  slotsIn : List (Nat × CfgEntry)
  timingIn : Option (Nat × Nat × Nat × Nat × Nat × Nat)
  searchRate : Nat
  rateCand : Option U8
  rateFound : Bool
  beacons : Nat
  missed : Nat
  silent : Bool
  clockOffset : Int
  cycleStart : Nat
  seq : U8
  gotBeacon : Bool
  pos : Nat
  applyTicks : Nat
  claimHigh : U32
  learned : Bool
  learnCycles : Nat
  learnHeard : Option U32
  learnNow : Bool
  rotEq : Nat
  rotMask : Nat
  rotSeen : U32
  switchSeen : Bool
  taken : Bool
  stagedOut : List (Nat × List (Nat × U64))
  outputs : List (Nat × U64)
  hold : Bool
  missedOutputs : Nat
  inputs : List (Nat × U64)
  diag : Bool
  lastReq : Option (Nat × Nat)
  prevAddr : Option Nat
  lastReply : List Byte
  lastLaunch : List Byte
  noticeDue : Bool
  window : Nat
  hushed : Option Nat
  jabber : Bool
  restartAt : Nat
  refusedClaims : Nat
  seqMismatch : Nat
  beaconMisses : Nat
  outTimeouts : Nat
  crcErrs : Nat
  codeErrs : Nat
  lostArbs : Nat
  deriving DecidableEq, Repr

/-- A station as it powers up for the first time: a stranger (R146) that has found nothing yet. (DESIGN CHOICE, log entry 13) -/
def StnS.fresh : StnS :=
  { addr := 0xFF, quarantined := false, cur := StnCfg.none, staged := none, holdMask := [], safeVals := [],
    version := none, level := none, upd := none, onTrial := false, oldVersion := none, oldLevel := none, slotsIn := [],
    timingIn := none, searchRate := 0, rateCand := none, rateFound := false, beacons := 0, missed := 0, silent := false,
    clockOffset := 0, cycleStart := 0, seq := 0, gotBeacon := false, pos := 0, applyTicks := 1, claimHigh := 0,
    learned := false, learnCycles := 0, learnHeard := none, learnNow := false, rotEq := 0, rotMask := 0, rotSeen := 0,
    switchSeen := false, taken := false, stagedOut := [], outputs := [], hold := false, missedOutputs := 0, inputs := [],
    diag := false, lastReq := none, prevAddr := none, lastReply := [], lastLaunch := [], noticeDue := false, window := 4,
    hushed := none, jabber := false, restartAt := 0, refusedClaims := 0, seqMismatch := 0, beaconMisses := 0,
    outTimeouts := 0, crcErrs := 0, codeErrs := 0, lostArbs := 0 }

/-! ### Loop engine (file 08) -/

/-- What a unit held before this tick's evaluation (R230): its table and number, its status words, and its destination
word. -/
structure LoopUndo where
  table : Nat
  unit : Nat
  status : List U32
  dest : Option (Nat × U64)
  deriving DecidableEq, Repr

/-- The loop engine beside its configuration and status tables: the program cells of R242 (word offset in the window,
word), the late vectors of the tick, and what can be restored. -/
structure LoopS where
  cells : List (Nat × U32)
  lateLoops : List Nat
  lateGens : List Nat
  lateGroups : List Nat
  undo : List LoopUndo
  evaluated : Bool
  deriving DecidableEq, Repr

/-! ### Acquisition, Gauge and replay (file 13) -/

/-- One capture unit beside its table words (R378 to R390): whether a segment is open, its trigger time and the
`MISSED` triggers before it, and what its header needs (`EQ_SET`, `ADDR`, `SEQ`, cycle, rate). -/
structure CuS where
  inSeg : Bool
  trigTime : Nat
  missed : Nat
  eqSet : Nat
  addr : Nat
  seq : Nat
  cycle : Nat
  rate : Nat
  deriving DecidableEq, Repr

def CuS.fresh : CuS :=
  { inSeg := false, trigTime := 0, missed := 0, eqSet := 0, addr := 0, seq := 0, cycle := 0, rate := 0 }

/-- One completed segment (R383): unit, number since the arm, its place in the unit's part. -/
structure Seg where
  unit : Nat
  no : Nat
  place : Nat
  deriving DecidableEq, Repr

/-- The acquisition engine: the units, the completed segments that are still held, and the exports (unit, first segment,
count, size in bytes) in NAND (R390). -/
structure AcqS where
  units : List CuS
  segs : List Seg
  exports : List (Nat × Nat × Nat × Nat)
  deriving DecidableEq, Repr

/-- A marked window being copied, or waiting for it (R397, R398): slot, cause, trigger tick T, E, the mode at T. -/
structure GMark where
  slot : Nat
  cause : Nat
  trig : Nat
  stop : Nat
  mode : Nat
  deriving DecidableEq, Repr

/-- The Gauge (R391 to R400). -/
structure GaugeS where
  recording : Bool
  rseq : Nat
  now : List GRec
  ring : List (Nat × GRec)
  snaps : List GSnap
  snapBusy : Bool
  copying : Option GMark
  waiting : Option GMark
  windows : List (Nat × GWin)
  exportAt : Option Nat
  deriving DecidableEq, Repr

/-- A replay in progress (R401 to R406). -/
structure ReplayS where
  slot : Option Nat
  tick : Nat
  start : Nat
  executed : Nat
  second : Nat
  rq : Option Rq
  deriving DecidableEq, Repr

/-! ### Local field I/O (file 12) -/

/-- One digital channel in its field die (R341 to R349): the filter's counter and state, whether it waits to be loaded by the
first sample, when C last left each rail, the last edge with its stamps and direction, the edges since the last snapshot, and
the switch. -/
structure DioS where
  c : Nat
  f : Bool
  reload : Bool
  leftLow : Nat
  leftHigh : Nat
  decided : Nat
  first : Nat
  dir : Bool
  edges : Nat
  on : Bool
  deriving DecidableEq, Repr

def DioS.fresh : DioS :=
  { c := 0, f := false, reload := true, leftLow := 0, leftHigh := 0, decided := 0, first := 0, dir := false, edges := 0,
    on := false }

/-- One current-loop channel (R360 to R368): y and the current driven, as binary32 in mA, the ticks in a row below 3.6 mA,
whether it is valid, whether its group's reload is pending, and whether a HART scan has found devices in multidrop. -/
structure ClS where
  y : U32
  drive : U32
  lowRun : Nat
  valid : Bool
  reload : Bool
  deriving DecidableEq, Repr

def ClS.fresh : ClS := { y := 0, drive := 0, lowRun := 0, valid := false, reload := true }

/-- A HART transaction of a channel in progress (R369): the request, its frame, for a scan the polling address and the devices
found, and the retries left. -/
structure HartS where
  chan : Nat
  rq : Rq
  scan : Bool
  poll : Nat
  frame : List Byte
  retries : Nat
  found : List (Nat × List Byte)
  deriving DecidableEq, Repr

/-- The field package beside its tables: the channels, the groups with an outage in progress (R357, kept in MRAM), the manual
settings of SERVICE (R352), the HART transactions, and whether outputs were agreed off by a partner's sag state. -/
structure FioS where
  dio : List DioS
  cl : List ClS
  outage : Nat
  manualDio : Nat
  manualCl : List (Nat × U32)
  hart : List HartS
  deriving DecidableEq, Repr

/-! ### Event recorder (file 17) -/

/-- An event's code: a module event by its name in the images' code list (R494), or a code that the spec fixes. -/
inductive EvCode where
  | mod (name : String)
  | fixed (c : U16)
  deriving DecidableEq, Repr

/-- An event as its source raises it: channel, code, the tick in which it happened, the source-supplied values (R486),
and for a user record its severity and `KEY` (R498). -/
structure Raised where
  chan : Nat
  code : EvCode
  tick : Nat
  vals : List U32
  user : Option (Nat × Nat)
  deriving DecidableEq, Repr

/-- A record (R484): `repeats` and `last` stand for `REPEAT` and `LAST`, `snaps` for `SNAP0` on; `sev` is its severity. -/
structure Rec where
  code : U16
  check : Bool
  partialBit : Bool
  tick : Nat
  snaps : List U32
  last : Nat
  repeats : Nat
  sev : Nat
  safety : U32
  deriving DecidableEq, Repr

/-- A slot that holds no record. -/
def Rec.empty : Rec :=
  { code := 0, check := false, partialBit := false, tick := 0, snaps := [], last := 0, repeats := 0, sev := 0, safety := 0 }

/-- The event recorder beside its parameters (R481 to R499). `queue` holds the records that wait to be written, with their
channels. Slots are keyed by channel × 16,384 + slot, the Headwater's being 0 to 511 and the Tailwater's 512 up. A bucket is
keyed by channel × 65,536 + code and holds its tokens, the instant its refills count from (the Keeper's time in ms) and the
refills counted; a bucket not listed is full. `suppressed` has the same key. `subs` are the subscribed channels of MB0 to MB2. -/
structure RecS where
  raised : List Raised
  queue : List (Nat × Rec)
  slots : List (Nat × Rec)
  buckets : List (Nat × Nat × Nat × Nat)
  suppressed : List (Nat × Nat)
  keeperStart : Nat
  subs : List Nat
  deriving DecidableEq, Repr

/-! ### Keeper and mailboxes (files 15 and 16) -/

/-- A request entry of a mailbox, owned by the Keeper (R442): `open_` while further segments are to come (R440), `parts` the segments
received, `started` once the Keeper executes it. -/
structure MbReq where
  rq : Rq
  opcode : Nat
  payload : List Byte
  port : Nat
  open_ : Bool
  background : Bool
  started : Bool
  parts : Nat
  received : Nat
  deriving DecidableEq, Repr

/-- A response entry of a mailbox (R439, R441, R442): the payload begins with status and detail. `lostAt`: when the connection that it
was to go out on was lost. -/
structure MbResp where
  mb : Fin 8
  tag : U16
  session : U32
  opcode : Nat
  interim : Bool
  unsol : Bool
  payload : List Byte
  lostAt : Option Nat
  deriving DecidableEq, Repr

/-- An open session (R447, R448): its number, what its certificate gives, the 72 bytes that both sides have derived (two keys and two
nonce prefixes), the message counter of each direction, the time without a message, and when and where it was opened. -/
structure Session where
  number : U32
  mb : Fin 8
  roles : Nat
  serial : Nat
  keys : List Byte
  received : Nat
  sent : Nat
  idleMs : Nat
  openedAt : Nat
  port : Nat
  deriving DecidableEq, Repr

/-- A session being opened (R447): the mailbox wanted, the port, what the operator certificate gives, the ML-KEM shared secret, and the
transcript so far. -/
structure Opening where
  mb : Fin 8
  port : Nat
  roles : Nat
  serial : Nat
  secret : List Byte
  transcript : List Byte
  deriving DecidableEq, Repr

/-- A staged change with its effect tick (R445, R462): its items, who asked, whether it was sent to the partner and
acknowledged, whether this module still owes its acknowledgement, the opcode of the response, and the frame number that names a relayed
change. -/
structure StagedChange where
  effect : Nat
  items : List StagedItem
  rq : Option Rq
  opcode : Nat
  relayed : Bool
  acked : Bool
  ackDue : Bool
  id : U32
  deriving DecidableEq, Repr

/-- A request relayed to the lead whose response is awaited (R445). -/
structure RelayOut where
  rq : Rq
  opcode : Nat
  payload : List Byte
  deriving DecidableEq, Repr

/-- What the Keeper counts for a sensor (R433, R479): consecutive samples beyond the warning and the alarm thresholds, consecutive samples
within each and its margin, and whether the last sample beyond was on the low side. -/
structure SensS where
  warn : Nat
  alarm : Nat
  inWarn : Nat
  inAlarm : Nat
  low : Bool
  deriving DecidableEq, Repr

def SensS.fresh : SensS := { warn := 0, alarm := 0, inWarn := 0, inAlarm := 0, low := false }

/-- The life estimates (R573): `CONSUMED` of the two ageing mechanisms in 1/10^12, whether each of the five has been advanced, movements of
the lever to OUT, and `CONSUMED` of the five at each hour of the last 720 h, newest first. -/
structure LifeS where
  aged : List Nat
  valid : List Bool
  leverOuts : Nat
  hist : List (List Nat)
  deriving DecidableEq, Repr

def LifeS.fresh : LifeS := { aged := [0, 0], valid := List.replicate 5 false, leverOuts := 0, hist := [] }

/-- The Keeper beside its parameters: its time in ms; the request and response entries; the round of R444; changes and relayed requests;
sessions and connections; the key store (R451); the sensors; the supervision counts of R435 (tick progress, interconnect, EP0 to EP3), with
the tick and the liveness counts last seen; a restart that waits; the part of an hour and of a second that has passed; the journal of
R427; the life estimates, as they stand and as saved, the sums of this hour's temperatures, and whether the hourly save is due. -/
structure KprS where
  now : Nat
  reqs : List MbReq
  resps : List MbResp
  order : List Nat
  staged : List StagedChange
  relays : List RelayOut
  sessions : List Session
  openings : List Opening
  connections : List (Nat × Fin 8)
  ownerKey : Option (Nat × List Byte)
  revoked : List Nat
  sensors : List SensS
  supervise : List Nat
  lastTick : Nat
  epTicks : List Nat
  restart : Option Nat
  hourMs : Nat
  secMs : Nat
  journal : List (Nat × Nat)
  life : LifeS
  lifeSaved : LifeS
  ageSum : List (Int × Nat)
  lifeDue : Bool
  deriving DecidableEq, Repr

/-! ### Images, identity and update (file 19) -/

/-- An open transfer (R523): its number, kind, size and declared hash, the bytes written, the ranges held, and for a Gauge
window its slot. -/
structure Xfer where
  num : Nat
  kind : Nat
  size : Nat
  hash : List Byte
  data : List (Nat × Byte)
  ranges : List (Nat × Nat)
  slot : Option Nat
  deriving DecidableEq, Repr

/-- A closed object (R523): known by its hash; `usedAt` is the plant time of its last use. -/
structure Obj where
  hash : List Byte
  kind : Nat
  size : Nat
  data : List (Nat × Byte)
  usedAt : Nat
  slot : Option Nat
  deriving DecidableEq, Repr

/-- The journal of a distribution on one port (R536): package, session, start tick, the requester, and the progress entries of
the stations selected (address, W0, W1). -/
structure StnJournal where
  port : Nat
  hash : List Byte
  session : Nat
  start : Nat
  rq : Option Rq
  progress : List (Nat × U32 × U32)
  deriving DecidableEq, Repr

/-- Images and updates beside the parameters and tables of R541 to R545: transfers, the journalled cause of a planned
fall-back, the health window (the Keeper's time of its start, and of the start of clean running), the old settings held
during it (R528), what the Chamber holds beside its entries (class, lowest revision, manifest), the program and configuration
images of the program store, the station packages held with their update sessions, and the distribution journals, own and as
the partner last sent them. -/
structure ImgS where
  xfers : List Xfer
  objects : List Obj
  nextNum : Nat
  fallCause : Option Nat
  healthAt : Option Nat
  cleanSince : Option Nat
  activating : Bool
  oldWords : Option (List (Nat × U32))
  windowWrites : Nat
  chamber : List (Nat × U32 × List Byte)
  programs : List Package
  configs : List (List (Nat × U32))
  stnPkgs : List (List Byte × StnPkg)
  sessions : List (List Byte × Nat)
  nextSession : Nat
  journals : List StnJournal
  journalIn : List StnJournal
  identity : List Byte
  deriving DecidableEq, Repr

/-! ### Lockstep checking, debug and maintenance (files 11 and 20) -/

/-- One execution pair as a debugger reaches it (R331 to R333), and the Keeper's view of its progress (R435): halted, its
program counter and the registers known while halted (number, value), its breakpoints (slot, kind, address), and its
liveness count. -/
structure EpS where
  halted : Bool
  pc : U64
  regs : List (Nat × U64)
  breaks : List (Nat × Nat × U64)
  liveness : Nat
  deriving DecidableEq, Repr

def EpS.fresh : EpS := { halted := false, pc := 0, regs := [], breaks := [], liveness := 0 }

/-- Maintenance activities beside `SYS_MAINT` (R546, R552): whether UPD is in progress in this module, its own activities as
last entered in the table, and the partner's activities and their ports as last received (sets of bits by number). -/
structure MaintS where
  upd : Bool
  own : Nat
  partner : Nat
  partnerPorts : List (Nat × Nat)
  deriving DecidableEq, Repr

/-! ### The state -/

/-- The whole state. `pending` is the queue of commands that wait, first in, first out; `words` is the word file;
`pm` is the process memory of R170 and `dram` every other byte memory, by physical address; `free` counts the free
values drawn. (DESIGN CHOICE, log entry 95) -/
structure State where
  pending : List Instr
  words : List (Nat × U32)
  pm : List Host.Cell
  dram : List Host.Cell
  free : Nat
  time : TimeS
  sys : SysS
  pair : PairS
  sync : SyncS
  ports : List PortS
  stns : List (Nat × StnS)
  prog : ProgS
  change : ChangeS
  loop : LoopS
  recorder : RecS
  kpr : KprS
  fio : FioS
  acq : AcqS
  gauge : GaugeS
  replay : ReplayS
  img : ImgS
  eps : List EpS
  maint : MaintS
  deriving DecidableEq, Repr


/-! ### Reset

Each part of State right after a power-on reset of a module that has never run: what MRAM, NAND and the pins hold then is the
log's entry 13. -/

def TimeS.fresh : TimeS :=
  { raw := 0, offset := 0, anchor := 0, rate := 0, tick := 0, rateReq := none, stepReq := none, freqErr := 0, alignRun := 0,
    gm := none, gmOrigin := 0, keeper := 0, saved := 0 }

def Lamps.off : Lamps :=
  { run := .off, role := .off, roleYellow := false, fault := .off, forced := .off, swap := .off }

def SysS.fresh : SysS :=
  { mode := .boot, prev := .boot, pending := none, pendingRq := none, diesUp := 0, boot := [1, 2, 3, 4, 5, 6],
    bootFail := false, keeperUp := false, deferred := [], sluices := 0, inits := 0, split := 0, bootsel := 0, clksel := 0,
    bootselPin := 0, clkselPin := 0, posB := false, carrier := 0x12, mateOpen := false, mains := true, leverOut := false, leverTook := false,
    leverInAt := none, lampTestUntil := 0, lamps := Lamps.off, runStanding := false, bootEndAt := 0, heardAt := 0,
    proofPending := false, prgValid := false, cfgValid := false, toUpdate := false, uptimeMs := 0 }

def Snap.none : Snap := { dio := [], cl := [], sag := [] }

def PairS.fresh : PairS :=
  { claim := 0, saved := 0, high := 0, partner := .absent, partnerMode := 0, hbMissed := 8, hbSeen := false,
    firstNoHb := none, faultSeen := false, wireDiff := 0, partnerWireDiff := 0, digestDiff := false, resolution := none,
    waitLead := none, handover := none, withdrawing := none, takeoverDue := false, withdrawn03 := [],
    afterHandover := none, waitHandover := none, snapOwn := Snap.none,
    snapPartner := none, agreedSnap := none, disagreeRun := List.replicate 24 0, agreeRun := List.replicate 24 0,
    partnerSole := false, suspect := 0, withdrawAt := none }

def SyncS.fresh : SyncS :=
  { linkA := LinkS.fresh, linkB := LinkS.fresh, fseq := 0, seen := [], ctlOut := [], rxOut := [], exch := none,
    exchIn := none, exchLate := false, beat := none, beatIn := none, beatLast := none, msgOut := [], msgIn := [],
    joinAsked := none, accepted := none, resync := none, retryAt := none, abandons := [],
    stepped := false }

def ProgS.fresh : ProgS :=
  { tasks := List.replicate 32 TaskS.fresh0, running := List.replicate 4 none, chain := 0, doneOwn := 0,
    seed := [], hash := [], package := none, inbox := [],
    inboxUsed := [], outbox := [], changeKept := [], changes := [], lastValid := [],
    heldForces := 0, retainMark := [], retainBusy := none, retainNext := 0, retainGen := 0, localCut := none,
    underForce := [], sbResult := [], guardStop := [] }

def ChangeS.fresh : ChangeS :=
  { package := none, commit := 0, agree := none, proposedAt := 0, seed := [], ackSent := false,
    lead := false, rq := none, orphans := [], pending := [], journal := 0 }

def LoopS.fresh : LoopS :=
  { cells := [], lateLoops := [], lateGens := [], lateGroups := [], undo := [], evaluated := false }

def AcqS.fresh : AcqS := { units := List.replicate 4 CuS.fresh, segs := [], exports := [] }

def GaugeS.fresh : GaugeS :=
  { recording := false, rseq := 0, now := [], ring := [], snaps := [], snapBusy := false, copying := none,
    waiting := none, windows := [], exportAt := none }

def ReplayS.fresh : ReplayS := { slot := none, tick := 0, start := 0, executed := 0, second := 0, rq := none }

def FioS.fresh : FioS :=
  { dio := List.replicate 16 DioS.fresh, cl := List.replicate 8 ClS.fresh, outage := 0, manualDio := 0, manualCl := [],
    hart := [] }

def RecS.fresh : RecS :=
  { raised := [], queue := [], slots := [], buckets := [], suppressed := [], keeperStart := 0, subs := [0, 0, 0] }

def KprS.fresh : KprS :=
  { now := 0, reqs := [], resps := [], order := [7, 4, 0, 1, 6, 2, 3, 5], staged := [], relays := [], sessions := [],
    openings := [], connections := [], ownerKey := none, revoked := [],
    sensors := List.replicate 32 SensS.fresh, supervise := List.replicate 6 0, lastTick := 0,
    epTicks := List.replicate 4 0, restart := none, hourMs := 0, secMs := 0, journal := [],
    life := LifeS.fresh, lifeSaved := LifeS.fresh, ageSum := [(0, 0), (0, 0)], lifeDue := false }

def ImgS.fresh : ImgS :=
  { xfers := [], objects := [], nextNum := 0, fallCause := none, healthAt := none, cleanSince := none,
    activating := false, oldWords := none, windowWrites := 0, chamber := [], programs := [], configs := [], stnPkgs := [],
    sessions := [], nextSession := 0, journals := [], journalIn := [], identity := [] }

def MaintS.fresh : MaintS := { upd := false, own := 0, partner := 0, partnerPorts := [] }

/-- The machine right after a power-on reset: every word at its default, the whole module in reset, the release order of R424
still to run. (DESIGN CHOICE, log entry 13) -/
def State.reset : State :=
  { pending := [], words := [], pm := [], dram := [], free := 0, time := TimeS.fresh, sys := SysS.fresh,
    pair := PairS.fresh, sync := SyncS.fresh, ports := List.replicate 16 PortS.fresh, stns := [], prog := ProgS.fresh,
    change := ChangeS.fresh, loop := LoopS.fresh, recorder := RecS.fresh, kpr := KprS.fresh, fio := FioS.fresh,
    acq := AcqS.fresh, gauge := GaugeS.fresh, replay := ReplayS.fresh, img := ImgS.fresh,
    eps := List.replicate 4 EpS.fresh, maint := MaintS.fresh }

end Sys2Proof.Machine
end

