-- ==== Sys2Proof/Machine/ParamIds.lean ====
section
/-!
DEFINITION. The parameter numbers by name (R455 to R457, and each owner chapter's parameter table).
-/

namespace Sys2Proof.Machine

/-- `TIME_STATUS` (R48). -/
abbrev P.timeStatus : Nat := 0x1000
/-- `TIME_SOURCE_CFG` (R48). -/
abbrev P.timeSourceCfg : Nat := 0x1001
/-- `TIME_PTP_DOMAIN` (R48). -/
abbrev P.timePtpDomain : Nat := 0x1002
/-- `TIME_PTP_TRANSPORT` (R48). -/
abbrev P.timePtpTransport : Nat := 0x1003
/-- `TIME_RATE` (R48). -/
abbrev P.timeRate : Nat := 0x1004
/-- `TIME_OFFSET_ERR` (R48). -/
abbrev P.timeOffsetErr : Nat := 0x1005
/-- `TIME_SLEW_MAX` (R48). -/
abbrev P.timeSlewMax : Nat := 0x1006
/-- `TIME_LOCK_THR` (R48). -/
abbrev P.timeLockThr : Nat := 0x1007
/-- `TIME_UTC_OFFSET` (R48). -/
abbrev P.timeUtcOffset : Nat := 0x1008
/-- `TIME_PARTNER_SKEW` (R48). -/
abbrev P.timePartnerSkew : Nat := 0x1009
/-- `TIME_TICK_LO` (R48). -/
abbrev P.timeTickLo : Nat := 0x1010
/-- `TIME_TICK_HI` (R48). -/
abbrev P.timeTickHi : Nat := 0x1011
/-- `TIME_PLANT_LO` (R48). -/
abbrev P.timePlantLo : Nat := 0x1012
/-- `TIME_PLANT_HI` (R48). -/
abbrev P.timePlantHi : Nat := 0x1013
/-- `TRK_STATUS` (R88). -/
abbrev P.trkStatus (n : Nat) : Nat := 0x2000 + 0x100 * n
/-- `TRK_HEAD_POS` (R88). -/
abbrev P.trkHeadPos (n : Nat) : Nat := 0x2001 + 0x100 * n
/-- `TRK_RATE` (R88). -/
abbrev P.trkRate (n : Nat) : Nat := 0x2002 + 0x100 * n
/-- `TRK_RATE_DET` (R88). -/
abbrev P.trkRateDet (n : Nat) : Nat := 0x2003 + 0x100 * n
/-- `TRK_LOOP_DELAY` (R88). -/
abbrev P.trkLoopDelay (n : Nat) : Nat := 0x2004 + 0x100 * n
/-- `TRK_LOOP_LEN` (R88). -/
abbrev P.trkLoopLen (n : Nat) : Nat := 0x2005 + 0x100 * n
/-- `TRK_PREEMPH` (R88). -/
abbrev P.trkPreemph (n : Nat) : Nat := 0x2006 + 0x100 * n
/-- `TRK_CAL_SKIP` (R88). -/
abbrev P.trkCalSkip (n : Nat) : Nat := 0x2007 + 0x100 * n
/-- `TRK_LAUNCH_ERR` (R88). -/
abbrev P.trkLaunchErr (n : Nat) : Nat := 0x2008 + 0x100 * n
/-- `TRK_SNR_WARN` (R88). -/
abbrev P.trkSnrWarn (n : Nat) : Nat := 0x2010 + 0x100 * n
/-- `TRK_SNR_MIN` (R88). -/
abbrev P.trkSnrMin (n : Nat) : Nat := 0x2011 + 0x100 * n
/-- `TRK_EQMODE` (R88). -/
abbrev P.trkEqmode (n : Nat) : Nat := 0x2014 + 0x100 * n
/-- `TRK_EQ_DRIFT_LIM` (R88). -/
abbrev P.trkEqDriftLim (n : Nat) : Nat := 0x2015 + 0x100 * n
/-- `TRK_BREAK_DELAY` (R88). -/
abbrev P.trkBreakDelay (n : Nat) : Nat := 0x2018 + 0x100 * n
/-- `TRK_BREAK_DIST` (R88). -/
abbrev P.trkBreakDist (n : Nat) : Nat := 0x2019 + 0x100 * n
/-- `TRK_BREAK_NEIGH` (R88). -/
abbrev P.trkBreakNeigh (n : Nat) : Nat := 0x201a + 0x100 * n
/-- `TRK_TDR_THR` (R88). -/
abbrev P.trkTdrThr (n : Nat) : Nat := 0x201c + 0x100 * n
/-- `SCHED_STATUS` (R130). -/
abbrev P.schedStatus (n : Nat) : Nat := 0x3000 + 0x100 * n
/-- `SCHED_PERIOD` (R130). -/
abbrev P.schedPeriod (n : Nat) : Nat := 0x3001 + 0x100 * n
/-- `SCHED_PHASE` (R130). -/
abbrev P.schedPhase (n : Nat) : Nat := 0x3002 + 0x100 * n
/-- `SCHED_HYPER` (R130). -/
abbrev P.schedHyper (n : Nat) : Nat := 0x3003 + 0x100 * n
/-- `SCHED_BCAST_TICK` (R130). -/
abbrev P.schedBcastTick (n : Nat) : Nat := 0x3004 + 0x100 * n
/-- `SCHED_APPLY_TICK` (R130). -/
abbrev P.schedApplyTick (n : Nat) : Nat := 0x3005 + 0x100 * n
/-- `SCHED_EVENT_ROUNDS` (R130). -/
abbrev P.schedEventRounds (n : Nat) : Nat := 0x3006 + 0x100 * n
/-- `SCHED_EVENT_LEN` (R130). -/
abbrev P.schedEventLen (n : Nat) : Nat := 0x3007 + 0x100 * n
/-- `SCHED_ARB_BIT` (R130). -/
abbrev P.schedArbBit (n : Nat) : Nat := 0x3008 + 0x100 * n
/-- `SCHED_DIGEST` (R130). -/
abbrev P.schedDigest (n : Nat) : Nat := 0x3009 + 0x100 * n
/-- `SCHED_BUDGET_END` (R130). -/
abbrev P.schedBudgetEnd (n : Nat) : Nat := 0x300a + 0x100 * n
/-- `SCHED_INPUT_END` (R130). -/
abbrev P.schedInputEnd (n : Nat) : Nat := 0x300b + 0x100 * n
/-- `SCHED_INTAKE_MISS` (R130). -/
abbrev P.schedIntakeMiss (n : Nat) : Nat := 0x3010 + 0x100 * n
/-- `SCHED_OUT_MISS` (R130). -/
abbrev P.schedOutMiss (n : Nat) : Nat := 0x3011 + 0x100 * n
/-- `SCHED_END_DISAGREE` (R130). -/
abbrev P.schedEndDisagree (n : Nat) : Nat := 0x3012 + 0x100 * n
/-- `SCHED_SLOT_TIMING` (R130). -/
abbrev P.schedSlotTiming (n : Nat) : Nat := 0x3013 + 0x100 * n
/-- `SCHED_CYCLE_LO` (R130). -/
abbrev P.schedCycleLo (n : Nat) : Nat := 0x3014 + 0x100 * n
/-- `SCHED_CYCLE_HI` (R130). -/
abbrev P.schedCycleHi (n : Nat) : Nat := 0x3015 + 0x100 * n
/-- `TRK_ABSENT_K` (R163). -/
abbrev P.trkAbsentK (n : Nat) : Nat := 0x2020 + 0x100 * n
/-- `TRK_RETURN_M` (R163). -/
abbrev P.trkReturnM (n : Nat) : Nat := 0x2021 + 0x100 * n
/-- `TRK_OUT_TIMEOUT` (R163). -/
abbrev P.trkOutTimeout (n : Nat) : Nat := 0x2022 + 0x100 * n
/-- `TRK_NOISE` (R163). -/
abbrev P.trkNoise (n : Nat) : Nat := 0x2023 + 0x100 * n
/-- `TRK_CODE_ERR` (R163). -/
abbrev P.trkCodeErr (n : Nat) : Nat := 0x2024 + 0x100 * n
/-- `TRK_COLLISIONS` (R163). -/
abbrev P.trkCollisions (n : Nat) : Nat := 0x2025 + 0x100 * n
/-- `TRK_STRANGER_CNT` (R163). -/
abbrev P.trkStrangerCnt (n : Nat) : Nat := 0x2026 + 0x100 * n
/-- `TRK_RXQ_OVF` (R163). -/
abbrev P.trkRxqOvf (n : Nat) : Nat := 0x2027 + 0x100 * n
/-- `TRK_TXQ_OVF` (R163). -/
abbrev P.trkTxqOvf (n : Nat) : Nat := 0x2028 + 0x100 * n
/-- `TRK_PRESENT_CNT` (R163). -/
abbrev P.trkPresentCnt (n : Nat) : Nat := 0x2029 + 0x100 * n
/-- `TRK_ABSENT_CNT` (R163). -/
abbrev P.trkAbsentCnt (n : Nat) : Nat := 0x202a + 0x100 * n
/-- `PRG_STATUS` (R206). -/
abbrev P.prgStatus : Nat := 0x4000
/-- `PRG_START_MODE` (R206). -/
abbrev P.prgStartMode : Nat := 0x4001
/-- `PRG_RETAIN_PERIOD` (R206). -/
abbrev P.prgRetainPeriod : Nat := 0x4002
/-- `PRG_RETAIN_SKIP` (R206). -/
abbrev P.prgRetainSkip : Nat := 0x4003
/-- `PRG_RETAIN_SIZE` (R206). -/
abbrev P.prgRetainSize : Nat := 0x4004
/-- `PRG_FORCE_COUNT` (R206). -/
abbrev P.prgForceCount : Nat := 0x4005
/-- `PRG_FORCE_DELAY` (R206). -/
abbrev P.prgForceDelay : Nat := 0x4006
/-- `PRG_MBX_DELAY` (R206). -/
abbrev P.prgMbxDelay : Nat := 0x4007
/-- `PRG_LATE_VECTOR` (R206). -/
abbrev P.prgLateVector : Nat := 0x4008
/-- `PRG_SUSPEND_VECTOR` (R206). -/
abbrev P.prgSuspendVector : Nat := 0x4009
/-- `PRG_COMPLETION_SPLIT` (R206). -/
abbrev P.prgCompletionSplit : Nat := 0x400a
/-- `PRG_CHANGE_STATUS` (R224). -/
abbrev P.prgChangeStatus : Nat := 0x4010
/-- `PRG_CHANGE_TICK_LO` (R224). -/
abbrev P.prgChangeTickLo : Nat := 0x4011
/-- `PRG_CHANGE_TICK_HI` (R224). -/
abbrev P.prgChangeTickHi : Nat := 0x4012
/-- `PRG_CHANGE_LEAD` (R224). -/
abbrev P.prgChangeLead : Nat := 0x4013
/-- `PRG_CHANGE_COUNT` (R224). -/
abbrev P.prgChangeCount : Nat := 0x4014
/-- `PRG_CHANGE_MIGR_MAX` (R224). -/
abbrev P.prgChangeMigrMax : Nat := 0x4015
/-- `LOOP_STATUS` (R245). -/
abbrev P.loopStatus : Nat := 0x5000
/-- `LOOP_LOAD` (R245). -/
abbrev P.loopLoad : Nat := 0x5001
/-- `LOOP_WINDOW_MAX` (R245). -/
abbrev P.loopWindowMax : Nat := 0x5002
/-- `LOOP_MISS_TOTAL` (R245). -/
abbrev P.loopMissTotal : Nat := 0x5003
/-- `LOOP_SPLIT` (R245). -/
abbrev P.loopSplit : Nat := 0x5004
/-- `LOOP_ENABLED` (R245). -/
abbrev P.loopEnabled : Nat := 0x5005
/-- `PAIR_STATUS` (R277). -/
abbrev P.pairStatus : Nat := 0x6000
/-- `PAIR_CLAIM` (R277). -/
abbrev P.pairClaim : Nat := 0x6001
/-- `PAIR_CLAIM_HIGH` (R277). -/
abbrev P.pairClaimHigh : Nat := 0x6002
/-- `PAIR_PARTNER_CLAIM` (R277). -/
abbrev P.pairPartnerClaim : Nat := 0x6003
/-- `PAIR_LISTEN_ALONE` (R277). -/
abbrev P.pairListenAlone : Nat := 0x6004
/-- `PAIR_AUTOSTART` (R277). -/
abbrev P.pairAutostart : Nat := 0x6005
/-- `PAIR_HANDOVER_LEAD` (R277). -/
abbrev P.pairHandoverLead : Nat := 0x6006
/-- `PAIR_DISAGREE_TICKS` (R277). -/
abbrev P.pairDisagreeTicks : Nat := 0x6007
/-- `PAIR_DIVERGE_CNT` (R277). -/
abbrev P.pairDivergeCnt : Nat := 0x6008
/-- `PAIR_UNRESOLVED_CNT` (R277). -/
abbrev P.pairUnresolvedCnt : Nat := 0x6009
/-- `PAIR_TAKEOVER_CNT` (R277). -/
abbrev P.pairTakeoverCnt : Nat := 0x600a
/-- `PAIR_HANDOVER_CNT` (R277). -/
abbrev P.pairHandoverCnt : Nat := 0x600b
/-- `PAIR_DEPOSED_CNT` (R277). -/
abbrev P.pairDeposedCnt : Nat := 0x600c
/-- `PAIR_LOCAL_LATE` (R277). -/
abbrev P.pairLocalLate : Nat := 0x600d
/-- `PAIR_LAST_CHANGE_LO` (R277). -/
abbrev P.pairLastChangeLo : Nat := 0x600e
/-- `PAIR_LAST_CHANGE_HI` (R277). -/
abbrev P.pairLastChangeHi : Nat := 0x600f
/-- `SYNC_STATUS` (R310). -/
abbrev P.syncStatus : Nat := 0x6020
/-- `SYNC_DELAY_A` (R310). -/
abbrev P.syncDelayA : Nat := 0x6021
/-- `SYNC_DELAY_B` (R310). -/
abbrev P.syncDelayB : Nat := 0x6022
/-- `SYNC_ASYM_A` (R310). -/
abbrev P.syncAsymA : Nat := 0x6023
/-- `SYNC_ASYM_B` (R310). -/
abbrev P.syncAsymB : Nat := 0x6024
/-- `SYNC_CRC_ERR_A` (R310). -/
abbrev P.syncCrcErrA : Nat := 0x6025
/-- `SYNC_CRC_ERR_B` (R310). -/
abbrev P.syncCrcErrB : Nat := 0x6026
/-- `SYNC_LATE` (R310). -/
abbrev P.syncLate : Nat := 0x6027
/-- `SYNC_LEVELS` (R310). -/
abbrev P.syncLevels : Nat := 0x6028
/-- `RESYNC_CUT_PAGES` (R310). -/
abbrev P.resyncCutPages : Nat := 0x6029
/-- `RESYNC_MAX_PASSES` (R310). -/
abbrev P.resyncMaxPasses : Nat := 0x602a
/-- `RESYNC_CATCHUP_MAX` (R310). -/
abbrev P.resyncCatchupMax : Nat := 0x602b
/-- `RESYNC_LAST_MS` (R310). -/
abbrev P.resyncLastMs : Nat := 0x602c
/-- `RESYNC_LAST_PAGES` (R310). -/
abbrev P.resyncLastPages : Nat := 0x602d
/-- `RESYNC_ABANDON_CNT` (R310). -/
abbrev P.resyncAbandonCnt : Nat := 0x602e
/-- `CHK_STATUS` (R336). -/
abbrev P.chkStatus : Nat := 0x7000
/-- `CHK_SPLIT_CFG` (R336). -/
abbrev P.chkSplitCfg : Nat := 0x7001
/-- `CHK_MISMATCH_CNT` (R336). -/
abbrev P.chkMismatchCnt : Nat := 0x7002
/-- `CHK_TEST_TIME_LO` (R336). -/
abbrev P.chkTestTimeLo : Nat := 0x7003
/-- `CHK_TEST_TIME_HI` (R336). -/
abbrev P.chkTestTimeHi : Nat := 0x7004
/-- `CHK_TEST_DURATION` (R336). -/
abbrev P.chkTestDuration : Nat := 0x7005
/-- `CHK_PROOF_INTERVAL` (R336). -/
abbrev P.chkProofInterval : Nat := 0x7006
/-- `CHK_PROOF_AGE` (R336). -/
abbrev P.chkProofAge : Nat := 0x7007
/-- `CHK_TRACE_CFG` (R336). -/
abbrev P.chkTraceCfg : Nat := 0x7008
/-- `CHK_TRACE_DROP` (R336). -/
abbrev P.chkTraceDrop : Nat := 0x7009
/-- `FIO_STATUS` (R376). -/
abbrev P.fioStatus : Nat := 0x8000
/-- `FIO_HART_RETRY` (R376). -/
abbrev P.fioHartRetry : Nat := 0x8001
/-- `FIO_OVL_CNT` (R376). -/
abbrev P.fioOvlCnt : Nat := 0x8002
/-- `FIO_HART_ERR` (R376). -/
abbrev P.fioHartErr : Nat := 0x8003
/-- `ACQ_STATUS` (R407). -/
abbrev P.acqStatus : Nat := 0x9000
/-- `ACQ_VIOL_CNT` (R407). -/
abbrev P.acqViolCnt : Nat := 0x9001
/-- `GAUGE_STATUS` (R407). -/
abbrev P.gaugeStatus : Nat := 0xa000
/-- `GAUGE_SNAP_MIN` (R407). -/
abbrev P.gaugeSnapMin : Nat := 0xa001
/-- `GAUGE_PRE_S` (R407). -/
abbrev P.gaugePreS : Nat := 0xa002
/-- `GAUGE_POST_S` (R407). -/
abbrev P.gaugePostS : Nat := 0xa003
/-- `GAUGE_TRIG` (R407). -/
abbrev P.gaugeTrig : Nat := 0xa004
/-- `GAUGE_RATE` (R407). -/
abbrev P.gaugeRate : Nat := 0xa005
/-- `GAUGE_WINDOW_S` (R407). -/
abbrev P.gaugeWindowS : Nat := 0xa006
/-- `GAUGE_BASE_MIB` (R407). -/
abbrev P.gaugeBaseMib : Nat := 0xa007
/-- `GAUGE_GAP_CNT` (R407). -/
abbrev P.gaugeGapCnt : Nat := 0xa008
/-- `GAUGE_SNAP_SKIP` (R407). -/
abbrev P.gaugeSnapSkip : Nat := 0xa009
/-- `REPLAY_STATUS` (R407). -/
abbrev P.replayStatus : Nat := 0xa010
/-- `REPLAY_SPEED` (R407). -/
abbrev P.replaySpeed : Nat := 0xa011
/-- `SYS_MODE` (R428). -/
abbrev P.sysMode : Nat := 0x10
/-- `SYS_MODE_TICK_LO` (R428). -/
abbrev P.sysModeTickLo : Nat := 0x11
/-- `SYS_MODE_TICK_HI` (R428). -/
abbrev P.sysModeTickHi : Nat := 0x12
/-- `SYS_RESET_CAUSE` (R428). -/
abbrev P.sysResetCause : Nat := 0x13
/-- `SYS_RESET_CNT` (R428). -/
abbrev P.sysResetCnt : Nat := 0x14
/-- `SYS_STRAPS` (R428). -/
abbrev P.sysStraps : Nat := 0x15
/-- `SYS_BOOT_TARGET` (R428). -/
abbrev P.sysBootTarget : Nat := 0x16
/-- `SYS_CLOCK` (R428). -/
abbrev P.sysClock : Nat := 0x17
/-- `SYS_SERIAL` (R469). -/
abbrev P.sysSerial : Nat := 0x0
/-- `SYS_ORDER_CODE` (R469). -/
abbrev P.sysOrderCode : Nat := 0x1
/-- `SYS_HW_REV` (R469). -/
abbrev P.sysHwRev : Nat := 0x2
/-- `SYS_KPR_VER` (R469). -/
abbrev P.sysKprVer : Nat := 0x3
/-- `SYS_RTF_VER` (R469). -/
abbrev P.sysRtfVer : Nat := 0x4
/-- `SYS_LDM_VER` (R469). -/
abbrev P.sysLdmVer : Nat := 0x5
/-- `SYS_FDF_VER` (R469). -/
abbrev P.sysFdfVer : Nat := 0x6
/-- `SYS_LEVELS` (R469). -/
abbrev P.sysLevels : Nat := 0x7
/-- `SYS_HOURS` (R469). -/
abbrev P.sysHours : Nat := 0x8
/-- `SYS_UPTIME` (R469). -/
abbrev P.sysUptime : Nat := 0x9
/-- `SYS_POWER_CYCLES` (R469). -/
abbrev P.sysPowerCycles : Nat := 0xa
/-- `SYS_PARAM_STATUS` (R469). -/
abbrev P.sysParamStatus : Nat := 0xb
/-- `SYS_CFG_GEN` (R469). -/
abbrev P.sysCfgGen : Nat := 0xc
/-- `SYS_WRITE_CNT` (R469). -/
abbrev P.sysWriteCnt : Nat := 0xd
/-- `SYS_SLOT_ID` (R469). -/
abbrev P.sysSlotId : Nat := 0xe
/-- `SYS_REFUSE_LAST` (R469). -/
abbrev P.sysRefuseLast : Nat := 0xf
/-- `KPR_STATUS` (R473). -/
abbrev P.kprStatus : Nat := 0xe000
/-- `KPR_STEP_MAX` (R473). -/
abbrev P.kprStepMax : Nat := 0xe001
/-- `KPR_NAND_REFRESH` (R473). -/
abbrev P.kprNandRefresh : Nat := 0xe002
/-- `KPR_REFRESH_DAYS` (R473). -/
abbrev P.kprRefreshDays : Nat := 0xe003
/-- `KPR_REVOKED` (R473). -/
abbrev P.kprRevoked : Nat := 0xe004
/-- `KPR_DROPPED` (R473). -/
abbrev P.kprDropped : Nat := 0xe005
/-- `KPR_AUTH_FAIL` (R473). -/
abbrev P.kprAuthFail : Nat := 0xe006
/-- `KPR_MBX_MASK` (R473). -/
abbrev P.kprMbxMask : Nat := 0xe007
/-- `KPR_IP_ADDR` (R473). -/
abbrev P.kprIpAddr (n : Nat) : Nat := 0xe010 + 0x100 * n
/-- `KPR_IP_MASK` (R473). -/
abbrev P.kprIpMask (n : Nat) : Nat := 0xe011 + 0x100 * n
/-- `KPR_IP_GW` (R473). -/
abbrev P.kprIpGw (n : Nat) : Nat := 0xe012 + 0x100 * n
/-- `KPR_MAC_HI` (R473). -/
abbrev P.kprMacHi (n : Nat) : Nat := 0xe013 + 0x100 * n
/-- `KPR_MAC_LO` (R473). -/
abbrev P.kprMacLo (n : Nat) : Nat := 0xe014 + 0x100 * n
/-- `KPR_LINK` (R473). -/
abbrev P.kprLink (n : Nat) : Nat := 0xe015 + 0x100 * n
/-- `KPR_RX_ERR` (R473). -/
abbrev P.kprRxErr (n : Nat) : Nat := 0xe016 + 0x100 * n
/-- `KPR_CONN` (R473). -/
abbrev P.kprConn (n : Nat) : Nat := 0xe017 + 0x100 * n
/-- `KPR_MB_REQ` (R473). -/
abbrev P.kprMbReq (n : Nat) : Nat := 0xe040 + 0x100 * n
/-- `KPR_MB_FAIL` (R473). -/
abbrev P.kprMbFail (n : Nat) : Nat := 0xe041 + 0x100 * n
/-- `KPR_MB_BG` (R473). -/
abbrev P.kprMbBg (n : Nat) : Nat := 0xe042 + 0x100 * n
/-- `KPR_MB_LAT_MAX` (R473). -/
abbrev P.kprMbLatMax (n : Nat) : Nat := 0xe043 + 0x100 * n
/-- `REC_STATUS` (R500). -/
abbrev P.recStatus (n : Nat) : Nat := 0xb000 + 0x100 * n
/-- `REC_SAFE` (R500). -/
abbrev P.recSafe (n : Nat) : Nat := 0xb001 + 0x100 * n
/-- `REC_RATE` (R500). -/
abbrev P.recRate (n : Nat) : Nat := 0xb002 + 0x100 * n
/-- `REC_BURST` (R500). -/
abbrev P.recBurst (n : Nat) : Nat := 0xb003 + 0x100 * n
/-- `REC_NOTIFY_SEV` (R500). -/
abbrev P.recNotifySev (n : Nat) : Nat := 0xb004 + 0x100 * n
/-- `REC_NEXT_LO, _HI` (R500). -/
abbrev P.recNextLo (n : Nat) : Nat := 0xb005 + 0x100 * n
/-- `REC_NEXT_LO, _HI` (R500). -/
abbrev P.recNextHi (n : Nat) : Nat := 0xb006 + 0x100 * n
/-- `REC_OLDEST_LO, _HI` (R500). -/
abbrev P.recOldestLo (n : Nat) : Nat := 0xb007 + 0x100 * n
/-- `REC_OLDEST_LO, _HI` (R500). -/
abbrev P.recOldestHi (n : Nat) : Nat := 0xb008 + 0x100 * n
/-- `REC_HW_USED` (R500). -/
abbrev P.recHwUsed (n : Nat) : Nat := 0xb009 + 0x100 * n
/-- `REC_TW_LAPS` (R500). -/
abbrev P.recTwLaps (n : Nat) : Nat := 0xb00a + 0x100 * n
/-- `REC_EVENTS_LO, _HI` (R500). -/
abbrev P.recEventsLo (n : Nat) : Nat := 0xb00b + 0x100 * n
/-- `REC_EVENTS_LO, _HI` (R500). -/
abbrev P.recEventsHi (n : Nat) : Nat := 0xb00c + 0x100 * n
/-- `REC_REPEATS` (R500). -/
abbrev P.recRepeats (n : Nat) : Nat := 0xb00d + 0x100 * n
/-- `REC_SUPPRESSED` (R500). -/
abbrev P.recSuppressed (n : Nat) : Nat := 0xb00e + 0x100 * n
/-- `REC_LOST` (R500). -/
abbrev P.recLost (n : Nat) : Nat := 0xb00f + 0x100 * n
/-- `REC_CHECK_FAIL` (R500). -/
abbrev P.recCheckFail (n : Nat) : Nat := 0xb010 + 0x100 * n
/-- `REC_LAST_CODE` (R500). -/
abbrev P.recLastCode (n : Nat) : Nat := 0xb011 + 0x100 * n
/-- `REC_LAST_TICK_LO, _HI` (R500). -/
abbrev P.recLastTickLo (n : Nat) : Nat := 0xb012 + 0x100 * n
/-- `REC_LAST_TICK_LO, _HI` (R500). -/
abbrev P.recLastTickHi (n : Nat) : Nat := 0xb013 + 0x100 * n
/-- `REC_WRITE_LAT` (R500). -/
abbrev P.recWriteLat (n : Nat) : Nat := 0xb014 + 0x100 * n
/-- `REC_SUBSCRIBERS` (R500). -/
abbrev P.recSubscribers (n : Nat) : Nat := 0xb015 + 0x100 * n
/-- `REC_NOTICES` (R500). -/
abbrev P.recNotices (n : Nat) : Nat := 0xb016 + 0x100 * n
/-- `REC_SUMMARIES` (R500). -/
abbrev P.recSummaries (n : Nat) : Nat := 0xb017 + 0x100 * n
/-- `REC_QUEUE_DEPTH` (R501). -/
abbrev P.recQueueDepth : Nat := 0xb800
/-- `REC_QUEUE_MAX` (R501). -/
abbrev P.recQueueMax : Nat := 0xb801
/-- `REC_LOST_TOTAL` (R501). -/
abbrev P.recLostTotal : Nat := 0xb802
/-- `REC_HW_OPEN_LO, _HI` (R501). -/
abbrev P.recHwOpenLo : Nat := 0xb803
/-- `REC_HW_OPEN_LO, _HI` (R501). -/
abbrev P.recHwOpenHi : Nat := 0xb804
/-- `REC_SCAN_HOURS` (R501). -/
abbrev P.recScanHours : Nat := 0xb805
/-- `REC_SCAN_LAST` (R501). -/
abbrev P.recScanLast : Nat := 0xb806
/-- `REC_SCAN_FAIL` (R501). -/
abbrev P.recScanFail : Nat := 0xb807
/-- `REC_CODES_USED` (R501). -/
abbrev P.recCodesUsed : Nat := 0xb808
/-- `REC_FLOOD_CODES` (R501). -/
abbrev P.recFloodCodes : Nat := 0xb809
/-- `REC_PARTIAL_CNT` (R501). -/
abbrev P.recPartialCnt : Nat := 0xb80a
/-- `REC_REPEAT_SPLIT` (R501). -/
abbrev P.recRepeatSplit : Nat := 0xb80b
/-- `REC_WRITE_MAX` (R501). -/
abbrev P.recWriteMax : Nat := 0xb80c
/-- `REC_USER_CNT` (R501). -/
abbrev P.recUserCnt : Nat := 0xb80d
/-- `REC_USER_REFUSED` (R501). -/
abbrev P.recUserRefused : Nat := 0xb80e
/-- `REC_RECOVERED` (R501). -/
abbrev P.recRecovered : Nat := 0xb80f
/-- `GUARD_STATUS` (R516). -/
abbrev P.guardStatus (n : Nat) : Nat := 0xc000 + 0x100 * n
/-- `GUARD_ARM` (R516). -/
abbrev P.guardArm (n : Nat) : Nat := 0xc001 + 0x100 * n
/-- `GUARD_GEN` (R516). -/
abbrev P.guardGen (n : Nat) : Nat := 0xc002 + 0x100 * n
/-- `GUARD_ARM_TICK_LO, _HI` (R516). -/
abbrev P.guardArmTickLo (n : Nat) : Nat := 0xc003 + 0x100 * n
/-- `GUARD_ARM_TICK_LO, _HI` (R516). -/
abbrev P.guardArmTickHi (n : Nat) : Nat := 0xc004 + 0x100 * n
/-- `GUARD_REFUSE_CNT` (R516). -/
abbrev P.guardRefuseCnt (n : Nat) : Nat := 0xc005 + 0x100 * n
/-- `GUARD_STRADDLE_CNT` (R516). -/
abbrev P.guardStraddleCnt (n : Nat) : Nat := 0xc006 + 0x100 * n
/-- `GUARD_OVERLAP_CNT` (R516). -/
abbrev P.guardOverlapCnt (n : Nat) : Nat := 0xc007 + 0x100 * n
/-- `GUARD_RULE_CNT` (R516). -/
abbrev P.guardRuleCnt (n : Nat) : Nat := 0xc008 + 0x100 * n
/-- `GUARD_LATE_CNT` (R516). -/
abbrev P.guardLateCnt (n : Nat) : Nat := 0xc009 + 0x100 * n
/-- `GUARD_ECC_CNT` (R516). -/
abbrev P.guardEccCnt (n : Nat) : Nat := 0xc00a + 0x100 * n
/-- `GUARD_APP_CNT` (R516). -/
abbrev P.guardAppCnt (n : Nat) : Nat := 0xc00b + 0x100 * n
/-- `GUARD_FIRST_0 to _7` (R516). -/
abbrev P.guardFirst (n : Nat) (w : Nat) : Nat := 0xc010 + 0x100 * n + w
/-- `GUARD_LAST_0 to _7` (R516). -/
abbrev P.guardLast (n : Nat) (w : Nat) : Nat := 0xc018 + 0x100 * n + w
/-- `IMG_STN_STATUS` (R541). -/
abbrev P.imgStnStatus (n : Nat) : Nat := 0xd000 + 0x100 * n
/-- `IMG_STN_SESSION` (R541). -/
abbrev P.imgStnSession (n : Nat) : Nat := 0xd001 + 0x100 * n
/-- `IMG_STN_PARALLEL` (R541). -/
abbrev P.imgStnParallel (n : Nat) : Nat := 0xd002 + 0x100 * n
/-- `IMG_STN_SHARE` (R541). -/
abbrev P.imgStnShare (n : Nat) : Nat := 0xd003 + 0x100 * n
/-- `IMG_STN_TARGETS` (R541). -/
abbrev P.imgStnTargets (n : Nat) : Nat := 0xd004 + 0x100 * n
/-- `IMG_STN_DONE` (R541). -/
abbrev P.imgStnDone (n : Nat) : Nat := 0xd005 + 0x100 * n
/-- `IMG_STN_FAILED` (R541). -/
abbrev P.imgStnFailed (n : Nat) : Nat := 0xd006 + 0x100 * n
/-- `IMG_STN_FELL_BACK` (R541). -/
abbrev P.imgStnFellBack (n : Nat) : Nat := 0xd007 + 0x100 * n
/-- `IMG_STN_ACTIVE` (R541). -/
abbrev P.imgStnActive (n : Nat) : Nat := 0xd008 + 0x100 * n
/-- `IMG_STN_FRAMES` (R541). -/
abbrev P.imgStnFrames (n : Nat) : Nat := 0xd009 + 0x100 * n
/-- `IMG_STN_RETRIES` (R541). -/
abbrev P.imgStnRetries (n : Nat) : Nat := 0xd00a + 0x100 * n
/-- `IMG_STN_BYTES` (R541). -/
abbrev P.imgStnBytes (n : Nat) : Nat := 0xd00b + 0x100 * n
/-- `IMG_STN_ETA_S` (R541). -/
abbrev P.imgStnEtaS (n : Nat) : Nat := 0xd00c + 0x100 * n
/-- `IMG_STN_LEVEL_MIN` (R541). -/
abbrev P.imgStnLevelMin (n : Nat) : Nat := 0xd00d + 0x100 * n
/-- `IMG_STN_LEVEL_MAX` (R541). -/
abbrev P.imgStnLevelMax (n : Nat) : Nat := 0xd00e + 0x100 * n
/-- `IMG_STN_VERIFY_TO` (R541). -/
abbrev P.imgStnVerifyTo (n : Nat) : Nat := 0xd00f + 0x100 * n
/-- `IMG_STN_SEL_0 to _5` (R541). -/
abbrev P.imgStnSel (n : Nat) (w : Nat) : Nat := 0xd010 + 0x100 * n + w
/-- `IMG_STN_DONE_MAP_0 to _5` (R541). -/
abbrev P.imgStnDoneMap (n : Nat) (w : Nat) : Nat := 0xd016 + 0x100 * n + w
/-- `IMG_STN_FAIL_MAP_0 to _5` (R541). -/
abbrev P.imgStnFailMap (n : Nat) (w : Nat) : Nat := 0xd01c + 0x100 * n + w
/-- `IMG_STN_ACTIVATE_TO` (R541). -/
abbrev P.imgStnActivateTo (n : Nat) : Nat := 0xd022 + 0x100 * n
/-- `IMG_STN_PKG_LEVEL` (R541). -/
abbrev P.imgStnPkgLevel (n : Nat) : Nat := 0xd023 + 0x100 * n
/-- `IMG_STN_LAST_ADDR` (R541). -/
abbrev P.imgStnLastAddr (n : Nat) : Nat := 0xd024 + 0x100 * n
/-- `IMG_STN_LAST_CAUSE` (R541). -/
abbrev P.imgStnLastCause (n : Nat) : Nat := 0xd025 + 0x100 * n
/-- `IMG_STN_START_LO, _HI` (R541). -/
abbrev P.imgStnStartLo (n : Nat) : Nat := 0xd026 + 0x100 * n
/-- `IMG_STN_START_LO, _HI` (R541). -/
abbrev P.imgStnStartHi (n : Nat) : Nat := 0xd027 + 0x100 * n
/-- `IMG_STATUS` (R541). -/
abbrev P.imgStatus : Nat := 0xd080
/-- `IMG_ACTIVE_BANK` (R541). -/
abbrev P.imgActiveBank : Nat := 0xd081
/-- `IMG_HEALTH_LEFT_S` (R541). -/
abbrev P.imgHealthLeftS : Nat := 0xd082
/-- `IMG_HEALTH_AUTO` (R541). -/
abbrev P.imgHealthAuto : Nat := 0xd083
/-- `IMG_HEALTH_RUN_S` (R541). -/
abbrev P.imgHealthRunS : Nat := 0xd084
/-- `IMG_FALLBACK_CNT` (R541). -/
abbrev P.imgFallbackCnt : Nat := 0xd085
/-- `IMG_ACTIVATE_CNT` (R541). -/
abbrev P.imgActivateCnt : Nat := 0xd086
/-- `IMG_XFER_OPEN_CNT` (R541). -/
abbrev P.imgXferOpenCnt : Nat := 0xd087
/-- `IMG_TPL_RANGE` (R541). -/
abbrev P.imgTplRange : Nat := 0xd088
/-- `IMG_CHAMBER` (R541). -/
abbrev P.imgChamber : Nat := 0xd089
/-- `IMG_ATTEST_CNT` (R541). -/
abbrev P.imgAttestCnt : Nat := 0xd08a
/-- `IMG_LOST_WRITES` (R541). -/
abbrev P.imgLostWrites : Nat := 0xd08b

end Sys2Proof.Machine
end

