-- ==== Sys2Proof/Machine/Ops.lean ====
section
/-!
DEFINITION. The named operations over State that every meaning is written with: the words of parameters and tables and
their fields, the byte memories, the ports and stations, plant time, and raising an event.
-/

namespace Sys2Proof.Machine

/-- The outcome of a command. -/
abbrev Res := Host.Outcome State Fault Refusal

/-! ### The word file -/

/-- The word at a key of the word file. (DESIGN CHOICE, log entry 4) -/
def State.word (s : State) (k : Nat) : U32 := Cmap.get dfltWord s.words k

def State.setWord (s : State) (k : Nat) (v : U32) : State := { s with words := Cmap.put dfltWord s.words k v }

/-- The field [hi:lo] of a word, as a number. -/
def State.fld (s : State) (k hi lo : Nat) : Nat := fieldOf (s.word k) hi lo

def State.setFld (s : State) (k hi lo v : Nat) : State := s.setWord k (withField (s.word k) hi lo v)

/-- One bit of a word. -/
def State.bit (s : State) (k b : Nat) : Bool := (s.word k).getLsbD b

def State.setBit (s : State) (k b : Nat) (v : Bool) : State := s.setFld k b b v.toNat

/-- A 64-bit quantity held as two parameters (R458). -/
def State.set64 (s : State) (k v : Nat) : State := (s.setWord k (lo32 v)).setWord (k + 1) (hi32 v)
def State.get64 (s : State) (k : Nat) : Nat := (s.word k).toNat + 2 ^ 32 * (s.word (k + 1)).toNat

/-- A counter up by one, saturating (R28). -/
def State.inc (s : State) (k : Nat) : State := s.setWord k (satInc32 (s.word k))

/-- A counter up by n, saturating. -/
def State.incBy (s : State) (k n : Nat) : State := s.setWord k (w32 (satNat 32 ((s.word k).toNat + n)))

/-- A field up by one, saturating at its width. -/
def State.incFld (s : State) (k hi lo : Nat) : State :=
  s.setFld k hi lo (satNat (hi + 1 - lo) (s.fld k hi lo + 1))

/-- A maximum kept in a word. -/
def State.maxWord (s : State) (k v : Nat) : State := if (s.word k).toNat < v then s.setWord k (w32 v) else s

/-- The words of one table entry, W0 first. -/
def State.entry (s : State) (tid e n : Nat) : List U32 := (List.range n).map fun w => s.word (tkey tid e w)

/-- Consecutive words written from key `k` up. -/
def State.setWords (s : State) (k : Nat) : List U32 → State
  | [] => s
  | v :: vs => State.setWords (s.setWord k v) (k + 1) vs

/-- Every word of a table entry set back to its reset value. -/
def State.clearEntry (s : State) (tid e n : Nat) : State :=
  (List.range n).foldl (fun s w => s.setWord (tkey tid e w) (dfltWord (tkey tid e w))) s

/-- The words whose key the test keeps; the others read as their defaults again. -/
def State.keepWords (s : State) (f : Nat → Bool) : State := { s with words := Cmap.keep f s.words }

/-! ### Byte memories -/

/-- What an unlisted byte of memory reads as (log entry 3). (DESIGN CHOICE, log entry 3) -/
def byteDflt : Nat → Byte := fun _ => 0

/-- The canonical form of a byte memory. -/
def Memory.wf (m : List Host.Cell) : Bool := Cmap.wf byteDflt m

def State.pmByte (s : State) (a : Nat) : Byte := Cmap.get byteDflt s.pm a
def State.setPmByte (s : State) (a : Nat) (v : Byte) : State := { s with pm := Cmap.put byteDflt s.pm a v }

/-- n bytes of the process memory as a little-endian number (R9). -/
def State.pmGet (s : State) (a n : Nat) : Nat := ofLe (Cmap.getAll byteDflt s.pm a n)

def State.setPm (s : State) (a : Nat) (bs : List Byte) : State := { s with pm := Cmap.putAll byteDflt s.pm a bs }

/-- n bytes written with a number, little-endian. -/
def State.pmPut (s : State) (a n v : Nat) : State := s.setPm a (leBytes n v)

def State.dramByte (s : State) (a : Nat) : Byte := Cmap.get byteDflt s.dram a
def State.setDramByte (s : State) (a : Nat) (v : Byte) : State := { s with dram := Cmap.put byteDflt s.dram a v }
def State.setDram (s : State) (a : Nat) (bs : List Byte) : State := { s with dram := Cmap.putAll byteDflt s.dram a bs }

/-! ### Ports and stations -/

def State.port (s : State) (p : Nat) : PortS := s.ports.getD p PortS.fresh

def State.modPort (s : State) (p : Nat) (f : PortS → PortS) : State := { s with ports := s.ports.modify p f }

/-- The key of a station: the trunk it is on and its serial number (R141). -/
def stnKey (p : Nat) (serial : U32) : Nat := p * 2 ^ 32 + serial.toNat

def State.stn (s : State) (k : Nat) : StnS := Cmap.get (fun _ => StnS.fresh) s.stns k

def State.setStn (s : State) (k : Nat) (v : StnS) : State :=
  { s with stns := Cmap.put (fun _ => StnS.fresh) s.stns k v }

def State.modStn (s : State) (k : Nat) (f : StnS → StnS) : State := s.setStn k (f (s.stn k))

/-! ### Time -/

/-- Plant time at a RAWTIME (R31). -/
def TimeS.plantAt (t : TimeS) (raw : Nat) : Int :=
  raw + t.offset + ((raw : Int) - t.anchor) * t.rate / 1000000000000

/-- The tick-start plant time of the current tick (R21, R45). -/
def State.tickStart (s : State) : Nat := s.time.tick * 125000

/-- Whether the main domain's core die is released. -/
def State.coreUp (s : State) : Bool := hasBit s.sys.diesUp 0

/-- The tick that an event raised now happens in: the current tick, or that of the Keeper's own plant time while the main
domain is not released (R486). -/
def State.evTick (s : State) : Nat := if s.coreUp then s.time.tick else s.time.keeper / 125000

/-- The plant time the Keeper goes by (R35). -/
def State.plant (s : State) : Nat := if s.coreUp then s.tickStart else s.time.keeper

/-! ### Events -/

/-- An event raised on a channel, with its source-supplied values (R486). The recorder takes it in at the next tick
boundary (log entry 9). (DEDUCED, log entry 9) -/
def State.ev (s : State) (chan : Nat) (name : String) (vals : List Nat) : State :=
  { s with recorder := { s.recorder with raised := s.recorder.raised ++
      [{ chan := chan, code := .mod name, tick := s.evTick, vals := vals.map w32, user := none }] } }

/-- An event of a code that the spec fixes. -/
def State.evFixed (s : State) (chan : Nat) (code : Nat) (vals : List Nat) : State :=
  { s with recorder := { s.recorder with raised := s.recorder.raised ++
      [{ chan := chan, code := .fixed (BitVec.ofNat 16 code), tick := s.evTick, vals := vals.map w32, user := none }] } }

/-! ### Free values -/

/-- A word that the spec leaves open, drawn afresh. (DESIGN CHOICE, log entry 5) -/
def State.drawWord (s : State) : U32 × State := (Config.freeWord s.free 0, { s with free := s.free + 1 })

/-- `n` bytes that the spec leaves open, drawn afresh. (DESIGN CHOICE, log entry 5) -/
def State.drawBytes (s : State) (n : Nat) : List Byte × State :=
  ((List.range n).map fun i => (Config.freeWord s.free i).setWidth 8, { s with free := s.free + 1 })

/-- The next state, when a condition holds; else the state as it is. -/
def State.when (s : State) (c : Bool) (f : State → State) : State := if c then f s else s

/-- A step over each of a list's members in order. -/
def State.each {α : Type} (s : State) (l : List α) (f : State → α → State) : State := l.foldl f s

/-- The bytes whose address the test keeps; the others read as unlisted again. -/
def State.keepPm (s : State) (f : Nat → Bool) : State := { s with pm := Cmap.keep f s.pm }

def State.keepDram (s : State) (f : Nat → Bool) : State := { s with dram := Cmap.keep f s.dram }

/-- The process memory as it is when the program starts or stands still: 0 throughout. -/
def State.clearPm (s : State) : State := { s with pm := [] }

/-- Whether an address lies in the program data (R164). -/
def isPrgData (a : Nat) : Bool := decide (0x1020000000 ≤ a) && decide (a < 0x1060000000)

/-- Process memory and program data replaced by what a copy of them lists. -/
def State.loadMem (s : State) (pm dram : List (Nat × Byte)) : State :=
  let s := s.clearPm.keepDram fun a => !isPrgData a
  let s := s.each pm fun s x => s.setPmByte x.1 x.2
  s.each (dram.filter fun x => isPrgData x.1) fun s x => s.setDramByte x.1 x.2

end Sys2Proof.Machine
end

