-- ==== Sys2Proof/Machine/KprOps.lean ====
section
/-!
DEFINITION. The Keeper's shared operations: status codes (R452), posting a response and freeing its request entry (R441,
R442), sessions and connections that end (R442, R448), the role and mode tests that commands share, and staging a change for its effect
tick (R445, R462).
-/

namespace Sys2Proof.Machine

/-! ### Status codes (R452) -/

abbrev St.ok : Nat := 0x0000
abbrev St.accepted : Nat := 0x0001
abbrev St.unknownOpcode : Nat := 0x0002
abbrev St.badLength : Nat := 0x0003
abbrev St.unknownId : Nat := 0x0004
abbrev St.outOfRange : Nat := 0x0005
abbrev St.readOnly : Nat := 0x0006
abbrev St.wrongMode : Nat := 0x0007
abbrev St.notPermitted : Nat := 0x0008
abbrev St.busy : Nat := 0x0009
abbrev St.busyConflict : Nat := 0x000A
abbrev St.refused : Nat := 0x000B
abbrev St.verifyFail : Nat := 0x000C
abbrev St.partnerFail : Nat := 0x000D
abbrev St.timeout : Nat := 0x000E
abbrev St.aborted : Nat := 0x000F
abbrev St.noSession : Nat := 0x0010
abbrev St.authFail : Nat := 0x0011
abbrev St.unavailable : Nat := 0x0012
abbrev St.internal : Nat := 0x0013

/-- The status of a response as it is tallied in `KPR_MB_REQ` and `KPR_MB_FAIL` (R473). -/
def State.tally (s : State) (mb status : Nat) : State :=
  (s.inc (P.kprMbReq mb)).when (status != 0) fun s => s.inc (P.kprMbFail mb)

/-- The response payload of R441: status, detail, data. -/
def respBytes (status detail : Nat) (data : List Byte) : List Byte := leBytes 2 status ++ leBytes 2 detail ++ data

/-- A response to a request (R439, R441). -/
def respOf (rq : Rq) (opcode : Nat) (interim : Bool) (payload : List Byte) : MbResp :=
  { mb := rq.mb, tag := rq.tag, session := rq.session, opcode := opcode, interim := interim, unsol := false,
    payload := payload, lostAt := none }

/-- A request entry taken over by a background command (R443). -/
def bgReq (rq : Rq) (opcode now : Nat) : MbReq :=
  { rq := rq, opcode := opcode, payload := [], port := 0, open_ := false, background := true, started := true, parts := 1,
    received := now }

/-- A control message waiting for the next EXCH (R292). -/
def State.control (s : State) (code arg : Nat) (word : U32) (tick : Nat) : State :=
  { s with sync := { s.sync with ctlOut := s.sync.ctlOut ++ [{ code := code, arg := arg, word := word, tick := tick }] } }

/-- The body of a control message that is too large for it, in an earlier MSG frame; the frame's `FSEQ` names it (R292). (DESIGN CHOICE, log entry 78) -/
def State.message (s : State) (kind : Nat) (body : List Byte) : U32 × State :=
  (s.sync.fseq, { s with sync := { s.sync with
      fseq := s.sync.fseq + 1
      msgOut := s.sync.msgOut ++ [{ fseq := s.sync.fseq, kind := kind, body := body }] } })

/-- The messages of a payload: segments of at most 4,096 bytes (R440). -/
def segments (len : Nat) : Nat := max 1 ((len + 4095) / 4096)

/-- A response entry filled (R442, R448): the messages of its session are counted; one whose session has closed goes nowhere. -/
def State.putResp (s : State) (r : MbResp) : State :=
  let open_ := s.kpr.sessions.any fun x => x.mb == r.mb && x.number == r.session
  let sent (x : Session) : Session :=
    if x.mb == r.mb && x.number == r.session then { x with sent := x.sent + segments r.payload.length, idleMs := 0 } else x
  { s with kpr := { s.kpr with
      sessions := s.kpr.sessions.map sent
      resps := s.kpr.resps ++ [{ r with lostAt := if r.session = 0 ∨ open_ then none else some s.kpr.now }] } }

/-- A response posted in its mailbox; one to a request that the partner relayed goes back over MB4 (R445). -/
def State.post (s : State) (rq : Rq) (opcode : Nat) (interim : Bool) (payload : List Byte) : State :=
  if rq.mb = 4 then (s.message 11 (leBytes 2 opcode ++ leBytes 2 rq.tag.toNat ++ leBytes 1 interim.toNat ++ payload)).2
  else s.putResp (respOf rq opcode interim payload)

/-- A message that the Keeper sends without a request, with the session of its mailbox (R446). -/
def State.unsolicited (s : State) (mb : Fin 8) (opcode : Nat) (payload : List Byte) : State :=
  let sess := ((s.kpr.sessions.find? fun x => x.mb == mb).map (·.number)).getD 0
  s.putResp { mb := mb, tag := 0, session := sess, opcode := opcode, interim := false, unsol := true, payload := payload, lostAt := none }

/-- The request entry that a response answers, taken out of its list: the direct one in execution, or else the first. -/
def dropReq (rq : Rq) (opcode : Nat) (l : List MbReq) : List MbReq :=
  let hit (r : MbReq) : Bool := r.rq == rq && r.opcode == opcode
  if l.any fun r => hit r && r.started && !r.background then l.eraseP fun r => hit r && r.started && !r.background else l.eraseP hit

/-- The longest direct command of a mailbox (R473), in µs from the receipt of its last segment. -/
def State.latency (s : State) (rq : Rq) (opcode : Nat) : State :=
  match s.kpr.reqs.find? fun r => r.rq == rq && r.opcode == opcode && !r.background with
  | some r => s.maxWord (P.kprMbLatMax rq.mb) ((s.kpr.now - r.received) * 1000)
  | none => s

/-- The final response of a request: it is posted, and the request entry goes back to the requester (R442). -/
def State.respond (s : State) (rq : Rq) (opcode status detail : Nat) (data : List Byte) : State :=
  let s := (s.latency rq opcode).post rq opcode false (respBytes status detail data)
  { s with kpr.reqs := dropReq rq opcode s.kpr.reqs }.tally rq.mb status

/-- The interim response of a background command (R443): its request entry stays with the Keeper, in the background. -/
def State.accept (s : State) (rq : Rq) (opcode : Nat) (data : List Byte) : State :=
  let s := s.post rq opcode true (respBytes St.accepted 0 data)
  { s with kpr.reqs := dropReq rq opcode s.kpr.reqs ++ [bgReq rq opcode s.kpr.now] }

/-- The request of a background command with an opcode that is in progress, if any. -/
def State.background (s : State) (opcode : Nat) : Option Rq :=
  ((s.kpr.reqs.find? fun r => r.background && r.opcode == opcode).map (·.rq))

/-- The final response of the background command with an opcode, if one is in progress. -/
def State.finish (s : State) (opcode status detail : Nat) (data : List Byte) : State :=
  match s.background opcode with
  | some rq => s.respond rq opcode status detail data
  | none => s

/-- The final response to a mailbox and tag, for commands that end long after their request (R443). -/
def State.finishTag (s : State) (mb : Fin 8) (tag : U16) (opcode status detail : Nat) (data : List Byte) : State :=
  match s.kpr.reqs.find? fun r => r.rq.mb == mb && r.rq.tag == tag && r.opcode == opcode with
  | some r => s.respond r.rq opcode status detail data
  | none => s.respond { mb := mb, tag := tag, session := 0 } opcode status detail data

/-- Whether a mailbox already has four background commands in progress (R443). -/
def State.bgFull (s : State) (mb : Fin 8) : Bool :=
  4 ≤ (s.kpr.reqs.filter fun r => r.background && r.rq.mb == mb).length

/-- A direct command that is answered later keeps its request entry (R442). -/
def State.hold (s : State) (rq : Rq) (opcode : Nat) : State :=
  if s.kpr.reqs.any fun r => r.rq == rq && r.opcode == opcode then s
  else { s with kpr.reqs := s.kpr.reqs ++ [{ bgReq rq opcode s.kpr.now with background := false }] }

/-- A session closes, and its subscriptions with it (R448, R497). (DEDUCED, log entry 90) -/
def State.closeSession (s : State) (mb : Fin 8) : State :=
  if s.kpr.sessions.any fun x => x.mb == mb then
    let s := { s with
      recorder.subs := s.recorder.subs.set mb.val 0
      kpr.sessions := s.kpr.sessions.filter fun x => x.mb != mb }.ev 5 "SESSION_CLOSED" [mb]
    s.when (decide (mb.val < 3)) fun s => s.each (List.range 8) fun s c => s.setBit (P.recSubscribers c) mb.val false
  else s

/-- A connection lost (R442, R448): its session closes, an unfinished message is dropped, and undelivered responses wait 10 s. -/
def State.connLost (s : State) (port : Nat) (mb : Fin 8) : State :=
  if !s.kpr.connections.contains (port, mb) then s
  else
    let lost (r : MbResp) : MbResp := if r.mb == mb && r.lostAt.isNone then { r with lostAt := some s.kpr.now } else r
    let s := { s with kpr := { s.kpr with
        connections := s.kpr.connections.filter (· != (port, mb))
        openings := s.kpr.openings.filter fun o => !(o.mb == mb && o.port == port)
        reqs := s.kpr.reqs.filter fun r => !(r.rq.mb == mb && r.port == port && r.open_)
        resps := s.kpr.resps.map lost } }
    s.when (s.kpr.sessions.any fun x => x.mb == mb && x.port == port) fun s => s.closeSession mb

/-- Every connection on a port of the Keeper is lost: 0 ENG-A, 1 ENG-B, 2 the service port. -/
def State.portConnsLost (s : State) (port : Nat) : State :=
  s.each (s.kpr.connections.filter fun (x : Nat × Fin 8) => x.1 == port) fun s (x : Nat × Fin 8) => s.connLost x.1 x.2

/-- The mailboxes an opcode is accepted on (R453), with MB4 and MB7 always: relayed and the Keeper's own requests. -/
def Rq.onAny (rq : Rq) (mbs : List Nat) : Bool := mbs.contains rq.mb.val || rq.mb.val == 4 || rq.mb.val == 7

/-- A mailbox command (R452, R453): refused on a mailbox that does not accept it, when it needs the main domain and that is
not released, and in a mode that does not admit it; else carried out. -/
def State.cmd (s : State) (rq : Rq) (op : Nat) (mbs : List Nat) (main ok : Bool) (f : State → State) : State :=
  if !rq.onAny mbs then s.respond rq op St.notPermitted 0 []
  else if main && !s.coreUp then s.respond rq op St.unavailable 0 []
  else if !ok then s.respond rq op St.wrongMode 0 []
  else f s

/-- A background command accepted (R443), unless four of its mailbox are in progress: then `BUSY`. -/
def State.bg (s : State) (rq : Rq) (op : Nat) (data : List Byte) (f : State → State) : State :=
  if s.bgFull rq.mb then s.respond rq op St.busy 0 [] else f (s.accept rq op data)

/-- Whether the partner is in TRAIL behind this lead, so that changes of pair state go through R445. -/
def State.paired (s : State) : Bool := s.sys.mode == .lead && s.pair.partner == .trail && !s.bit P.pairStatus 25

/-- A returning module takes this lead's ACTION messages as items of its ticks (R306). -/
def State.serving (s : State) : Bool := match s.sync.resync with
  | some r => r.lead
  | none => false

/-- A request relayed to the lead (R445): it waits there under its own tag until the lead answers. (DESIGN CHOICE, log entry 78) -/
def State.relay (s : State) (rq : Rq) (opcode : Nat) (payload : List Byte) : State :=
  if s.bit P.pairStatus 25 then s.respond rq opcode St.partnerFail 0 []
  else
    { s with
      kpr := { s.kpr with relays := s.kpr.relays ++ [{ rq := rq, opcode := opcode, payload := payload }] }
      sync := { s.sync with
        fseq := s.sync.fseq + 1
        msgOut := s.sync.msgOut ++ [⟨s.sync.fseq, 4, leBytes 2 opcode ++ leBytes 2 rq.tag.toNat ++ payload⟩] } }

/-- A change that waits for its effect tick. With pair items in LEAD with a partner the effect tick is the current tick
plus 16 and the change is sent to the trail; otherwise it is the next tick boundary (R445, R462). -/
def State.stage (s : State) (rq : Option Rq) (opcode : Nat) (pairItems : Bool) (items : List StagedItem) : State :=
  let rel := pairItems && s.paired
  let eff := if rel then s.time.tick + 16 else s.time.tick + 1
  let s := { s with kpr := { s.kpr with staged := s.kpr.staged ++
      [{ effect := eff, items := items, rq := rq, opcode := opcode, relayed := rel, acked := false, ackDue := false,
         id := s.sync.fseq }] } }
  if rel then
    { s with sync := { s.sync with
        fseq := s.sync.fseq + 1
        msgOut := s.sync.msgOut ++ [{ fseq := s.sync.fseq, kind := 5, body := leBytes 8 eff }] } }
  else s

end Sys2Proof.Machine
end

