-- ==== Sys2Proof/Machine/AcqOps.lean ====
section
/-!
DEFINITION. The shared operations of the acquisition engine and of the Gauge (file 13): the state of a capture unit, closing a
segment, entering a record, and marking a window.
-/

namespace Sys2Proof.Machine

/-! ### Capture units (R378 to R390) -/

abbrev cuKey (u w : Nat) : Nat := tkey 0x90C0 u w

/-- `STATE` of a unit: 0 IDLE, 1 ARMED, 2 RUNNING, 3 STOPPED (R381). -/
def State.cuState (s : State) (u : Nat) : Nat := s.fld (cuKey u 0) 31 29

def State.cu (s : State) (u : Nat) : CuS := s.acq.units.getD u CuS.fresh
def State.modCu (s : State) (u : Nat) (f : CuS → CuS) : State :=
  { s with acq := { s.acq with units := s.acq.units.modify u f } }

/-- `ACQ_STATUS` follows the units (R407). -/
def State.cuStatus (s : State) : State :=
  s.setWord P.acqStatus (w32 ((List.range 4).foldl (fun m u =>
    m + (if s.cuState u = 2 then 2 ^ u else 0) +
      (if s.cuState u = 3 ∧ s.fld (cuKey u 0) 28 25 = 3 then 2 ^ (4 + u) else 0)) 0))

def State.setCu (s : State) (u st cause : Nat) : State :=
  ((s.setFld (cuKey u 0) 31 29 st).setFld (cuKey u 0) 28 25 cause).cuStatus

/-- Whether a unit is ARMED or RUNNING. -/
def State.cuActive (s : State) (u : Nat) : Bool := s.cuState u == 1 || s.cuState u == 2

/-- A unit stopped without a header for its open segment: cause MODE, RESET or port lost (R380, R381). (DEDUCED, log entry 23) -/
def State.cuDrop (s : State) (u cause : Nat) : State :=
  if s.cuActive u then (s.setCu u 3 cause).modCu u fun c => { c with inSeg := false } else s

/-- Every unit that is ARMED or RUNNING stops with a cause (R380). -/
def State.cuDropAll (s : State) (cause : Nat) : State := s.each (List.range 4) fun s u => s.cuDrop u cause

/-- The units on a port lose it: calibration failed, port reset or unused (R381). (DEDUCED, log entry 23) -/
def State.cuPortLost (s : State) (p : Nat) : State :=
  s.each (List.range 4) fun s u =>
    if s.fld (cuKey u 1) 31 29 = 1 ∧ s.fld (cuKey u 1) 28 25 = p then s.cuDrop u 8 else s

/-- The segments a unit's part holds: `SEG_COUNT` + 1 (R381). -/
def State.cuSegs (s : State) (u : Nat) : Nat := s.fld (cuKey u 4) 31 16 + 1

/-- The physical address of a segment's place in the unit's part (R379, R504). -/
def State.segAddr (s : State) (u place : Nat) : Nat :=
  0x12A0000000 + s.fld (cuKey u 7) 31 16 * 65536 + place * (s.word (cuKey u 5)).toNat

/-- The header of R383, W0 first. -/
def segHeader (c : CuS) (src port no : Nat) (viol : Option (Nat × Nat)) (trunc : Bool) (d : SegData) : List U32 :=
  let w0 := withField (withField 0 31 29 src) 28 25 port
  let w0 := withField (withField (withField w0 24 24 viol.isSome.toNat) 23 23 d.preShort.toNat) 22 22 d.cal.toNat
  let w0 := withField (withField w0 21 21 trunc.toNat) 20 19 c.rate
  let w6 := withField (withField (withField 0 31 22 c.eqSet) 21 14 c.addr) 13 6 c.seq
  let w6 := withField w6 5 3 ((viol.map (·.1)).getD 0)
  [w0, 0, 0, w32 d.lost, lo32 c.cycle, hi32 c.cycle, w6, w32 no, w32 ((viol.map (·.2)).getD 0xFFFFFFFF), w32 d.count,
    w32 c.missed, w32 (satNat 32 d.deadNs), lo32 d.firstTime, hi32 d.firstTime, lo32 c.trigTime, hi32 c.trigTime]

/-- The open segment of a unit closed with its header (R383): stored in the unit's part, and counted. -/
def State.closeSeg (s : State) (u : Nat) (viol : Option (Nat × Nat)) (trunc : Bool) (d : SegData) : State :=
  let c := s.cu u
  if !c.inSeg then s
  else
    let no := s.fld (cuKey u 0) 16 0
    let place := no % s.cuSegs u
    let h := segHeader c (s.fld (cuKey u 1) 31 29) (s.fld (cuKey u 1) 28 25) no viol trunc d
    let size := (s.word (cuKey u 5)).toNat
    let s := s.setDram (s.segAddr u place) (((h.flatMap fun w => leBytes 4 w.toNat) ++ d.bytes).take size)
    let segs := s.acq.segs.filter (fun g => !(g.unit == u && g.place == place)) ++ [⟨u, no, place⟩]
    let s := { s with acq.segs := segs }
    (s.incFld (cuKey u 0) 16 0).modCu u fun c =>
      { c with inSeg := false, missed := 0 }

/-- A unit stops and closes its segment with `TRUNC` (R379, R383). (DEDUCED, log entry 23) -/
def State.cuStop (s : State) (u cause : Nat) (d : SegData) : State :=
  if s.cuActive u then (s.closeSeg u none true d).setCu u 3 cause else s

/-- A segment starts at a trigger (R382, R383); what its header takes from the port is taken now. -/
def State.startSeg (s : State) (u t : Nat) : State :=
  let p := s.fld (cuKey u 1) 28 25
  let q := s.port p
  let slot : Option MEntry := match q.cur with
    | some c => c.entries.find? fun e => s.fld (cuKey u 2) 31 28 == 1 && e.idx == (s.word (cuKey u 3)).toNat
    | none => none
  (s.setCu u 2 0).modCu u fun c =>
    { c with
      inSeg := true
      trigTime := t
      eqSet := (slot.map (·.eqSet)).getD 0
      addr := (slot.map (·.addr)).getD 0
      seq := q.cycle % 256
      cycle := q.cycle
      rate := (s.word (P.trkRate p)).toNat }

/-- The areas of two units overlap (R379). -/
def State.areasMeet (s : State) (u v : Nat) : Bool :=
  let b := fun x => s.fld (cuKey x 7) 31 16
  let e := fun x => s.fld (cuKey x 7) 31 16 + (s.word (cuKey x 6)).toNat
  decide (b u < e v) && decide (b v < e u)

/-- Whether a unit's configuration may be armed (R379 to R382, R388). -/
def State.cuArmable (s : State) (u : Nat) : Bool :=
  let src := s.fld (cuKey u 1) 31 29
  let size := (s.word (cuKey u 6)).toNat
  let seg := (s.word (cuKey u 5)).toNat
  let masks := (List.range 8).filter fun j => hasBit (s.fld (cuKey u 1) 23 16) j
  let mkind := fun j => s.fld (tkey (0x90C2 + 0x100 * u) j 0) 31 30
  let sigs := (List.range 256).map fun i => s.word (tkey (0x90C1 + 0x100 * u) i 0)
  (src == 1 || src == 2) && s.fld (cuKey u 2) 31 28 ≤ 7 &&
    decide (1 ≤ size) && decide (s.fld (cuKey u 7) 31 16 + size ≤ 32768) &&
    decide (4096 ≤ seg) && seg % 4096 == 0 && decide (seg * s.cuSegs u ≤ size * 65536) &&
    (src != 1 || decide ((s.word (P.trkHeadPos (s.fld (cuKey u 1) 28 25))).toNat < 2)) &&
    masks.all (fun j => mkind j == src) && sigs.all (fun w => fieldOf w 31 29 ≤ 5) &&
    ((List.range 4).all fun v => v == u || !s.cuActive v || !s.areasMeet u v) &&
    !(s.sys.mode == .replay && (src == 1 || sigs.any fun w => fieldOf w 31 29 == 1 && fieldOf w 28 28 == 0))

/-- The modes in which capture is allowed (R380). -/
def Mode.captures : Mode → Bool
  | .hold | .listen | .commission | .standalone | .lead | .trail | .resync | .service | .replay => true
  | _ => false

/-! ### Gauge records and snapshots (R391 to R396) -/

/-- A record of the current tick (R393), kept until the tick's records are written. -/
def State.gaugeRec (s : State) (rtype len : Nat) (pm : List (Nat × Byte)) (words : List (Nat × U32)) (data : List Byte) :
    State :=
  if s.gauge.recording then
    { s with gauge := { s.gauge with now := s.gauge.now ++ [⟨s.time.tick, rtype, len, pm, words, data⟩] } }
  else s

/-- The bytes that a record takes in the ring: its header and its payload, padded to 16 bytes (R392). -/
def GRec.size (r : GRec) : Nat := 16 + (r.len + 15) / 16 * 16

/-- Records in the order of R393. -/
def recOrder : List GRec → List GRec
  | l => (List.range 16).flatMap fun t => l.filter (·.rtype == t)

/-- The records of a finished tick are written into the ring in the order of R393; when they could not be written in time
they are lost, and a GAP record stands for them (R395). -/
def State.gaugeTick (s : State) (lost : Bool) : State :=
  let rs := recOrder s.gauge.now
  if rs.isEmpty then s
  else if lost then
    let bytes := (rs.map GRec.size).foldl (· + ·) 0
    let g : GRec := ⟨(rs.head?.map (·.tick)).getD 0, 0x0E, 12, [], [], leBytes 4 1 ++ leBytes 8 bytes⟩
    let s := { s with gauge.now := [], gauge.ring := s.gauge.ring ++ [(s.gauge.rseq, g)], gauge.rseq := s.gauge.rseq + 1 }
    (s.inc P.gaugeGapCnt).setBit P.gaugeStatus 3 true
  else
    { s with
      gauge.now := []
      gauge.ring := s.gauge.ring ++ rs.zipIdx.map fun x => (s.gauge.rseq + x.2, x.1)
      gauge.rseq := s.gauge.rseq + rs.length }

/-- Recording starts (R391): an empty ring. -/
def State.gaugeStart (s : State) : State :=
  if s.gauge.recording then s
  else
    let bytes := ((s.prog.package.map (·.dramBytes)).getD 0) + 16 * 1048576
    let mib := min 1088 ((bytes + 67108863) / 67108864 * 64)
    let g := { s.gauge with recording := true, rseq := 0, now := [], ring := [], snaps := [], snapBusy := false }
    (({ s with gauge := g }).setBit P.gaugeStatus 7 true).setWord P.gaugeBaseMib (w32 mib)

/-- Recording stops (R391); a window that waits for its end ends here (R397). -/
def State.gaugeStop (s : State) : State :=
  if !s.gauge.recording then s
  else
    let cut (m : GMark) : GMark := { m with stop := min m.stop s.time.tick }
    let g := { s.gauge with recording := false, copying := s.gauge.copying.map cut, waiting := s.gauge.waiting.map cut }
    ({ s with gauge := g }).setBit P.gaugeStatus 7 false

/-- The ring is lost (R391): at any reset of the core die. -/
def State.gaugeLose (s : State) : State :=
  let s := s.gaugeStop
  let s := match s.gauge.copying with
    | some m => s.clearEntry 0xA0C0 m.slot 16
    | none => s
  let g := { s.gauge with now := [], ring := [], snaps := [], snapBusy := false, copying := none, waiting := none }
  ({ s with gauge := g }).setFld P.gaugeStatus 6 4 0

/-! ### Marks (R397 to R399) -/

abbrev winKey (slot w : Nat) : Nat := tkey 0xA0C0 slot w

/-- The slot of a new window (R398): a free one, else the oldest unprotected one that is not being written. (DEDUCED, log entry 91) -/
def State.windowSlot (s : State) : Option Nat :=
  let busy (i : Nat) : Bool := (s.gauge.copying.map (·.slot)) == some i || (s.gauge.waiting.map (·.slot)) == some i
  match (List.range 8).find? fun i => !s.bit (winKey i 0) 31 && !busy i with
  | some i => some i
  | none =>
    ((List.range 8).filter fun i => !s.bit (winKey i 0) 30 && !busy i).foldl (fun b i => match b with
      | none => some i
      | some j => if s.get64 (winKey i 14) < s.get64 (winKey j 14) then some i else b) none

/-- A copy begins: the slot shows it (R399). -/
def State.startCopy (s : State) (m : GMark) : State :=
  let s := s.clearEntry 0xA0C0 m.slot 16
  let g := { s.gauge with copying := some m, windows := s.gauge.windows.filter (·.1 != m.slot) }
  let s := ({ s with gauge := g }).setBit (winKey m.slot 0) 29 true
  let s := (s.set64 (winKey m.slot 14) m.trig).setWord (winKey m.slot 8) (withField (withField 0 31 24 m.cause) 23 16 m.mode)
  s.setBit P.gaugeStatus 6 true

/-- A window marked (R397, R398): copied at once, or waiting for the copy in progress; `none` when it is refused. -/
def State.gaugeMark (s : State) (cause : Nat) : State × Option Nat :=
  let refuse := ((s.setBit P.gaugeStatus 2 true).ev 0 "GAUGE_MARK_REFUSED" [cause], none)
  if s.gauge.snaps.isEmpty then refuse
  else match s.windowSlot with
  | none => refuse
  | some slot =>
    let stop := s.time.tick + (s.word P.gaugePostS).toNat * 8000
    let m : GMark := ⟨slot, cause, s.time.tick, if s.gauge.recording then stop else s.time.tick, s.sys.mode.num⟩
    if s.gauge.copying.isNone then (s.startCopy m, some slot)
    else if s.gauge.waiting.isNone then
      (({ s with gauge.waiting := some m }).setBit P.gaugeStatus 5 true, some slot)
    else refuse

/-- An automatic mark for a cause enabled in `GAUGE_TRIG` (R397). (DEDUCED, log entry 91) -/
def State.gaugeAuto (s : State) (cause : Nat) : State :=
  if hasBit (s.word P.gaugeTrig).toNat cause && !s.gauge.snaps.isEmpty then (s.gaugeMark cause).1 else s

end Sys2Proof.Machine
end

