-- ==== Sys2Proof/Machine/Acq.lean ====
section
/-!
DEFINITION. The meanings of the acquisition commands (file 13, R378 to R390).
-/

namespace Sys2Proof.Machine

/-- ACQ_ARM (R379 to R382, R388): a unit that may not be armed is refused. -/
def execAcqArm (rq : Rq) (unit : Fin 4) (s : State) : Res :=
  .next <| s.cmd rq 0x0900 [0, 1] true s.sys.mode.captures fun s =>
    if s.cuActive unit || !s.cuArmable unit then s.respond rq 0x0900 St.refused 0 []
    else
      let s := s.setFld (cuKey unit 0) 16 0 0
      let s := { s with acq.segs := s.acq.segs.filter (·.unit != unit.val) }
      let s := (s.setCu unit 1 0).modCu unit fun _ => CuS.fresh
      let s := if s.fld (cuKey unit 2) 31 28 = 7 then s.startSeg unit s.plant else s
      s.respond rq 0x0900 St.ok 0 (leBytes 8 s.time.tick)

/-- ACQ_STOP (R382, R383): `d` is what the open segment holds. -/
def execAcqStop (rq : Rq) (unit : Fin 4) (d : SegData) (s : State) : Res :=
  .next <| s.cmd rq 0x0901 [0, 1] true true fun s => (s.cuStop unit 1 d).respond rq 0x0901 St.ok 0 []

/-- A trigger at plant time t for a unit that is armed (R382, R383): it starts a segment, is counted when it falls within the
dead time, and is no event within an open segment. -/
def State.trigger (s : State) (u t : Nat) (dead : Bool) : State :=
  if !s.cuActive u || (s.cu u).inSeg then s
  else if dead then s.modCu u fun c => { c with missed := satNat 32 (c.missed + 1) }
  else s.startSeg u t

/-- CAPTURE_TRIGGER (R382, R383): the unit's trigger at plant time `t`; `dead`: within the dead time. -/
def execCaptureTrigger (unit : Fin 4) (t : Nat) (dead : Bool) (s : State) : Res := .next <| s.trigger unit t dead

/-- ACQ_TRIGGER (R380, R382): the units of the mask with `TRIG` 0x0. -/
def execAcqTrigger (rq : Rq) (mask : Fin 16) (s : State) : Res :=
  .next <| s.cmd rq 0x0902 [0, 1] true s.sys.mode.captures fun s =>
    let t := s.plant
    let s := s.each (List.range 4) fun s u =>
      if hasBit mask.val u && s.fld (cuKey u 2) 31 28 == 0 then s.trigger u t false else s
    s.respond rq 0x0902 St.ok 0 (leBytes 8 t)

/-- SEGMENT_CLOSE (R381, R383): a full segment; the unit stops when every segment is filled and it does not reuse them, and
with `TRIG` 0x7 the next starts as it is armed. -/
def execSegmentClose (unit : Fin 4) (d : SegData) (s : State) : Res :=
  .next <|
    if !(s.cu unit).inSeg then s
    else
      let s := s.closeSeg unit none false d
      if !s.bit (cuKey unit 2) 25 && decide (s.cuSegs unit ≤ s.fld (cuKey unit 0) 16 0) then s.setCu unit 3 2
      else if s.fld (cuKey unit 2) 31 28 = 7 then s.startSeg unit (d.firstTime + d.count * 10)
      else s

/-- CAPTURE_OVERRUN (R379). -/
def execCaptureOverrun (unit : Fin 4) (d : SegData) (s : State) : Res := .next <| s.cuStop unit 5 d

/-- MASK_VIOLATION (R390): mask j failed at sample or record `idx` of the open segment, which fills (`d`) and closes with
`VIOL`. `others` is what the open segments of the other units hold, should `STOP_ALL` stop them. -/
def execMaskViolation (unit : Fin 4) (mask : Fin 8) (idx : Nat) (d : SegData) (others : List SegData) (s : State) : Res :=
  .next <|
    if !(s.cu unit).inSeg || !hasBit (s.fld (cuKey unit 1) 23 16) mask.val then s
    else
      let s := ((s.closeSeg unit (some (mask, idx)) false d).setCu unit 3 3).inc P.acqViolCnt
      let s := if s.bit (cuKey unit 2) 26 then
          s.each (List.range 4) fun s v =>
            if v != unit.val && s.cuState v == 2 then s.cuStop v 4 (others.getD v ⟨0, 0, 0, false, false, 0, []⟩) else s
        else s
      let s := if s.bit (cuKey unit 2) 27 then s.gaugeAuto 5 else s
      s.ev 0 "MASK_VIOLATION" [unit, mask, idx]

/-- ACQ_EXPORT (R390): completed segments that the unit still holds, copied with their headers to NAND, where the exports
have 6 GiB. (DEDUCED, log entry 23) -/
def execAcqExport (rq : Rq) (unit : Fin 4) (first : U32) (count : U16) (s : State) : Res :=
  .next <| s.cmd rq 0x0903 [0, 1] true true fun s =>
    let held := (List.range count.toNat).all fun i =>
      s.acq.segs.any fun g => g.unit == unit.val && g.no == first.toNat + i
    let size := count.toNat * (s.word (cuKey unit 5)).toNat
    let used := (s.acq.exports.map (·.2.2.2)).foldl (· + ·) 0
    if s.acq.segs.length < count.toNat || !held then s.respond rq 0x0903 St.outOfRange 0 []
    else if 6 * 2 ^ 30 < used + size then s.respond rq 0x0903 St.refused 0 []
    else s.bg rq 0x0903 [] fun s =>
      let s := { s with acq.exports := s.acq.exports ++ [(unit.val, first.toNat, count.toNat, size)] }
      s.respond rq 0x0903 St.ok 0 (leBytes 4 size)

end Sys2Proof.Machine
end

