-- ==== Sys2Proof/Machine/Float.lean ====
section
/-!
DEFINITION. IEEE 754 binary32 as R232 fixes it: round to nearest, ties to even, every operation rounded on its own, no
fused operation, subnormal values kept, a correctly rounded square root. The payload of a NaN result is left free.
-/

namespace Sys2Proof.Machine

abbrev F32 := U32

def F32.neg (a : F32) : F32 := a ^^^ 0x80000000#32
def F32.sign (a : F32) : Bool := a.getLsbD 31
def F32.expo (a : F32) : Nat := fieldOf a 30 23
def F32.mant (a : F32) : Nat := fieldOf a 22 0
def F32.isNan (a : F32) : Bool := F32.expo a == 255 && F32.mant a != 0
def F32.isInf (a : F32) : Bool := F32.expo a == 255 && F32.mant a == 0
def F32.finite (a : F32) : Bool := F32.expo a != 255
def F32.isZero (a : F32) : Bool := F32.expo a == 0 && F32.mant a == 0

/-- The NaN that an invalid operation answers; its payload is free. -/
def F32.nan : F32 := 0x7FC00000#32 ||| (Config.nanPayload &&& 0x803FFFFF#32)

def F32.inf (sgn : Bool) : F32 := if sgn then 0xFF800000#32 else 0x7F800000#32
def F32.zero (sgn : Bool) : F32 := if sgn then 0x80000000#32 else 0#32

/-- The significand of a finite value; the value is significand × 2 ^ exponent. -/
def F32.sig (a : F32) : Nat := if F32.expo a = 0 then F32.mant a else F32.mant a + 2 ^ 23
def F32.ex (a : F32) : Int := if F32.expo a = 0 then -149 else (F32.expo a : Int) - 150

/-- The binary32 value nearest to m × 2 ^ e (a little more than that when `sticky`), ties to even. -/
def F32.round (sgn : Bool) (m : Nat) (e : Int) (sticky : Bool) : F32 :=
  if m = 0 then F32.zero sgn
  else
    let shift : Int := max ((m.log2 : Int) - 23) (-149 - e)
    let e' : Int := e + shift
    let q : Nat :=
      if shift ≤ 0 then m * 2 ^ (-shift).toNat
      else
        let k := shift.toNat
        let q0 := m / 2 ^ k
        let r := m % 2 ^ k
        let h := 2 ^ (k - 1)
        if h < r ∨ (r = h ∧ (sticky ∨ q0 % 2 = 1)) then q0 + 1 else q0
    -- the packed word counts on from the exponent field, so a carry out of the significand raises the exponent
    let packed : Nat := (e' + 149).toNat * 2 ^ 23 + q
    if 0x7F800000 ≤ packed then F32.inf sgn
    else w32 packed ||| F32.zero sgn

/-- The signed integer of a finite value at exponent `e`, which is at most its own. -/
def F32.at (a : F32) (e : Int) : Int :=
  let n : Int := (F32.sig a * 2 ^ (F32.ex a - e).toNat : Nat)
  if F32.sign a then -n else n

def F32.add (a b : F32) : F32 :=
  if F32.isNan a || F32.isNan b then F32.nan
  else if F32.isInf a then (if F32.isInf b && (F32.sign a != F32.sign b) then F32.nan else a)
  else if F32.isInf b then b
  else
    let e := min (F32.ex a) (F32.ex b)
    let n := F32.at a e + F32.at b e
    if n = 0 then F32.zero (F32.sign a && F32.sign b) else F32.round (decide (n < 0)) n.natAbs e false

def F32.sub (a b : F32) : F32 := F32.add a (F32.neg b)

def F32.mul (a b : F32) : F32 :=
  let sgn := F32.sign a != F32.sign b
  if F32.isNan a || F32.isNan b then F32.nan
  else if F32.isInf a || F32.isInf b then (if F32.isZero a || F32.isZero b then F32.nan else F32.inf sgn)
  else F32.round sgn (F32.sig a * F32.sig b) (F32.ex a + F32.ex b) false

def F32.div (a b : F32) : F32 :=
  let sgn := F32.sign a != F32.sign b
  if F32.isNan a || F32.isNan b then F32.nan
  else if F32.isInf a then (if F32.isInf b then F32.nan else F32.inf sgn)
  else if F32.isInf b then F32.zero sgn
  else if F32.isZero b then (if F32.isZero a then F32.nan else F32.inf sgn)
  else
    let n := F32.sig a * 2 ^ 60
    F32.round sgn (n / F32.sig b) (F32.ex a - F32.ex b - 60) (n % F32.sig b != 0)

/-- The integer square root, bit by bit from bit `k` down. -/
def isqrtFrom : Nat → Nat → Nat → Nat
  | 0, _, r => r
  | k + 1, n, r => let t := r + 2 ^ k
                   if t * t ≤ n then isqrtFrom k n t else isqrtFrom k n r

def isqrt (n : Nat) : Nat := isqrtFrom (n.log2 / 2 + 1) n 0

def F32.sqrt (a : F32) : F32 :=
  if F32.isNan a then F32.nan
  else if F32.isZero a then a
  else if F32.sign a then F32.nan
  else if F32.isInf a then a
  else
    -- an even exponent and at least 30 bits of root
    let e := F32.ex a - 80
    let k : Nat := if e % 2 = 0 then 80 else 81
    let n := F32.sig a * 2 ^ k
    let r := isqrt n
    F32.round false r ((F32.ex a - k) / 2) (r * r != n)

/-- a < b; false when either is a NaN. -/
def F32.lt (a b : F32) : Bool :=
  if F32.isNan a || F32.isNan b then false
  else if F32.isZero a && F32.isZero b then false
  else if F32.sign a && !F32.sign b then true
  else if !F32.sign a && F32.sign b then false
  else if F32.sign a then decide (b.toNat < a.toNat) else decide (a.toNat < b.toNat)

def F32.eq (a b : F32) : Bool :=
  !F32.isNan a && !F32.isNan b && (a == b || (F32.isZero a && F32.isZero b))

def F32.le (a b : F32) : Bool := F32.lt a b || F32.eq a b
def F32.min (a b : F32) : F32 := if F32.lt b a then b else a
def F32.max (a b : F32) : F32 := if F32.lt a b then b else a
def F32.abs (a : F32) : F32 := a &&& 0x7FFFFFFF#32

/-- An integer converted exactly or rounded (R233). -/
def F32.ofInt (i : Int) : F32 := F32.round (decide (i < 0)) i.natAbs 0 false

end Sys2Proof.Machine
end

