-- ==== Sys2Proof/Machine/FioOps.lean ====
section
/-!
DEFINITION. The shared operations of the local field I/O (file 12, and R270 to R276 of file 09): status bits, the filter, the
groups, the snapshot, the agreement of local inputs, and the Emit.
-/

namespace Sys2Proof.Machine

abbrev dioKey (c : Nat) : Nat := tkey 0x80C0 c 0
abbrev clKey (k w : Nat) : Nat := tkey 0x80C1 k w
abbrev grpKey (g w : Nat) : Nat := tkey 0x80C2 g w
abbrev chKey (c w : Nat) : Nat := tkey 0x80C3 c w
abbrev plKey (c w : Nat) : Nat := tkey 0x60C0 c w

def State.dio (s : State) (c : Nat) : DioS := s.fio.dio.getD c DioS.fresh
def State.modDio (s : State) (c : Nat) (f : DioS → DioS) : State := { s with fio.dio := s.fio.dio.modify c f }
def State.cl (s : State) (k : Nat) : ClS := s.fio.cl.getD k ClS.fresh
def State.modCl (s : State) (k : Nat) (f : ClS → ClS) : State := { s with fio.cl := s.fio.cl.modify k f }

/-- `MODE` of a digital and of a current channel (R372, R373). -/
def State.dioMode (s : State) (c : Nat) : Nat := s.fld (dioKey c) 31 30
def State.clMode (s : State) (k : Nat) : Nat := s.fld (clKey k 0) 31 29
def State.clSource (s : State) (k : Nat) : Bool := s.clMode k == 1 || s.clMode k == 2
def State.clMeasure (s : State) (k : Nat) : Bool := s.clMode k == 3 || s.clMode k == 4

/-- The group of a channel of `FIO_CH_STAT`: FG0 to FG3 are 0 to 3, CG0 and CG1 are 4 and 5 (R374, R375). -/
def groupOf (c : Nat) : Nat := c / 4

/-- The field die of a group: each die carries two digital groups and one current group. -/
def groupDie (g : Nat) : Nat := if g < 4 then 2 + g / 2 else 2 + (g - 4)

/-- The region of the die half that holds a group: FH0 to FH3 are regions 8 to 11 (R418). -/
def groupRegion (g : Nat) : Nat := if g < 4 then 8 + g / 2 * 2 else 9 + (g - 4) * 2
def State.groupUp (s : State) (g : Nat) : Bool := hasBit s.sys.diesUp (groupDie g) && !hasBit s.sys.sluices (groupRegion g)

/-- `SAG` (R355). -/
def State.sag (s : State) (g : Nat) : Nat := s.fld (grpKey g 0) 27 26

/-- A group's inputs are valid, and its outputs may follow their commands (R355, R357, R358). -/
def State.groupValid (s : State) (g : Nat) : Bool := s.groupUp g && decide (s.sag g ≤ 1)
def State.groupDrives (s : State) (g : Nat) : Bool :=
  s.groupValid g && !s.bit (grpKey g 0) 25 && !s.bit (grpKey g 0) 24

/-- `CH_FAULT` of a group, and of `FIO_STATUS` (R374, R377). -/
def State.faultSums (s : State) (g : Nat) : State :=
  let bits := (List.range 4).foldl (fun m j => m + if s.fld (chKey (4 * g + j) 0) 31 25 != 0 then 2 ^ j else 0) 0
  let s := s.setFld (grpKey g 0) 15 12 bits
  s.setBit P.fioStatus 0 ((List.range 6).any fun h => s.fld (grpKey h 0) 15 12 != 0)

/-- A fault bit of `FIO_CH_STAT`, with its count of entries (R375). -/
def State.chFault (s : State) (c b : Nat) (v : Bool) : State :=
  if s.bit (chKey c 0) b == v then s
  else
    let s := (s.setBit (chKey c 0) b v).when v fun s => s.incFld (chKey c 0) 15 0
    s.faultSums (groupOf c)

/-- The outputs of a group switched off by hardware (R355, R358). -/
def State.groupOutputsOff (s : State) (g : Nat) : State :=
  if g < 4 then s.each (List.range 4) fun s j => s.modDio (4 * g + j) fun d => { d with on := false }
  else s.each (List.range 4) fun s j => s.modCl (4 * (g - 4) + j) fun c => { c with drive := 0 }

/-- Every local output de-energised (R350). -/
def State.outputsOff (s : State) : State :=
  (s.each (List.range 6) fun s g => s.groupOutputsOff g).setBit P.fioStatus 3 false

/-- The channels of a group wait to be reloaded (R346, R366). (DEDUCED, log entry 21) -/
def State.groupReload (s : State) (g : Nat) : State :=
  if g < 4 then s.each (List.range 4) fun s j => s.modDio (4 * g + j) fun d => { d with reload := true }
  else s.each (List.range 4) fun s j => s.modCl (4 * (g - 4) + j) fun c => { c with reload := true }

/-- A group's sag state, with its bits in `FIO_STATUS` (R355, R377). -/
def State.setSag (s : State) (g st : Nat) : State :=
  let s := s.setFld (grpKey g 0) 27 26 st
  (s.setBit P.fioStatus (10 + g) (decide (2 ≤ st))).setBit P.fioStatus (4 + g) (st == 1)

/-- The supplies of the groups as a snapshot takes them, in 10 mV (R374). (DEDUCED, log entry 99) -/
def State.supplies (s : State) (volts : List U16) : State :=
  s.each volts.zipIdx fun s x =>
    if decide (x.2 < 6) && s.groupUp x.2 then
      (s.setFld (grpKey x.2 1) 15 0 x.1.toNat).setFld (grpKey x.2 1) 31 16 (min (s.fld (grpKey x.2 1) 31 16) x.1.toNat)
    else s

/-- The start of a group at the release of its die half (R356): RECOVERING at 15 V or above, else OFF; no event. -/
def State.groupStart (s : State) (g volts : Nat) : State :=
  let s := (s.setSag g (if 1500 ≤ volts then 3 else 2)).setBit (grpKey g 0) 24 false
  (s.groupOutputsOff g).groupReload g

/-- The latches that a reset of a die half clears (R348, R358). -/
def State.groupReset (s : State) (g : Nat) : State :=
  let s := (s.setBit (grpKey g 0) 24 false).groupOutputsOff g
  let s := s.each (List.range 4) fun s j => ((s.chFault (4 * g + j) 31 false).chFault (4 * g + j) 30 false)
  s.groupReload g

/-! ### The filter (R343 to R346) -/

/-- One sample of a digital input. (DEDUCED, log entry 21) -/
def DioS.sample (d : DioS) (ceil : Nat) (raw : Bool) (t : Nat) : DioS :=
  if d.reload then { d with c := if raw then ceil else 0, f := raw, reload := false, leftLow := t, leftHigh := t }
  else
    let d := if raw && d.c == 0 then { d with leftLow := t } else d
    let d := if !raw && d.c == ceil then { d with leftHigh := t } else d
    let d := { d with c := if raw then min (d.c + 1) ceil else d.c - 1 }
    if d.c = ceil ∧ d.f = false then
      { d with f := true, decided := t, first := d.leftLow, dir := true, edges := d.edges + 1 }
    else if d.c = 0 ∧ d.f = true then
      { d with f := false, decided := t, first := d.leftHigh, dir := false, edges := d.edges + 1 }
    else d

/-! ### Measured currents (R366, R367) -/

/-- 0.000125 as the nearest binary32. -/
def dt32 : F32 := 0x3903126F#32

/-- α of R366 for `DAMP`. -/
def dampAlpha (damp : Nat) : F32 :=
  let tau := F32.div (F32.ofInt damp) (F32.ofInt 1000)
  F32.div dt32 (F32.add tau dt32)

/-- Whether x is out of range by R367: above 24.0 mA, or below 3.6 mA for 8 ticks with `LIVE_ZERO`. -/
def State.clOver (x : F32) : Bool := F32.lt (F32.ofInt 24) x
def mA3_6 : F32 := 0x40666666#32

/-- The average x of a tick of one measuring channel (R366, R367). -/
def State.measure (s : State) (k : Nat) (x : F32) : State :=
  if !s.clMeasure k then s
  else
    let g := 4 + k / 4
    let c := s.cl k
    let run := if F32.lt x mA3_6 then c.lowRun + 1 else 0
    let low := s.bit (clKey k 0) 28 && decide (8 ≤ run) && s.bit (chKey (16 + k) 0) 26
    let hart := s.bit (clKey k 0) 26
    let bad := !s.groupValid g || State.clOver x
    let range := bad || low
    let s := s.modCl k fun c => { c with lowRun := run }
    let s := s.chFault (16 + k) 26 range
    if range || hart then s.modCl k fun c => { c with valid := false, reload := true }
    else
      let y := if c.reload then x else F32.add c.y (F32.mul (dampAlpha (s.fld (clKey k 0) 14 0)) (F32.sub x c.y))
      (s.modCl k fun c => { c with y := y, valid := true, reload := false }).setWord (chKey (16 + k) 1) y

/-! ### Snapshots and their agreement (R270 to R273, R345, R359) -/

/-- The local snapshot at 110 µs (R270). -/
def State.localSnap (s : State) : Snap :=
  { dio := (List.range 16).map fun c =>
      let d := s.dio c
      ⟨d.f, s.dioMode c == 1 && s.groupValid (c / 4), d.edges, d.decided, d.first, d.dir⟩
    cl := (List.range 8).map fun k =>
      ⟨(s.cl k).y, s.clMeasure k && (s.cl k).valid && s.groupValid (4 + k / 4), s.bit (chKey (16 + k) 0) 28⟩
    sag := (List.range 6).map fun g => s.sag g }

def DioSnap.none : DioSnap := ⟨false, false, 0, 0, 0, false⟩
def ClSnap.none : ClSnap := ⟨0, false, false⟩

/-- Which sources a rule admits (R271): the own one and the partner's, by the carrier position and by who leads. -/
def State.admits (s : State) (rule : Nat) (own : Bool) : Bool :=
  let isA : Bool := s.sys.posB != own
  match rule with
  | 0 => false
  | 7 => isA
  | 8 => !isA
  | _ => true

/-- The module whose value `LEAD` takes when both are valid (R271). -/
def State.ownLeads (s : State) : Bool := s.sys.mode != .trail

/-- One digital channel agreed (R271, R272). `prev` is the agreed channel as published before, its `edges` the total count. -/
def State.agreeDio (s : State) (c : Nat) (prev own : DioSnap) (partner : Option DioSnap) : DioSnap :=
  let rule := s.fld (plKey c 0) 31 28
  let a := own.valid && (s.admits rule true || partner.isNone)
  let pv := partner.getD DioSnap.none
  let b := pv.valid && s.admits rule false && partner.isSome
  let take (x : DioSnap) : DioSnap :=
    { x with valid := true, edges := prev.edges + x.edges,
             decided := if x.edges = 0 then prev.decided else x.decided,
             first := if x.edges = 0 then prev.first else x.first,
             dir := if x.edges = 0 then prev.dir else x.dir }
  if s.dioMode c != 1 then { prev with state := false, valid := false }
  else if a && b then
    match rule with
    | 1 | 2 =>
      let v := if rule = 1 then own.state || pv.state else own.state && pv.state
      if v == prev.state then { prev with valid := true }
      else
        let oc := decide (0 < own.edges) && own.state == v
        let pc := decide (0 < pv.edges) && pv.state == v
        let e := if oc && pc then (if pv.decided < own.decided then pv else own) else if pc then pv else own
        ⟨v, true, prev.edges + 1, e.decided, e.first, e.dir⟩
    | _ => take (if s.ownLeads then own else pv)
  else if a then take own
  else if b then take pv
  else
    let sub := if s.bit (dioKey c) 29 then prev.state else s.bit (dioKey c) 28
    { prev with state := sub, valid := false }

/-- One current channel agreed (R271). -/
def State.agreeCl (s : State) (k : Nat) (prev own : ClSnap) (partner : Option ClSnap) : ClSnap :=
  let rule := s.fld (plKey (16 + k) 0) 31 28
  let pv := partner.getD ClSnap.none
  let a := own.valid && (s.admits rule true || partner.isNone)
  let b := pv.valid && s.admits rule false && partner.isSome
  let comp := own.compliance || (partner.isSome && pv.compliance)
  let va := if s.sys.posB then pv.value else own.value
  let vb := if s.sys.posB then own.value else pv.value
  if !s.clMeasure k then ⟨0, false, comp⟩
  else if a && b then
    let v := match rule with
      | 4 => F32.min va vb
      | 5 => F32.max va vb
      | 6 => F32.mul (F32.add va vb) 0x3F000000#32
      | _ => if s.ownLeads then own.value else pv.value
    ⟨v, true, comp⟩
  else if a then ⟨own.value, true, comp⟩
  else if b then ⟨pv.value, true, comp⟩
  else ⟨if s.bit (clKey k 0) 27 then prev.value else s.word (clKey k 3), false, comp⟩

/-- The state of no snapshot agreed yet. -/
def Snap.empty : Snap := ⟨List.replicate 16 DioSnap.none, List.replicate 8 ClSnap.none, List.replicate 6 0⟩

/-- Whether the two sources of a channel differ (R273). -/
def State.sourcesDiffer (s : State) (c : Nat) (own p : Snap) : Option Bool :=
  let rule := s.fld (plKey c 0) 31 28
  if rule = 0 ∨ 7 ≤ rule then none
  else if c < 16 then
    let a := own.dio.getD c DioSnap.none
    let b := p.dio.getD c DioSnap.none
    if a.valid && b.valid then some (a.state != b.state) else none
  else
    let a := own.cl.getD (c - 16) ClSnap.none
    let b := p.cl.getD (c - 16) ClSnap.none
    if a.valid && b.valid then some (F32.lt (s.word (plKey c 1)) (F32.abs (F32.sub a.value b.value))) else none

/-- The runs of ticks with and without a difference of each channel (R273). -/
def State.countDiffers (s : State) (own p : Snap) : State :=
  let next (run other : List Nat) (want : Bool) : List Nat := (List.range 24).map fun c =>
    match s.sourcesDiffer c own p with
    | some d => if d == want then run.getD c 0 + 1 else 0
    | none => if want then 0 else other.getD c 0
  { s with pair.disagreeRun := next s.pair.disagreeRun [] true, pair.agreeRun := next s.pair.agreeRun s.pair.agreeRun false }

/-- `DISAGREE` clears after `PAIR_DISAGREE_TICKS` without a difference (R273). -/
def State.clearDisagree (s : State) : State :=
  s.each (List.range 24) fun s c =>
    if s.bit (plKey c 0) 25 && decide ((s.word P.pairDisagreeTicks).toNat ≤ s.pair.agreeRun.getD c 0) then
      s.setBit (plKey c 0) 25 false
    else s

/-- The local inputs agreed from both snapshots, or from the module's own alone (R270, R271). -/
def State.agreeLocal (s : State) (own : Snap) (partner : Option Snap) : State :=
  let prev := s.pair.agreedSnap.getD Snap.empty
  let dio := (List.range 16).map fun c => s.agreeDio c (prev.dio.getD c DioSnap.none) (own.dio.getD c DioSnap.none)
    (partner.map fun p => p.dio.getD c DioSnap.none)
  let cl := (List.range 8).map fun k => s.agreeCl k (prev.cl.getD k ClSnap.none) (own.cl.getD k ClSnap.none)
    (partner.map fun p => p.cl.getD k ClSnap.none)
  let s := { s with pair.agreedSnap := some ⟨dio, cl, own.sag⟩ }
  match partner with
  | some p => (s.countDiffers own p).clearDisagree
  | none => s

/-- The agreed local inputs as bytes of the local image (R176), by offset. -/
def State.localBytes (s : State) (a : Snap) : List (Nat × List Byte) :=
  let states := (List.range 16).foldl (fun m c => m + if (a.dio.getD c DioSnap.none).state then 2 ^ c else 0) 0
  let inv := (List.range 4).foldl (fun m g => m + if (List.range 4).any (fun j =>
    s.dioMode (4 * g + j) == 1 && !(a.dio.getD (4 * g + j) DioSnap.none).valid) then 2 ^ g else 0) 0
  let comp := (List.range 8).foldl (fun m k => m + if (a.cl.getD k ClSnap.none).compliance then 2 ^ k else 0) 0
  [(0x000, leBytes 4 states), (0x004, leBytes 4 inv)] ++
    ((List.range 16).map fun c =>
      let d := a.dio.getD c DioSnap.none
      (0x040 + 32 * c, leBytes 8 d.decided ++ leBytes 8 d.first ++ leBytes 4 d.edges ++ leBytes 4 d.dir.toNat)) ++
    [(0x240, (List.range 8).flatMap fun k => leBytes 4 (a.cl.getD k ClSnap.none).value.toNat),
     (0x260, (List.range 8).map fun k =>
       if !s.clMeasure k then 0#8 else if (a.cl.getD k ClSnap.none).valid then 0x80#8 else 0x20#8),
     (0x268, leBytes 4 comp)]

/-! ### The Emit (R181, R274, R275, R348, R362) -/

/-- Whether this module drives a channel by its `OUT_PAIR` (R274, R275). -/
def State.ownDrives (s : State) (c : Nat) : Bool :=
  match s.fld (plKey c 0) 27 26 with
  | 1 => true
  | 2 => !s.sys.posB
  | 3 => s.sys.posB
  | _ => false

/-- The partner drives its share of a split current (R275): in TRAIL or LEAD, its current group not reported off. -/
def State.partnerShares (s : State) (k : Nat) : Bool :=
  (s.pair.partner == .trail || s.pair.partner == .lead) && !s.pair.partnerSole &&
    (match s.pair.snapPartner with
      | some p => decide (p.sag.getD (4 + k / 4) 0 < 2)
      | none => true)

/-- The limits of a sourced current (R361). -/
def clLow (mode : Nat) : F32 := if mode = 1 then mA3_6 else 0#32
def mA21 : F32 := 0x41A80000#32

/-- One digital output at an Emit, with its command. -/
def State.emitDio (s : State) (c : Nat) (cmd : Bool) : State :=
  if s.dioMode c != 2 then s
  else
    let latched := s.bit (chKey c 0) 31 || s.bit (chKey c 0) 30
    let s := if latched && !cmd then (s.chFault c 31 false).chFault c 30 false else s
    let on := cmd && !latched && s.ownDrives c && s.groupDrives (c / 4)
    let s := s.modDio c fun d => { d with on := on }
    (s.setWord (chKey c 1) (w32 on.toNat)).when (!cmd) fun s => s.chFault c 29 false

/-- One current output at an Emit, with its command in mA. -/
def State.emitCl (s : State) (k : Nat) (cmd : F32) : State :=
  if !s.clSource k then s
  else
    let lo := clLow (s.clMode k)
    let fin := F32.finite cmd
    let v := if F32.lt cmd lo then lo else if F32.lt mA21 cmd then mA21 else cmd
    let s := s.chFault (16 + k) 27 (!fin || F32.lt cmd lo || F32.lt mA21 cmd)
    let split := s.fld (plKey (16 + k) 0) 27 26 == 1
    let share := if split && s.partnerShares k then F32.mul v 0x3F000000#32 else v
    let drive := if !(s.ownDrives (16 + k) && s.groupDrives (4 + k / 4)) then 0#32
      else if fin then share else (s.cl k).drive
    (s.modCl k fun c => { c with drive := drive }).setWord (chKey (16 + k) 1) drive

/-- The Emit (R181): the commands of the last cut in a run mode; the manual settings in SERVICE (R351, R352); off otherwise. -/
def State.emit (s : State) : State :=
  if s.sys.mode.run then
    match s.prog.localCut with
    | some (w, cs) =>
      let s := s.each (List.range 16) fun s c => s.emitDio c (w.getLsbD c)
      (s.each (List.range 8) fun s k => s.emitCl k (cs.getD k 0)).setBit P.fioStatus 3 true
    | none => s
  else if s.sys.mode == .service then
    let s := s.each (List.range 16) fun s c => s.emitDio c (hasBit s.fio.manualDio c)
    s.each (List.range 8) fun s k =>
      match s.fio.manualCl.find? (·.1 == k) with
      | some (_, v) => s.emitCl k v
      | none => s
  else s.outputsOff

/-! ### HART (R371) -/

/-- A HART transaction replaced, or taken out. -/
def State.setHart (s : State) (h : HartS) (l : List HartS) : State :=
  { s with fio.hart := s.fio.hart.filter (·.chan != h.chan) ++ l }

/-- The transactions abandoned when their module withdraws, resets or leaves the modes of R371. (DEDUCED, log entry 22) -/
def State.hartAbandon (s : State) : State :=
  s.each s.fio.hart fun s h =>
    (s.setHart h []).respond h.rq (if h.scan then 0x0802 else 0x0803) St.aborted 0 []

end Sys2Proof.Machine
end

