-- ==== Sys2Proof/Machine/GuardOps.lean ====
section
/-!
DEFINITION. The access guards (file 18): regions, the check of an access, the fault record, arming, and the firmware regions.
-/

namespace Sys2Proof.Machine

/-! ### Regions (R503, R505) -/

abbrev curKey (n e w : Nat) : Nat := tkey (0xC0C0 + 0x100 * n) e w
abbrev shadowKey (n e w : Nat) : Nat := tkey (0xC0C1 + 0x100 * n) e w

/-- The regions of a guard: 32 of an issue guard, 16 of an arrival guard (R503), and how many of them are the firmware's (R506). -/
def guardRegions (n : Nat) : Nat := if n < 10 then 32 else 16
def fwRegions (n : Nat) : Nat := if n < 10 then 24 else 12

/-- A region, from its four words (R505). `last` is its last byte. -/
structure Region where
  base : Nat
  last : Nat
  attr : Nat
  enabled : Bool
  corrupt : Bool
  deriving DecidableEq, Repr

def regionOf (ws : List U32) : Region :=
  let w (i : Nat) : U32 := ws.getD i 0
  { base := fieldOf (w 1) 15 0 * 2 ^ 32 + fieldOf (w 0) 31 6 * 64
    last := fieldOf (w 3) 15 0 * 2 ^ 32 + fieldOf (w 2) 31 6 * 64 + 63
    attr := fieldOf (w 3) 27 16
    enabled := (w 3).getLsbD 31
    corrupt := (w 3).getLsbD 29 }

def State.curRegion (s : State) (n e : Nat) : Region := regionOf (s.entry (0xC0C0 + 0x100 * n) e 4)
def State.shadowRegion (s : State) (n e : Nat) : Region := regionOf (s.entry (0xC0C1 + 0x100 * n) e 4)

/-- An entry with an uncorrectable error is treated as enabled (R511). -/
def Region.active (r : Region) : Bool := r.enabled || r.corrupt

def Region.has (r : Region) (a : Nat) : Bool := r.active && decide (r.base ≤ a) && decide (a ≤ r.last)

/-- Two enabled regions share a byte (R512). -/
def Region.overlaps (a b : Region) : Bool :=
  a.enabled && b.enabled && decide (a.base ≤ b.last) && decide (b.base ≤ a.last)

/-- Whether a region grants a kind (0 read, 1 write, 2 fetch) at a privilege (0 FW, 1 RT, 2 SYS, 3 APP) (R505). -/
def Region.grants (r : Region) (priv kind : Nat) : Bool := !r.corrupt && hasBit r.attr (11 - 3 * priv - kind)

/-! ### The check (R509 to R511) -/

/-- What a guard finds at one byte: 0 admitted, else the cause of R518, with the region hit. -/
def State.byteCheck (s : State) (n a priv kind : Nat) : Nat × Nat :=
  let hits := (List.range (guardRegions n)).filter fun e => (s.curRegion n e).has a
  match hits with
  | [] => (1, 0xFF)
  | e :: rest =>
    if hits.any fun e => (s.curRegion n e).corrupt then (4, (hits.find? fun e => (s.curRegion n e).corrupt).getD e)
    else if rest ≠ [] then (3, e)
    else if (s.curRegion n e).grants priv kind then (0, e)
    else (2, e)

/-- The lowest forbidden byte of an access, with its cause and region; none when the guard admits it. (DEDUCED, log entry 50) -/
def State.guardCheck (s : State) (n addr len priv kind : Nat) : Option (Nat × Nat × Nat) :=
  (List.range len).findSome? fun i =>
    let c := s.byteCheck n (addr + i) priv kind
    if c.1 = 0 then none else some (addr + i, c)

/-- The arrival guard of an address (R504). -/
def arrivalGuard (a : Nat) : Option Nat :=
  if 0x40000000 ≤ a ∧ a < 0x41000000 then some 10
  else if 0x1000000000 ≤ a ∧ a < 0x1400000000 then some 11
  else if 0x44000000 ≤ a ∧ a < 0x48000000 then some 12
  else if (0x41000000 ≤ a ∧ a < 0x41021000) ∨ (0x41100000 ≤ a ∧ a < 0x41200000) then some 13
  else if 0x50000000 ≤ a ∧ a < 0x51000000 then some 14
  else if 0x51000000 ≤ a ∧ a < 0x52000000 then some 15
  else none

/-! ### The fault record (R518) -/

/-- A fault recorded: the first since cleared, and the latest. -/
def State.guardFault (s : State) (n : Nat) (ws : List U32) : State :=
  let s := if s.bit (P.guardFirst n 0) 31 then s else s.setWords (P.guardFirst n 0) ws
  s.setWords (P.guardLast n 0) ws

/-- The words of a fault record. -/
def State.guardWords (s : State) (n addr start cause priv kind beats region init : Nat) (straddle inFlight : Bool) : List U32 :=
  [0x80000000#32, lo32 addr, w32 (region * 2 ^ 24 + init * 2 ^ 20 + addr / 2 ^ 32 % 2 ^ 16),
    w32 (cause * 2 ^ 28 + priv * 2 ^ 26 + kind * 2 ^ 24 + (beats - 1) % 8 * 2 ^ 21 + straddle.toNat * 2 ^ 20 +
      inFlight.toNat * 2 ^ 19),
    lo32 start, s.word (P.guardGen n), lo32 s.evTick, hi32 s.evTick]

/-- A rule fault: region e of guard n, at its base (R512, R513). The Keeper writes the rules. (DEDUCED, log entry 50) -/
def State.ruleFault (s : State) (n e base : Nat) : State :=
  let s := s.guardFault n (s.guardWords n base base 5 0 1 1 e 8 false false)
  ((s.inc (P.guardRuleCnt n)).setBit (P.guardStatus n) 11 true).ev 5 "GUARD_RULE" [n, e]

/-! ### Arming (R513) -/

/-- The guard switches to its shadow table, unless that holds a corrupt entry. -/
def State.guardSwitch (s : State) (n : Nat) : State :=
  let s := s.setBit (P.guardStatus n) 15 false
  match (List.range (guardRegions n)).find? fun e => (s.shadowRegion n e).corrupt with
  | some e => s.ruleFault n e (s.shadowRegion n e).base
  | none =>
    let s := s.each (List.range (guardRegions n)) fun s e => s.setWords (curKey n e 0) (s.entry (0xC0C1 + 0x100 * n) e 4)
    (s.inc (P.guardGen n)).set64 (P.guardArmTickLo n) s.time.tick

/-! ### Firmware regions (R506, R507) -/

/-- An area of R507: its arrival guard, base and size, and what it grants at APP, SYS, RT and FW as R, W, X. -/
structure Area where
  guard : Nat
  base : Nat
  size : Nat
  app : Nat
  sys : Nat
  rt : Nat
  fw : Nat
  deriving DecidableEq, Repr

/-- The table of R507, in its order. -/
def areas : List Area :=
  [ ⟨10, 0x40000000, 0x40000, 4, 4, 6, 6⟩,
    ⟨10, 0x40040000, 0x40000, 6, 4, 6, 6⟩,
    ⟨10, 0x40080000, 0x400, 4, 4, 6, 6⟩,
    ⟨10, 0x40080400, 0x40, 6, 4, 6, 6⟩,
    ⟨10, 0x40080440, 0xBC0, 0, 0, 6, 6⟩,
    ⟨10, 0x40081000, 0x20000, 0, 6, 6, 6⟩,
    ⟨10, 0x400A1000, 0x1000, 4, 4, 6, 6⟩,
    ⟨10, 0x400A2000, 0x20000, 0, 6, 6, 6⟩,
    ⟨10, 0x40100000, 0xF00000, 6, 6, 6, 6⟩,
    ⟨13, 0x41000000, 0x4800, 6, 0, 6, 6⟩,
    ⟨13, 0x41008000, 0xA400, 4, 0, 6, 6⟩,
    ⟨13, 0x41020000, 0x1000, 0, 0, 4, 6⟩,
    ⟨11, 0x1000000000, 0x20000000, 1, 1, 6, 6⟩,
    ⟨11, 0x1020000000, 0x40000000, 6, 6, 6, 6⟩,
    ⟨12, 0x46000000, 0x480000, 0, 0, 0, 4⟩ ]

def Area.words (a : Area) : List U32 :=
  let last := a.base + a.size - 64
  [lo32 a.base, w32 (a.base / 2 ^ 32), lo32 last,
    w32 (0xC0000000 + (a.fw * 512 + a.rt * 64 + a.sys * 8 + a.app) * 2 ^ 16 + last / 2 ^ 32)]

/-- The areas that a guard holds regions for: all of R507 in the guards of the EPs, its own in an arrival guard. -/
def guardAreas (n : Nat) : List Area := if n < 4 then areas else areas.filter fun a => a.guard == n

/-- A further firmware region of the images: without rights at APP and SYS, and disabled where it is no region or would overlap
another (R505, R507, R512). -/
def imageWords (n e : Nat) (before : List Region) : List U32 :=
  let ws := [Config.guardRegion n e 0 &&& 0xFFFFFFC0#32, Config.guardRegion n e 1 &&& 0xFFFF#32,
    Config.guardRegion n e 2 &&& 0xFFFFFFC0#32, (Config.guardRegion n e 3 &&& 0x8FC0FFFF#32) ||| 0x40000000#32]
  let r := regionOf ws
  if r.last < r.base ∨ (before.any fun b => b.overlaps r) then [0, 0, 0, 0x40000000#32] else ws

/-- The firmware regions written into a guard's shadow table. (DESIGN CHOICE, log entry 49) -/
def State.fwShadow (s : State) (n : Nat) : State :=
  let as := guardAreas n
  let s := s.each (List.range (fwRegions n)) fun s e => s.setWords (shadowKey n e 0) [0, 0, 0, 0x40000000#32]
  let s := s.each as.zipIdx fun s x => s.setWords (shadowKey n x.2 0) x.1.words
  s.each ((List.range (fwRegions n)).drop as.length) fun s e =>
    s.setWords (shadowKey n e 0) (imageWords n e ((List.range (guardRegions n)).map (s.shadowRegion n)))

/-- The firmware regions written and every guard armed (R506, R508). (DEDUCED, log entry 50) -/
def State.guardLoad (s : State) : State :=
  (s.each (List.range 16) State.fwShadow).each (List.range 16) State.guardSwitch

/-- The readout of R517: `ENABLED`, `ISSUE` and `CORRUPT` follow from the tables. -/
def State.guardStatusWord (s : State) (n : Nat) : U32 :=
  let rs := (List.range (guardRegions n)).map (s.curRegion n)
  let w := withField (s.word (P.guardStatus n)) 23 16 (rs.filter (·.enabled)).length
  withField (withField w 14 14 (decide (n < 10)).toNat) 12 12 (rs.any (·.corrupt)).toNat

end Sys2Proof.Machine
end

