-- ==== Sys2Proof/Machine/Mem.lean ====
section
/-!
DEFINITION. The process memory and the loop-engine window as the program and the debugger reach them (R170 to R176, R242, R504).
-/

namespace Sys2Proof.Machine

/-! ### The process memory (R170 to R176) -/

abbrev inImage (p : Nat) : Nat := p * 0x4000
abbrev outImage (p : Nat) : Nat := 0x40000 + p * 0x4000
abbrev localImage : Nat := 0x80000
abbrev inboxSlot (i : Nat) : Nat := 0xA2000 + i * 0x1000
abbrev outboxSlot (i : Nat) : Nat := 0xB2000 + i * 0x1000

/-- The word index of address a and part k in a trunk image (R171). -/
abbrev partIdx (a k : Nat) : Nat := (a - 1) * 4 + k

/-- One byte of a table word seen as bytes. -/
def State.tableByte (s : State) (tid words off : Nat) : Byte :=
  BitVec.ofNat 8 ((s.word (tkey tid (off / (4 * words)) (off % (4 * words) / 4))).toNat / 256 ^ (off % 4))

/-- What an offset of the process memory reads as (R170): the trunk queues are tables 0x2nC6 and 0x2nC7, and a task block
begins with the task's entry of `PRG_TASK_STAT` (R185). -/
def State.pmView (s : State) (a : Nat) : Byte :=
  if 0x81000 ≤ a ∧ a < 0xA1000 then
    let p := (a - 0x81000) / 0x2000
    let off := (a - 0x81000) % 0x2000
    if off < 0x1400 then s.tableByte (0x20C6 + 0x100 * p) 20 off
    else if off < 0x1D00 then s.tableByte (0x20C7 + 0x100 * p) 36 (off - 0x1400)
    else 0
  else if 0xA1000 ≤ a ∧ a < 0xA2000 ∧ (a - 0xA1000) % 0x80 < 16 then
    s.tableByte 0x40C1 4 ((a - 0xA1000) / 0x80 * 16 + (a - 0xA1000) % 0x80)
  else s.pmByte a

/-- A program cell of the loop-engine window, by its word offset (R242). -/
def State.cell (s : State) (i : Nat) : U32 := Cmap.get (fun _ => 0#32) s.loop.cells i

/-- What an offset of the loop-engine window reads as (R242): cells, then the status tables. -/
def State.loopView (s : State) (a : Nat) : Byte :=
  let w : U32 :=
    if a < 0x8000 then s.cell (a / 4)
    else if a < 0x10000 then s.word (tkey 0x50C3 ((a - 0x8000) / 32) (a % 32 / 4))
    else if a < 0x12000 then s.word (tkey 0x50C4 ((a - 0x10000) / 32) (a % 32 / 4))
    else if a < 0x12400 then s.word (tkey 0x50C5 ((a - 0x12000) / 8) (a % 8 / 4))
    else 0
  BitVec.ofNat 8 (w.toNat / 256 ^ (a % 4))

/-- A byte written at a physical address (R504): the process memory stands at 0x4000_0000, the loop-engine window with its
program cells at 0x4100_0000. -/
def State.putMem (s : State) (a : Nat) (v : Byte) : State :=
  if 0x40000000 ≤ a ∧ a < 0x41000000 then s.setPmByte (a - 0x40000000) v
  else if 0x41000000 ≤ a ∧ a < 0x41020000 then
    let i := (a - 0x41000000) / 4
    if i < 0x1200 then
      let w := withField (s.cell i) (8 * (a % 4) + 7) (8 * (a % 4)) v.toNat
      { s with loop.cells := Cmap.put (fun _ => 0#32) s.loop.cells i w }
    else s
  else s.setDramByte a v

def State.memByte (s : State) (a : Nat) : Byte :=
  if 0x40000000 ≤ a ∧ a < 0x41000000 then s.pmView (a - 0x40000000)
  else if 0x41000000 ≤ a ∧ a < 0x41020000 then s.loopView (a - 0x41000000)
  else s.dramByte a

def State.putCells (s : State) (l : List (Nat × Byte)) : State := s.each l fun s x => s.putMem x.1 x.2

def State.memBytes (s : State) (a n : Nat) : List Byte := (List.range n).map fun i => s.memByte (a + i)

/-- An 8-byte word of the process memory, and its write under a mask. -/
def State.pm64 (s : State) (a : Nat) : U64 := BitVec.ofNat 64 (s.pmGet a 8)
def State.setPm64 (s : State) (a : Nat) (mask v : U64) : State :=
  s.pmPut a 8 ((s.pm64 a &&& ~~~mask) ||| (v &&& mask)).toNat

end Sys2Proof.Machine
end

