-- ==== Sys2Proof/Machine/Hash.lean ====
section
/-!
DEFINITION. The check values of the spec: CRC-32C (R97) and SHAKE256, the Keccak sponge that R464, R471 and other rules
hash with.
-/

namespace Sys2Proof.Machine

/-- One bit step of the reflected CRC with generator 0x1EDC_6F41 (R97). -/
def crcBit (c : U32) : U32 := if c.getLsbD 0 then (c >>> 1) ^^^ 0x82F63B78#32 else c >>> 1

def crcByte (c : U32) (b : Byte) : U32 :=
  let x := c ^^^ b.setWidth 32
  crcBit (crcBit (crcBit (crcBit (crcBit (crcBit (crcBit (crcBit x)))))))

/-- CRC-32C of a byte string: initial value and final exclusive-or 0xFFFF_FFFF (R97). (PRESUMED, log entry 10) -/
def crc32c (bs : List Byte) : U32 := (bs.foldl crcByte 0xFFFFFFFF#32) ^^^ 0xFFFFFFFF#32

/-- Big-endian bytes of a number, as fields go on the trunk wire (R95). -/
def beBytes (n v : Nat) : List Byte := (leBytes n v).reverse

/-- The number that big-endian bytes spell (R95). -/
def ofBe (bs : List Byte) : Nat := ofLe bs.reverse

abbrev Lane := BitVec 64

/-- The rotation offsets of Keccak-f[1600], by lane x + 5y. -/
def keccakRot : List Nat :=
  [0, 1, 62, 28, 27, 36, 44, 6, 55, 20, 3, 10, 43, 25, 39, 41, 45, 15, 21, 8, 18, 2, 61, 56, 14]

/-- The round constants of Keccak-f[1600]. -/
def keccakRc : List Lane :=
  [0x0000000000000001, 0x0000000000008082, 0x800000000000808A, 0x8000000080008000, 0x000000000000808B,
   0x0000000080000001, 0x8000000080008081, 0x8000000000008009, 0x000000000000008A, 0x0000000000000088,
   0x0000000080008009, 0x000000008000000A, 0x000000008000808B, 0x800000000000008B, 0x8000000000008089,
   0x8000000000008003, 0x8000000000008002, 0x8000000000000080, 0x000000000000800A, 0x800000008000000A,
   0x8000000080008081, 0x8000000000008080, 0x0000000080000001, 0x8000000080008008]

/-- Lane (x, y) of a state of 25 lanes. -/
def lane (a : List Lane) (x y : Nat) : Lane := a.getD (x % 5 + 5 * (y % 5)) 0

/-- One round of Keccak-f[1600]: theta, rho, pi, chi, iota. -/
def keccakRound (a : List Lane) (rc : Lane) : List Lane :=
  let c := (List.range 5).map fun x => lane a x 0 ^^^ lane a x 1 ^^^ lane a x 2 ^^^ lane a x 3 ^^^ lane a x 4
  let d := (List.range 5).map fun x => c.getD ((x + 4) % 5) 0 ^^^ (c.getD ((x + 1) % 5) 0).rotateLeft 1
  let t := (List.range 25).map fun i => a.getD i 0 ^^^ d.getD (i % 5) 0
  let b := (List.range 25).map fun i =>
    -- pi: lane (X, Y) of the result comes from (x, y) with X = y and Y = 2x + 3y
    let bx := i % 5
    let by' := i / 5
    let x := (bx + 3 * by') % 5
    let y := bx
    (lane t x y).rotateLeft (keccakRot.getD (x + 5 * y) 0)
  let e := (List.range 25).map fun i =>
    lane b (i % 5) (i / 5) ^^^ (~~~ (lane b (i % 5 + 1) (i / 5)) &&& lane b (i % 5 + 2) (i / 5))
  match e with
  | [] => []
  | h :: r => (h ^^^ rc) :: r

def keccakF (a : List Lane) : List Lane := keccakRc.foldl keccakRound a

/-- The lanes that little-endian bytes spell. -/
def toLanes : Nat → List Byte → List Lane
  | 0, _ => []
  | n + 1, bs => BitVec.ofNat 64 (ofLe (bs.take 8)) :: toLanes n (bs.drop 8)

def absorbBlock (a : List Lane) (block : List Byte) : List Lane :=
  keccakF (List.zipWith (· ^^^ ·) a (toLanes 17 block ++ List.replicate 8 0))

/-- Absorb `n` blocks of 136 bytes. -/
def absorb : Nat → List Lane → List Byte → List Lane
  | 0, a, _ => a
  | n + 1, a, bs => absorb n (absorbBlock a (bs.take 136)) (bs.drop 136)

/-- The SHAKE256 padding: 0x1F after the message, 0x80 in the last byte of the block. -/
def shakePad (m : List Byte) : List Byte :=
  let r := m.length % 136
  if r = 135 then m ++ [0x9F#8] else m ++ [0x1F#8] ++ List.replicate (134 - r) 0#8 ++ [0x80#8]

def squeezeBytes (a : List Lane) : List Byte := (a.take 17).flatMap fun l => leBytes 8 l.toNat

def squeeze : Nat → List Lane → List Byte
  | 0, _ => []
  | n + 1, a => squeezeBytes a ++ squeeze n (keccakF a)

/-- The first `n` bytes of SHAKE256 over a byte string. (PRESUMED, log entry 10) -/
def shake256 (m : List Byte) (n : Nat) : List Byte :=
  let p := shakePad m
  let a := absorb (p.length / 136) (List.replicate 25 0) p
  (squeeze ((n + 135) / 136) a).take n

end Sys2Proof.Machine
end

