-- ==== Sys2Proof/Machine/Sched.lean ====
section
/-!
DEFINITION. The trunk schedule (file 04): cycle and position of a tick, the launch times, the budget, the digest, and the
refusal causes of `SCHED_COMMIT`. Everything is computed from the matrix, the delays and the SCHED parameters.
-/

namespace Sys2Proof.Machine

/-- A word of `IMG_BANKS`: 0 to 3 the classes of bank 0, 4 to 7 of bank 1, 8 to 11 of the Chamber, 12 and 13 the programs, 14
and 15 the configurations (R544). -/
abbrev bankKey (e w : Nat) : Nat := tkey 0xD0C0 e w

/-- The bank that runs: its entries are ACTIVE (R544). It differs from `IMG_ACTIVE_BANK` when BOOTSEL or a failed check chose the
other (R526). -/
def runBankOf (f : Nat → U32) : Nat := ((f (bankKey 4 0)).getLsbD 25).toNat

def State.runBank (s : State) : Nat := runBankOf s.word

/-- The trunk protocol levels that the running firmware supports, as `IMG_TPL_RANGE` shows them: of its RTF image, or as delivered
(R541, R544). (DESIGN CHOICE, log entry 14; DEDUCED, log entry 43) -/
def tplRangeOf (f : Nat → U32) : U32 :=
  let e := 4 * runBankOf f + 1
  if (f (bankKey e 0)).getLsbD 27 then w32 (fieldOf (f (bankKey e 5)) 15 0) else Config.tplRange.setWidth 32

/-- `SYS_LEVELS` (R469): the levels of the running RTF image, or as delivered; beacons carry the highest trunk protocol level that it
supports. (DEDUCED, log entry 43) -/
def levelsOf (f : Nat → U32) : U32 :=
  let e := 4 * runBankOf f + 1
  let own : U32 := if (f (bankKey e 0)).getLsbD 27 then f (bankKey e 5) else Config.levels.setWidth 32 <<< 16
  withField (withField (withField 0 31 24 (fieldOf own 31 24)) 23 16 (fieldOf own 23 16)) 15 8 (fieldOf (tplRangeOf f) 7 0)

def State.tplRange (s : State) : U32 := tplRangeOf s.word
def State.levels (s : State) : U32 := levelsOf s.word

/-- The byte time b of R93 in ns. -/
def byteTime (rate : Nat) : Nat := 800 * 2 ^ rate

/-- Ticks since the phase, on the 64-bit tick count (R24). -/
def sinceTick (k phase : Nat) : Nat := (k + 2 ^ 64 - phase) % 2 ^ 64

/-- The cycle index n of tick k (R108). -/
def Sched.cycleOf (c : Sched) (k : Nat) : Nat := sinceTick k c.phase / c.period

/-- Whether a trunk cycle is released at tick k (R24). -/
def Sched.startsAt (c : Sched) (k : Nat) : Bool := decide (c.period ≠ 0) && sinceTick k c.phase % c.period == 0

/-- Ticks since the cycle start. -/
def Sched.offsetOf (c : Sched) (k : Nat) : Nat := sinceTick k c.phase % c.period

/-- The hypercycle position of tick k (R24). -/
def Sched.posOf (c : Sched) (k : Nat) : Nat := c.cycleOf k % c.hyper

/-- `SEQ` of cycle index n (R108). -/
def seqOf (n : Nat) : U8 := BitVec.ofNat 8 n

/-- The tick, counted from the cycle start, whose exchange window takes what completes at t ns (R114, R157): the tick that
contains t at an offset of at most 115 µs, else the next. -/
def agreeTick (t : Nat) : Nat := if t % 125000 ≤ 115000 then t / 125000 else t / 125000 + 1

/-- Whether an entry is used in position j (R124). -/
def MEntry.usedIn (e : MEntry) (j : Nat) : Bool := hasBit e.posMask j

/-- The delays of an address, from its two `TRK_DELAYS` words (R67). -/
structure Delay where
  head : Nat
  tail : Nat
  tap : Nat
  flags : Nat
  deriving DecidableEq, Repr

def State.delay (s : State) (p addr : Nat) : Delay :=
  let w0 := s.word (tkey (0x20C2 + 0x100 * p) (addr - 1) 0)
  let w1 := s.word (tkey (0x20C2 + 0x100 * p) (addr - 1) 1)
  { head := fieldOf w1 31 16, tail := fieldOf w1 15 0, tap := fieldOf w0 31 16, flags := fieldOf w0 5 0 }

/-- Flags of `TRK_DELAYS` W0 (R67). -/
def Delay.headMeasured (d : Delay) : Bool := hasBit d.flags 0
def Delay.tailMeasured (d : Delay) : Bool := hasBit d.flags 1
def Delay.inconsistent (d : Delay) : Bool := hasBit d.flags 3
def Delay.estimated (d : Delay) : Bool := hasBit d.flags 4
def Delay.eqFail (d : Delay) : Bool := hasBit d.flags 5

/-- A used entry of the schedule matrix, from its two words (R124). -/
def mentryOf (idx : Nat) (w0 w1 : U32) : MEntry :=
  { idx := idx, addr := fieldOf w1 31 24, part := fieldOf w1 23 22, pass := fieldOf w1 21 20,
    optional := w1.getLsbD 17, noInput := w1.getLsbD 16, posMask := fieldOf w1 15 0, eqSet := fieldOf w0 31 22,
    outWord := fieldOf w0 21 14 }

/-- The used entries of the staged matrix of port p, in table order. -/
def State.matrix (s : State) (p : Nat) : List MEntry :=
  let tid := 0x30C0 + 0x100 * p
  (List.range 512).filterMap fun i =>
    let w1 := s.word (tkey tid i 1)
    if fieldOf w1 31 24 = 0 then none else some (mentryOf i (s.word (tkey tid i 0)) w1)

/-- Insertion by a key: the list stays in ascending order of the key, equal keys in order of insertion. -/
def insertBy {α : Type} (key : α → Nat) (x : α) : List α → List α
  | [] => [x]
  | y :: ys => if key x < key y then x :: y :: ys else y :: insertBy key x ys

def sortBy {α : Type} (key : α → Nat) (l : List α) : List α := l.foldl (fun acc x => insertBy key x acc) []

/-- The order of the slots of one pass (R111): ascending tap position, then address, then part. -/
def slotKey (tap : Nat → Nat) (e : MEntry) : Nat := (tap e.addr * 256 + e.addr) * 4 + e.part

/-- The launch times of one pass from instant t: the entries with their launch, the launch and tap of the last (R111). -/
def passLaunches (tap : Nat → Nat) (len : Nat) : List MEntry → Option (Nat × Nat) → Nat → List (MEntry × Nat)
  | [], _, _ => []
  | e :: es, none, t => (e, t) :: passLaunches tap len es (some (t, tap e.addr)) t
  | e :: es, some (s0, p0), t =>
    let s1 := s0 + len + (tap e.addr - p0) + 1000
    (e, s1) :: passLaunches tap len es (some (s1, tap e.addr)) t

/-- The slots of the passes from instant t on, and the instant at which the inputs complete (R111). -/
def passes (tap : Nat → Nat) (len d : Nat) (slots : List MEntry) : List Nat → Nat → List (MEntry × Nat) × Nat
  | [], t => ([], t)
  | q :: qs, t =>
    match sortBy (slotKey tap) (slots.filter (·.pass == q)) with
    | [] => passes tap len d slots qs t
    | es =>
      let l := passLaunches tap len es none t
      let t' := (l.getLast?.map (·.2)).getD t + len + d + 1000
      let r := passes tap len d slots qs t'
      (l ++ r.1, r.2)

/-- The length W of the broadcast in position j (R104). -/
def widthIn (entries : List MEntry) (j : Nat) : Nat :=
  entries.foldl (fun w e => if e.usedIn j ∧ e.outWord ≠ 0xFF then max w (e.outWord + 1) else w) 1

/-- t_A of R119: 2 D + 1 µs, rounded up to a multiple of 100 ns. -/
def arbBitOf (d : Nat) : Nat := (2 * d + 1000 + 99) / 100 * 100

/-- L_E of R119. -/
def eventLen (evLen rate : Nat) : Nat := (12 + 8 * evLen) * byteTime rate

/-- The round length Q of R119. -/
def roundLen (d evLen rate : Nat) : Nat := 13 * arbBitOf d + 2 * (eventLen evLen rate + d + 1000)

/-- L_O of R110 in ns. -/
def bcastLen (w rate : Nat) : Nat := (16 + 8 * w) * byteTime rate

/-- The instants t_B and t_E of R110, for a broadcast tick and a width. -/
def Sched.bcastStart (c : Sched) : Nat := c.bcast * 125000
def Sched.width (c : Sched) (j : Nat) : Nat := c.widths.getD j 1
def Sched.tailStart (c : Sched) (j : Nat) : Nat := c.bcastStart + bcastLen (c.width j) c.rate + c.loopDelay + 1000
def Sched.eventStart (c : Sched) (j : Nat) : Nat :=
  c.bcastStart + 2 * bcastLen (c.width j) c.rate + 2 * c.loopDelay + 2000
def Sched.roundAt (c : Sched) (j m : Nat) : Nat := c.eventStart j + m * roundLen c.loopDelay c.evLen c.rate

/-- The end of the frame phase and of the reply phase of round m in position j (R119). -/
def Sched.framePhaseEnd (c : Sched) (j m : Nat) : Nat :=
  c.roundAt j m + 13 * c.arbBit + (eventLen c.evLen c.rate + c.loopDelay + 1000)
def Sched.replyPhaseEnd (c : Sched) (j m : Nat) : Nat := c.roundAt j (m + 1)

/-- The input tick T_I of position j (R114). -/
def Sched.inputTick (c : Sched) (j : Nat) : Nat := c.inputTicks.getD j 0

/-- The tick, from the cycle start, in which the wire comparison of position j is decided (R254): the tick that holds the
expected end of the Tail-end broadcast at the Head end's connector at an offset of at most 114 µs, else the next. -/
def Sched.wireTick (c : Sched) (j : Nat) : Nat :=
  let t := c.tailStart j + bcastLen (c.width j) c.rate + c.loopDelay
  if t % 125000 ≤ 114000 then t / 125000 else t / 125000 + 1

/-- The bytes that the digest covers for one matrix entry and for one launch time (R124, R125, R126). -/
def MEntry.bytes (e : MEntry) : List Byte :=
  leBytes 4 (e.eqSet * 2 ^ 22 + e.outWord * 2 ^ 14) ++
  leBytes 4 (e.addr * 2 ^ 24 + e.part * 2 ^ 22 + e.pass * 2 ^ 20 + e.optional.toNat * 2 ^ 17 + e.noInput.toNat * 2 ^ 16
    + e.posMask)

def STime.w1 (t : STime) : Nat := t.pos * 2 ^ 28 + t.entry * 2 ^ 19
def STime.bytes (t : STime) : List Byte := leBytes 4 t.launch ++ leBytes 4 t.w1

/-- `SCHED_DIGEST` (R126). -/
def Sched.digestOf (c : Sched) : U32 :=
  crc32c (([c.rate, c.period, c.phase, c.hyper, c.rounds, c.evLen, c.arbBit, c.bcast, c.apply].flatMap (leBytes 4)) ++
    c.entries.flatMap MEntry.bytes ++ c.times.flatMap STime.bytes)

/-- The times and the completion instant of one position (R111, R125). -/
def positionTimes (tap : Nat → Nat) (rate d j : Nat) (entries : List MEntry) : List STime × Nat :=
  let used := entries.filter (·.usedIn j)
  let wB := 2000 + 24 * byteTime rate + d + 1000
  let r := passes tap (20 * byteTime rate) d (used.filter (!·.noInput)) [0, 1, 2, 3] wB
  (r.1.map (fun x => { pos := j, entry := x.1.idx, launch := x.2 }) ++
    (used.filter (·.noInput)).map (fun e => { pos := j, entry := e.idx, launch := 0 }), r.2)

/-- The schedule that the staged copy of port p describes (R110 to R129). -/
def State.schedule (s : State) (p : Nat) : Sched :=
  let rate := (s.word (P.trkRate p)).toNat
  let d := (s.word (P.trkLoopDelay p)).toNat
  let hyper := (s.word (P.schedHyper p)).toNat
  let evLen := (s.word (P.schedEventLen p)).toNat
  let entries := s.matrix p
  let tap := fun a => (s.delay p a).tap
  let ps := (List.range hyper).map fun j => positionTimes tap rate d j entries
  let ticks := ps.map fun x => agreeTick x.2
  let widths := (List.range hyper).map fun j => widthIn entries j
  let rb := (s.word (P.schedBcastTick p)).toNat
  let bcast := if rb = 0 then ticks.foldl max 0 + 2 else rb
  let need := widths.foldl (fun m w => max m ((bcast * 125000 + 2 * bcastLen w rate + 2 * d + 21000 + 124999) / 125000)) 0
  let ra := (s.word (P.schedApplyTick p)).toNat
  let rounds := (s.word (P.schedEventRounds p)).toNat
  let c : Sched :=
    { rate := rate, period := (s.word (P.schedPeriod p)).toNat, phase := (s.word (P.schedPhase p)).toNat, hyper := hyper,
      bcast := bcast, apply := if ra = 0 then need else ra, rounds := rounds, evLen := evLen, arbBit := arbBitOf d,
      loopDelay := d, entries := entries, times := ps.flatMap (·.1), inputTicks := ticks, widths := widths,
      inputEnd := ps.foldl (fun m x => max m x.2) 0, budgetEnd := 0, digest := 0 }
  let ends := (List.range hyper).map fun j => c.eventStart j + rounds * roundLen d evLen rate
  let c := { c with budgetEnd := ends.foldl max 0 }
  { c with digest := c.digestOf }

/-- The least `APPLY` of R118 for a schedule. -/
def Sched.applyNeed (c : Sched) : Nat :=
  c.widths.foldl (fun m w => max m ((c.bcastStart + 2 * bcastLen w c.rate + 2 * c.loopDelay + 21000 + 124999) / 125000)) 0

/-- No two members of a list share a key, among those the test selects. -/
def clash {α : Type} (sel : α → Bool) (key : α → Nat) : List α → Bool
  | [] => false
  | x :: xs => (sel x && xs.any (fun y => sel y && key x == key y)) || clash sel key xs

/-- The lowest refusal cause of R128 that a schedule meets, or 0. -/
def State.schedCause (s : State) (p : Nat) (c : Sched) : Nat :=
  let js := List.range c.hyper
  if c.budgetEnd > c.period * 125000 then 1
  else if js.any (fun j => c.bcast < c.inputTick j + 2) then 2
  else if c.apply < c.applyNeed ∨ 255 < c.apply then 3
  else if js.any (fun j => clash (fun e => e.usedIn j && e.outWord != 0xFF) (·.outWord) c.entries) then 4
  else if js.any (fun j => clash (fun e => e.usedIn j) (fun e => e.addr * 4 + e.part) c.entries) then 5
  else if eventLen c.evLen c.rate > 240000 ∨ 20 * byteTime c.rate > 240000 then 6
  else if c.entries.any (fun e =>
      let d := s.delay p e.addr
      (!d.headMeasured && !d.tailMeasured) || d.inconsistent || (!e.noInput && (d.eqFail || e.eqSet < 2))) then 7
  else if c.loopDelay = 0 ∨ (s.bit (P.trkStatus p) 4 ∧ s.sys.mode = .lead) then 8
  else if c.period < 8 ∨ 128 < c.period ∨ c.period ≤ c.phase ∨ c.hyper < 1 ∨ 16 < c.hyper ∨ 32 < c.rounds ∨ c.evLen < 2 ∨
      8 < c.evLen ∨ c.entries.any (fun e => 0xC0 < e.addr) then 9
  else 0

/-- The slots of position j in launch order, each with its matrix entry and launch time (R125). -/
def Sched.slots (c : Sched) (j : Nat) : List (MEntry × Nat) :=
  (c.times.filter (·.pos == j)).filterMap fun t =>
    match c.entries.find? (·.idx == t.entry) with
    | some e => if e.noInput then none else some (e, t.launch)
    | none => none

/-- The addresses that a schedule names. -/
def Sched.addrs (c : Sched) : List Nat := (c.entries.map (·.addr)).eraseDups

end Sys2Proof.Machine
end

