-- ==== Sys2Proof/Machine/LoopOps.lean ====
section
/-!
DEFINITION. The loop engine's shared operations (file 08): configuration and its validity, the level law, integration, override
groups, profile generators, lateness and its agreement.
-/

namespace Sys2Proof.Machine

abbrev lcKey (l w : Nat) : Nat := tkey 0x50C0 l w
abbrev gcKey (g w : Nat) : Nat := tkey 0x50C1 g w
abbrev qcKey (q w : Nat) : Nat := tkey 0x50C2 q w
abbrev lsKey (l w : Nat) : Nat := tkey 0x50C3 l w
abbrev gsKey (g w : Nat) : Nat := tkey 0x50C4 g w
abbrev qsKey (q w : Nat) : Nat := tkey 0x50C5 q w

/-- The enabled entries of one of the three loop tables, in ascending order: bit 31 of W0. -/
def State.enabledOf (s : State) (tid : Nat) : List Nat :=
  s.words.filterMap fun (x : Nat × U32) =>
    if tkey tid 0 0 ≤ x.1 ∧ x.1 < tkey (tid + 1) 0 0 ∧ x.1 % 64 = 0 ∧ x.2.getLsbD 31 then
      some ((x.1 - tkey tid 0 0) / 64) else none

def State.loops (s : State) : List Nat := s.enabledOf 0x50C0
def State.gens (s : State) : List Nat := s.enabledOf 0x50C1
def State.loopGroups (s : State) : List Nat := s.enabledOf 0x50C2

/-- The override group of a loop, if it is a member of one (R231). -/
def State.loopGroup (s : State) (l : Nat) : Option Nat :=
  if s.bit (lcKey l 15) 24 then some (s.fld (lcKey l 15) 31 25) else none

def State.membersOf (s : State) (q : Nat) : List Nat := s.loops.filter fun l => s.loopGroup l == some q

/-- Whether a loop is due at tick k (R24, R227). -/
def State.loopDue (s : State) (k l : Nat) : Bool :=
  sinceTick k (s.fld (lcKey l 0) 9 0) % (s.fld (lcKey l 0) 19 10 + 1) == 0

/-! ### Destinations (R231, R235, R237) -/

/-- A destination: its kind (0 none, 1 lane, 2 bits), the word's offset, lane, first bit and width. -/
structure LDest where
  kind : Nat
  off : Nat
  lane : Nat
  bit : Nat
  two : Bool
  deriving DecidableEq, Repr

def State.loopDest (s : State) (l : Nat) : LDest :=
  let w := s.word (lcKey l 13)
  { kind := fieldOf w 31 29 % 3, off := s.fld (lcKey l 14) 23 0, lane := fieldOf w 28 28, bit := fieldOf w 27 22,
    two := w.getLsbD 21 }

def State.groupDest (s : State) (q : Nat) : LDest :=
  let w := s.word (qcKey q 0)
  { kind := fieldOf w 30 29 % 3, off := s.fld (qcKey q 1) 23 0, lane := fieldOf w 28 28, bit := fieldOf w 27 22,
    two := w.getLsbD 21 }

/-- The bits of the word that a destination takes. -/
def LDest.mask (d : LDest) : U64 :=
  match d.kind with
  | 1 => BitVec.ofNat 64 (0xFFFFFFFF * 2 ^ (32 * d.lane))
  | 2 => BitVec.ofNat 64 ((if d.two then 3 else 1) * 2 ^ d.bit)
  | _ => 0

/-- The destination's new bits: an output value in the lane, or the code of a level. -/
def LDest.value (d : LDest) (out : F32) (code : Nat) : U64 :=
  match d.kind with
  | 1 => BitVec.ofNat 64 (out.toNat * 2 ^ (32 * d.lane))
  | 2 => BitVec.ofNat 64 ((if d.two then code else code % 2) * 2 ^ d.bit)
  | _ => 0

def State.writeDest (s : State) (d : LDest) (out : F32) (code : Nat) : State :=
  if d.kind = 0 then s else s.setPm64 d.off d.mask (d.value out code)

/-- The `LVL_CODE` bits of a level. -/
def State.lvlCode (s : State) (l lev : Nat) : Nat := s.fld (lcKey l 14) 31 24 / 4 ^ lev % 4

def State.lvlVal (s : State) (l lev : Nat) : F32 := s.word (lcKey l (9 + lev))

/-- The published compliance flag of the current channel whose commanded lane is the destination (R239). -/
def State.destCompliance (s : State) (d : LDest) : Bool :=
  let base := localImage + 0x410
  if d.kind = 1 ∧ base ≤ d.off ∧ d.off < base + 0x20 then
    hasBit (s.pmByte (localImage + 0x268)).toNat ((d.off - base) / 4 + d.lane)
  else false

/-! ### Inputs (R233) -/

/-- The quality of a source: whether it shows anything but valid data. A forced value is valid data. (DEDUCED, log entry 31) -/
def State.sourceBad (s : State) (off lane : Nat) : Bool :=
  if off < 0x40000 then
    let q := s.pmByte (inImage (off / 0x4000) + 0x1800 + off % 0x4000 / 8)
    !q.getLsbD 4 && (!q.getLsbD 7 || q.getLsbD 6 || q.getLsbD 5)
  else
    let r := off - localImage
    if 0x240 ≤ r ∧ r < 0x260 then
      let q := s.pmByte (localImage + 0x260 + (r - 0x240) / 4 + lane)
      !q.getLsbD 4 && !q.getLsbD 7
    else
      let inv := (s.pmByte (localImage + 4)).toNat
      let frc := (s.pmByte (localImage + 5)).toNat
      let gs := if 0x40 ≤ r ∧ r < 0x240 then [(r - 0x40) / 128] else [0, 1, 2, 3]
      gs.any fun g => hasBit inv g && !hasBit frc g

/-- The raw value of a source as binary32 (R233). -/
def rawOf (kind lane : Nat) (w : U64) : F32 :=
  let h := w.toNat / 2 ^ (16 * lane) % 65536
  let f := w.toNat / 2 ^ (32 * lane) % 2 ^ 32
  match kind with
  | 0 => w32 f
  | 1 => F32.ofInt (BitVec.ofNat 16 h).toInt
  | 2 => F32.ofInt h
  | 3 => F32.ofInt (w32 f).toInt
  | _ => F32.ofInt f

/-- PV of a loop, and whether it is bad (R233). -/
def State.loopPv (s : State) (l : Nat) : F32 × Bool :=
  let kind := s.fld (lcKey l 1) 31 29
  let lane := s.fld (lcKey l 1) 28 27
  let off := s.fld (lcKey l 1) 23 0
  let raw := if kind = 5 then s.cell (l * 4 + 2) else rawOf kind lane (s.pm64 off)
  let pv := F32.add (F32.mul raw (s.word (lcKey l 2))) (s.word (lcKey l 3))
  (pv, !F32.finite pv || (kind != 5 && s.sourceBad off lane))

/-- The set-point of a loop (R231): constant, generator position or program cell. -/
def State.loopSp (s : State) (l : Nat) : F32 :=
  match s.fld (lcKey l 4) 31 30 with
  | 1 => s.word (gsKey (s.fld (lcKey l 4) 29 22) 1)
  | 2 => s.cell (l * 4 + 1)
  | _ => s.word (lcKey l 5)

/-! ### The law (R232 to R235, R238) -/

/-- Phase 2 for one due loop (R234). The status keeps `SAT_OVR` and `SAT_COMPL` until the later phases. -/
def State.loopLaw (s : State) (l : Nat) : State :=
  let w := s.word (lsKey l 0)
  let c0 := s.cell (l * 4)
  let pv := s.loopPv l
  let sp := s.loopSp l
  let e := if s.bit (lcKey l 0) 30 then F32.sub pv.1 sp else F32.sub sp pv.1
  let policy := s.fld (lcKey l 0) 23 22
  let bad := pv.2 && policy != 2
  let top := s.fld (lcKey l 0) 29 28
  let lev := fieldOf w 31 30
  let dwell := fieldOf w 23 16
  let centre := s.word (lsKey l 2)
  let band := s.word (lcKey l 6)
  let minD := s.fld (lcKey l 15) 23 16
  let above := F32.lt (F32.add centre band) e
  let below := F32.lt e (F32.sub centre band)
  let r : Nat × Nat :=
    if bad && policy == 1 then (s.fld (lcKey l 0) 25 24, 0)
    else if bad then (lev, dwell)
    else if c0.getLsbD 30 then
      (if lev = fieldOf c0 29 28 then (lev, dwell) else (fieldOf c0 29 28, 0))
    else if minD = 0 ∨ minD ≤ dwell then
      (if above && decide (lev < top) then (lev + 1, 0)
       else if below && decide (0 < lev) then (lev - 1, 0)
       else (lev, dwell))
    else (lev, dwell)
  let edge := (r.1 == top && above) || (r.1 == 0 && below)
  let w := withField (withField w 31 30 r.1) 29 29 edge.toNat
  let w := withField (withField (withField w 26 26 (c0.getLsbD 30).toNat) 25 25 bad.toNat) 23 16 (min (r.2 + 1) 255)
  ((((s.setWord (lsKey l 0) w).setWord (lsKey l 1) e).setWord (lsKey l 3) (s.lvlVal l r.1)).setWord (lsKey l 5) pv.1).setWord
    (lsKey l 6) sp

/-- The period of a loop in seconds (R232): (`PERIOD` + 1) × 0.000125. -/
def State.loopTs (s : State) (l : Nat) : F32 := F32.mul (F32.ofInt (s.fld (lcKey l 0) 19 10 + 1)) 0x3903126F#32

/-- Integration of one due loop (R235), with its group's outcome and its channel's compliance. -/
def State.integrate (s : State) (l : Nat) (ovr compl : Bool) : State :=
  let s := (s.setBit (lsKey l 0) 28 ovr).setBit (lsKey l 0) 27 compl
  let w := s.word (lsKey l 0)
  let sat := w.getLsbD 29 || ovr || compl || w.getLsbD 26 || (s.cell (l * 4)).getLsbD 31 || w.getLsbD 25
  let ki := s.word (lcKey l 7)
  if !sat && F32.lt 0#32 ki then
    let lim := s.word (lcKey l 8)
    let c := F32.sub (s.word (lsKey l 2)) (F32.mul (F32.mul ki (s.loopTs l)) (s.word (lsKey l 1)))
    s.setWord (lsKey l 2) (F32.max (F32.neg lim) (F32.min lim c))
  else s

/-- The winner of a group (R238): the lowest `OUT`, of those the lowest loop number. -/
def State.groupWinner (s : State) (ms : List Nat) : Nat :=
  (ms.foldl (fun b l => match b with
    | none => some l
    | some x => if F32.lt (s.word (lsKey l 3)) (s.word (lsKey x 3)) then some l else some x) none).getD 0

/-- Phase 3 for one group (R238). -/
def State.groupWork (s : State) (q : Nat) : State :=
  let ms := s.membersOf q
  let win := s.groupWinner ms
  let d := s.groupDest q
  let compl := s.destCompliance d
  let s := s.each ms fun s l => s.integrate l (l != win) compl
  let out := s.word (lsKey win 3)
  let s := s.writeDest d out (s.lvlCode win (s.fld (lsKey win 0) 31 30))
  (s.setFld (qsKey q 0) 31 22 win).setWord (qsKey q 1) out

/-- Phase 4 for one loop outside groups (R235). -/
def State.loopWork (s : State) (l : Nat) : State :=
  let d := s.loopDest l
  let s := s.integrate l false (s.destCompliance d)
  s.writeDest d (s.word (lsKey l 3)) (s.lvlCode l (s.fld (lsKey l 0) 31 30))

/-! ### Profile generators (R240, R241) -/

abbrev fTwo : F32 := 0x40000000#32
abbrev fSix : F32 := 0x40C00000#32
abbrev fDt : F32 := 0x3903126F#32

/-- Δx = u0 × T + b0 × T × T / 2 + j × T × T × T / 6 (R241). -/
def segment (u0 b0 j t : F32) : F32 :=
  F32.add (F32.add (F32.mul u0 t) (F32.div (F32.mul (F32.mul b0 t) t) fTwo))
    (F32.div (F32.mul (F32.mul (F32.mul j t) t) t) fSix)

/-- Speed after time t from speed u0 and acceleration b0 with jerk j. -/
def speedAfter (u0 b0 j t : F32) : F32 :=
  F32.add (F32.add u0 (F32.mul b0 t)) (F32.div (F32.mul (F32.mul j t) t) fTwo)

/-- STOP(u, b) of R241. -/
def stopDist (u b jm am : F32) : F32 :=
  let neg := F32.neg
  let b := if F32.lt b (neg am) then neg am else b
  let twoJ := F32.mul fTwo jm
  let t2 := F32.div (F32.sub (F32.add u (F32.div (F32.sub (F32.mul b b) (F32.mul am am)) twoJ))
    (F32.div (F32.mul am am) twoJ)) am
  let short := F32.lt t2 0#32
  let ap := if short then F32.sqrt (F32.add (F32.mul jm u) (F32.div (F32.mul b b) fTwo)) else am
  let b := if F32.lt b (neg ap) then neg ap else b
  let t2 := if short then 0#32 else t2
  let t1 := F32.div (F32.add b ap) jm
  let t3 := F32.div ap jm
  let u1 := speedAfter u b (neg jm) t1
  let u2 := speedAfter u1 (neg ap) 0#32 t2
  F32.add (F32.add (segment u b (neg jm) t1) (segment u1 (neg ap) 0#32 t2)) (segment u2 (neg ap) jm t3)

/-- One step of an enabled generator (R241). -/
def State.genStep (s : State) (g : Nat) : State :=
  let x := s.word (gsKey g 1)
  let v := s.word (gsKey g 2)
  let a := s.word (gsKey g 3)
  let xt := if s.bit (gcKey g 0) 30 then s.cell (0x1000 + g * 2) else s.word (gcKey g 1)
  let vm := s.word (gcKey g 2)
  let am := s.word (gcKey g 3)
  let jm := s.word (gcKey g 4)
  let tol := s.word (gcKey g 5)
  let d := F32.sub xt x
  let put (s : State) (arr : Bool) (x v a : F32) : State :=
    (((s.setBit (gsKey g 0) 31 arr).setWord (gsKey g 1) x).setWord (gsKey g 2) v).setWord (gsKey g 3) a
  if F32.le (F32.abs d) tol && F32.le (F32.abs v) (F32.mul (F32.mul jm fDt) fDt) && F32.le (F32.abs a) (F32.mul jm fDt) then
    put s true xt 0 0
  else
    let sg : F32 := if F32.lt 0#32 d then 0x3F800000#32 else 0xBF800000#32
    let u := F32.mul sg v
    let b := F32.mul sg a
    let r := F32.abs d
    let root (y : F32) : F32 := F32.min am (F32.sqrt (F32.mul (F32.mul fTwo jm) y))
    let goal : F32 :=
      if F32.le 0#32 u && F32.le r (stopDist u b jm am) then F32.neg (root u)
      else if F32.lt vm u then F32.neg (root (F32.sub u vm))
      else root (F32.sub vm u)
    let j := F32.max (F32.neg jm) (F32.min jm (F32.div (F32.sub goal b) fDt))
    let sj := F32.mul sg j
    let x' := F32.add (F32.add (F32.add x (F32.mul v fDt)) (F32.div (F32.mul (F32.mul a fDt) fDt) fTwo))
      (F32.div (F32.mul (F32.mul (F32.mul sj fDt) fDt) fDt) fSix)
    let v' := F32.add (F32.add v (F32.mul a fDt)) (F32.div (F32.mul (F32.mul sj fDt) fDt) fTwo)
    put s false x' v' (F32.add a (F32.mul sj fDt))

/-! ### The loop window, and the agreement of its results (R227 to R230) -/

/-- The late units, with every member of a late group, and the group of every late member (R227, R229). -/
def State.lateClosure (s : State) (loops groups : List Nat) : List Nat × List Nat :=
  let gs := (groups ++ loops.filterMap fun l => s.loopGroup l).eraseDups
  ((loops ++ gs.flatMap fun q => s.membersOf q).eraseDups, gs)

/-- What a unit holds now, kept for a restore (R230). -/
def State.undoOf (s : State) (tid u n : Nat) (d : Option LDest) : LoopUndo :=
  { table := tid, unit := u, status := s.entry tid u n, dest := d.map fun d => (d.off, s.pm64 d.off) }

/-- One loop window at tick k, with the units that are not complete by 55 µs or that a guard has
refused in the tick (R227, R229, R515). -/
def State.loopWindow (s : State) (k : Nat) (loops gens groups : List Nat) : State :=
  let due := s.loops.filter fun l => s.loopDue k l
  let loops := loops ++ s.loop.lateLoops
  let gens := gens ++ s.loop.lateGens
  let groups := groups ++ s.loop.lateGroups
  let late := s.lateClosure (loops.filter due.contains) (groups.filter s.loopGroups.contains)
  let lateL := late.1.filter due.contains
  let gensOn := s.gens.filter fun g => !gens.contains g
  let work := due.filter fun l => !lateL.contains l
  let qs := s.loopGroups.filter fun q => (s.membersOf q).any work.contains
  let undo := (gensOn.map fun g => s.undoOf 0x50C4 g 8 none) ++
    (work.map fun l => s.undoOf 0x50C3 l 8 (if s.loopGroup l = none then some (s.loopDest l) else none)) ++
    (qs.map fun q => s.undoOf 0x50C5 q 2 (some (s.groupDest q)))
  let s := s.each gensOn fun s g => s.genStep g
  let s := s.each work fun s l => s.loopLaw l
  let s := s.each qs fun s q => s.groupWork q
  let s := s.each (work.filter fun l => (s.loopGroup l).isNone) fun s l => s.loopWork l
  { s with loop := { s.loop with lateLoops := lateL, lateGens := s.gens.filter gens.contains,
                                 lateGroups := late.2.filter fun q => (s.membersOf q).any due.contains,
                                 undo := undo, evaluated := true } }

/-- A unit late in the tick (R28, R229). -/
def State.unitLate (s : State) (tid u flag misses : Nat) : State :=
  let first := !s.bit (tkey tid u 0) flag
  let s := (s.setBit (tkey tid u 0) flag true).inc P.loopMissTotal
  let s := if misses ≠ 0 then s.inc (tkey tid u misses) else s
  s.when first fun s => s.ev 2 "LOOP_LATE" [tid, u]

/-- A unit's result taken back (R230). -/
def State.restoreUnit (s : State) (u : LoopUndo) : State :=
  let d := if u.table = 0x50C3 then s.loopDest u.unit else s.groupDest u.unit
  let s := s.setWords (tkey u.table u.unit 0) u.status
  let s := match u.dest with
    | some (off, w) => s.setPm64 off d.mask w
    | none => s
  (s.inc P.loopSplit).setBit P.loopStatus 4 true

/-- The results of the loop window agreed with the partner's late vectors, or from the module's own alone (R230). -/
def State.settleLoops (s : State) (pLoops pGens pGroups : List Nat) : State :=
  if !s.loop.evaluated then s
  else
    let p := s.lateClosure pLoops pGroups
    let late (u : LoopUndo) : Bool :=
      (u.table == 0x50C3 && p.1.contains u.unit) || (u.table == 0x50C4 && pGens.contains u.unit) ||
        (u.table == 0x50C5 && p.2.contains u.unit)
    let back := s.loop.undo.filter late
    let s := s.each back fun s u => s.restoreUnit u
    let done := s.loop.undo.filter fun u => !late u
    let flagOf (t : Nat) : Nat := if t = 0x50C3 then 24 else if t = 0x50C4 then 30 else 21
    let missOf (t : Nat) : Nat := if t = 0x50C5 then 0 else 4
    let s := s.each done fun s u => s.setBit (tkey u.table u.unit 0) (flagOf u.table) false
    let lates := (back.map fun u => (u.table, u.unit)) ++ (s.loop.lateGens.map fun g => (0x50C4, g)) ++
      (s.loop.lateLoops.map fun l => (0x50C3, l)) ++ (s.loop.lateGroups.map fun q => (0x50C5, q))
    let s := s.each lates fun s (u : Nat × Nat) => s.unitLate u.1 u.2 (flagOf u.1) (missOf u.1)
    let s := s.setBit P.loopStatus 5 (!lates.isEmpty)
    { s with loop := { s.loop with lateLoops := [], lateGens := [], lateGroups := [], undo := [], evaluated := false } }

/-! ### Configuration (R220, R236, R244, R245) -/

/-- The figures of the configuration in force (R228, R245). -/
def State.loopFigures (s : State) : State :=
  let n := s.loops.length
  let g := s.gens.length
  let m := (s.loops.filter fun l => (s.loopGroup l).isSome).length
  (s.setWord P.loopLoad (w32 (24 * n + 40 * g + 4 * m))).setWord P.loopEnabled (w32 (g * 65536 + n))

/-- The tables of a program image, or the new entries of a change package (R220, R231): (table, entry, word, value). -/
def State.loadLoops (s : State) (ws : List (Nat × Nat × Nat × U32)) (whole : Bool) : State :=
  let s := if whole then s.keepWords fun k => !(decide (tkey 0x50C0 0 0 ≤ k) && decide (k < tkey 0x50C3 0 0)) else s
  (s.each ws fun s x => if 0x50C0 ≤ x.1 ∧ x.1 ≤ 0x50C2 then s.setWord (tkey x.1 x.2.1 x.2.2.1) x.2.2.2 else s).loopFigures

/-- A loop in its initial state (R236): its destination holds `OUT` until its first evaluation. -/
def State.initLoop (s : State) (l : Nat) : State :=
  let lev := s.fld (lcKey l 0) 27 26
  let s := (s.setWords (lsKey l 0) [withField 0 31 30 lev, 0, 0, s.lvlVal l lev]).setWords (lsKey l 5) [0, 0]
  if (s.loopGroup l).isNone then s.writeDest (s.loopDest l) (s.lvlVal l lev) (s.lvlCode l lev) else s

/-- A generator in its initial state (R241). -/
def State.initGen (s : State) (g : Nat) : State := s.setWords (gsKey g 0) [0, s.word (gcKey g 6), 0, 0]

/-- The loop engine at a start of the program (R236): a group's destination holds its lowest `OUT`. -/
def State.startLoops (s : State) : State :=
  let l := { s.loop with cells := [], lateLoops := [], lateGens := [], lateGroups := [], undo := [], evaluated := false }
  let s := { s with loop := l }
  let s := s.each s.gens fun s g => s.initGen g
  let s := s.each s.loops fun s l => s.initLoop l
  let s := s.each s.loopGroups fun s q =>
    let win := s.groupWinner (s.membersOf q)
    s.writeDest (s.groupDest q) (s.word (lsKey win 3)) (s.lvlCode win (s.fld (lsKey win 0) 31 30))
  s.setBit P.loopStatus 7 true

def State.stopLoops (s : State) : State := s.setBit P.loopStatus 7 false

/-- The rules of R244 that one loop's words can show. -/
def loopOk (w : Nat → U32) : Bool :=
  let levels := fieldOf (w 0) 29 28
  let kind := fieldOf (w 13) 31 29
  let pv := fieldOf (w 1) 31 29
  let off := fieldOf (w 1) 23 0
  let dest := fieldOf (w 14) 23 0
  F32.lt 0#32 (w 6) && F32.le 0#32 (w 7) && F32.le 0#32 (w 8) &&
    [2, 3, 5, 6, 7, 8, 9, 10, 11, 12].all (fun i => F32.finite (w i)) &&
    levels != 0 && decide (fieldOf (w 0) 27 26 ≤ levels) && decide (fieldOf (w 0) 25 24 ≤ levels) &&
    fieldOf (w 0) 23 22 != 3 && decide (pv ≤ 5) && fieldOf (w 4) 31 30 != 3 && decide (kind ≤ 3) &&
    ((kind == 3) == (w 15).getLsbD 24) &&
    (pv == 5 || (off % 8 == 0 && (decide (off < 0x40000) && decide (off % 0x4000 < 0x1800) ||
      decide (localImage ≤ off) && decide (off < localImage + 0x270)))) &&
    (kind == 0 || kind == 3 || (dest % 8 == 0 && (decide (0x40000 ≤ dest) && decide (dest < 0x80000) &&
      decide (dest % 0x4000 < 0x1800) || decide (localImage + 0x400 ≤ dest) && decide (dest < localImage + 0x430)))) &&
    (kind != 2 || !(w 13).getLsbD 21 || decide (fieldOf (w 13) 27 22 ≤ 62))

/-- The rules of R244 that one generator's words can show. -/
def genOk (w : Nat → U32) : Bool :=
  F32.le 0#32 (w 5) && F32.lt 0#32 (w 2) && F32.lt 0#32 (w 3) && F32.lt 0#32 (w 4) &&
    [1, 2, 3, 4, 5, 6].all fun i => F32.finite (w i)

/-- Two destinations write a bit in common. -/
def LDest.meets (a b : LDest) : Bool := a.off == b.off && a.mask &&& b.mask != 0#64

/-- The rules of R244 over a package's tables: each entry, generators named, groups' members, and one writer for each bit. -/
def State.loopsOk (s : State) (ws : List (Nat × Nat × Nat × U32)) (whole : Bool) : Bool :=
  let t := (s.loadLoops ws whole)
  t.loops.all (fun l => loopOk fun i => t.word (lcKey l i)) && t.gens.all (fun g => genOk fun i => t.word (gcKey g i)) &&
    t.loops.all (fun l => t.fld (lcKey l 4) 31 30 != 1 || t.gens.contains (t.fld (lcKey l 4) 29 22)) &&
    t.loops.all (fun l => match t.loopGroup l with
      | none => true
      | some q => t.loopGroups.contains q && (t.membersOf q).all fun m =>
          t.fld (lcKey m 0) 19 0 == t.fld (lcKey l 0) 19 0) &&
    t.loopGroups.all (fun q => let n := (t.membersOf q).length
      (n == 0 || (2 ≤ n && n ≤ 8)) && (t.fld (qcKey q 0) 30 29 == 1 || t.fld (qcKey q 0) 30 29 == 2) &&
        (t.fld (qcKey q 0) 30 29 == 1 || !t.bit (qcKey q 0) 21 || decide (t.fld (qcKey q 0) 27 22 ≤ 62))) &&
    (let ds := ((t.loops.filter fun l => (t.loopGroup l).isNone).map t.loopDest) ++ t.loopGroups.map t.groupDest
     let ds := ds.filter fun d => d.kind != 0
     ds.zipIdx.all fun x => ds.zipIdx.all fun y => x.2 == y.2 || !x.1.meets y.1)

end Sys2Proof.Machine
end

