-- ==== Sys2Proof/Machine/MaintOps.lean ====
section
/-!
DEFINITION. Maintenance activities (file 20): which are in progress, how they meet, and the refusal of a request that would
start one against another.
-/

namespace Sys2Proof.Machine

def StagedItem.isForces : StagedItem → Bool
  | .forces _ => true
  | _ => false

/-- Whether a force command waits for its effect tick (R546). -/
def State.forcing (s : State) : Bool :=
  s.kpr.staged.any (fun c => c.items.any StagedItem.isForces)

/-- A trunk's re-commissioning in progress (R546). -/
def State.recom (s : State) (p : Nat) : Bool :=
  (s.sys.mode == .standalone || s.sys.mode == .lead) &&
    (s.bit (P.schedStatus p) 12 || (match (s.port p).comm with
      | some k => k.running
      | none => false))

def State.stnRunning (s : State) (p : Nat) : Bool := s.fld (P.imgStnStatus p) 31 29 == 2

/-- Trunk ports whose test holds, as a set of bits. -/
def portSet (f : Nat → Bool) : Nat := (List.range 16).foldl (fun m p => if f p then m + 2 ^ p else m) 0

/-- The trunks on which an activity of this module is in progress (R552). -/
def State.maintPorts (s : State) (a : Nat) : Nat :=
  match a with
  | 3 => portSet s.stnRunning
  | 4 => portSet s.recom
  | 8 => portSet fun p => (List.range 4).any fun u =>
      s.cuActive u && s.fld (cuKey u 1) 31 29 == 1 && s.fld (cuKey u 1) 28 25 == p
  | _ => 0

/-- Whether activity a is in progress in this module (R546). -/
def State.ownActive (s : State) (a : Nat) : Bool :=
  match a with
  | 0 => let ph := s.fld P.prgChangeStatus 15 13
         ph == 1 || decide (3 ≤ ph ∧ ph ≤ 6)
  | 1 => s.forcing
  | 2 => s.maint.upd
  | 3 | 4 => s.maintPorts a != 0
  | 5 => s.sys.proofPending
  | 6 => s.fld P.syncStatus 31 28 != 0
  | 7 => s.fld P.gaugeStatus 6 5 != 0 || (match s.gauge.exportAt with
      | some t => decide (s.plant < t + 60000000000)
      | none => false)
  | 8 => (List.range 4).any s.cuActive
  | 9 => s.bit P.sysParamStatus 15
  | _ => false

/-- How two activities meet (R548, R549): 0 compatible, 1 anywhere in the pair, 2 in the same module, 3 in the other module,
4 on the same trunk. -/
def meet (new old : Nat) : Nat :=
  match min new old, max new old with
  | 0, 0 | 0, 2 | 0, 4 | 0, 5 | 0, 6 | 1, 1 | 2, 4 | 4, 5 | 4, 6 => 1
  | 2, 7 | 5, 7 | 2, 9 | 5, 9 => 2
  | 2, 2 | 2, 5 => 3
  | 3, 3 | 3, 4 | 4, 4 => 4
  | _, _ => 0

/-- The lowest activity in progress that a new activity of a module conflicts with; `mine` says whether the new one is this
module's, `port` its trunk. -/
def State.conflict (s : State) (new : Nat) (mine : Bool) (port : Option Nat) : Option Nat :=
  (List.range 10).find? fun a =>
    let own := s.ownActive a
    let other := hasBit s.maint.partner a
    let ports := Nat.lor (s.maintPorts a) (((s.maint.partnerPorts.find? fun (x : Nat × Nat) => x.1 == a).map (·.2)).getD 0)
    match meet new a with
    | 1 => own || other
    | 2 => if mine then own else other
    | 3 => if mine then other else own
    | 4 => (match port with
        | some p => hasBit ports p
        | none => false)
    | _ => false

/-- A refusal for a conflict (R550): the detail names the activity and the cause of the command's own chapter. -/
def State.refuseConflict (s : State) (rq : Rq) (op cause a : Nat) : State :=
  let s := s.incFld (tkey 0x00C2 a 0) 15 0
  (s.ev 0 "BUSY_CONFLICT" [op, a, cause]).respond rq op St.busyConflict (cause * 256 + a) []

/-- A request that starts an activity in this module (R547). -/
def State.starting (s : State) (rq : Rq) (op new cause : Nat) (port : Option Nat) (f : State → State) : State :=
  match s.conflict new true port with
  | some a => s.refuseConflict rq op cause a
  | none => f s

/-- `SYS_MAINT` brought up to date (R552): `OWN`, the ports, and the tick at which an activity started in either module. The
module sends its own activities to the partner when they change (R547), with its open health window as bit 15 (R530). (DEDUCED, log entry 72) -/
def State.maintRefresh (s : State) : State :=
  let own := (List.range 10).foldl (fun m a => if s.ownActive a then m + 2 ^ a else m) 0
  let own := own + (if s.bit P.imgStatus 15 then 2 ^ 15 else 0)
  let s' := s.each (List.range 10) fun s a =>
    let was := s.bit (tkey 0x00C2 a 0) 31 || s.bit (tkey 0x00C2 a 0) 30
    let now := hasBit own a || hasBit s.maint.partner a
    let theirs := ((s.maint.partnerPorts.find? fun (x : Nat × Nat) => x.1 == a).map (·.2)).getD 0
    let s := (s.setBit (tkey 0x00C2 a 0) 31 (hasBit own a)).setBit (tkey 0x00C2 a 0) 30 (hasBit s.maint.partner a)
    let s := s.setFld (tkey 0x00C2 a 1) 31 16 (Nat.lor (s.maintPorts a) theirs)
    if now && !was then s.set64 (tkey 0x00C2 a 2) s.time.tick else s
  if own = s.maint.own then s'
  else
    let body := leBytes 2 own ++ [3, 4, 8].flatMap fun a => leBytes 2 (s.maintPorts a)
    ({ s' with maint.own := own }.message 8 body).2

end Sys2Proof.Machine
end

