-- ==== Sys2Proof/Machine/PairOps.lean ====
section
/-!
DEFINITION. The claim and withdrawal operations that chapters share (file 09): the highest claim known, being deposed, and
the decision to withdraw. The withdrawal itself takes effect in the command WITHDRAWAL (R249).
-/

namespace Sys2Proof.Machine

/-- A claim heard on the link or on a trunk raises the highest claim known (R250). -/
def State.hearClaim (s : State) (c : U32) : State :=
  { s with pair := { s.pair with high := latest32 s.pair.high c } }

/-- The highest claim known (R250): the latest of the own claim, those heard, and the value saved in MRAM. -/
def State.highest (s : State) : U32 := latest32 (latest32 s.pair.high s.pair.saved) s.pair.claim

/-- A new claim of the module's own: saved in MRAM before any frame carries it (R250). -/
def State.takeClaim (s : State) (c : U32) : State :=
  { s with pair := { s.pair with claim := c, saved := c, high := latest32 s.pair.high c } }

/-- The decision to withdraw with a cause: it takes effect at the next tick boundary, and the notice goes out in the next
exchange (R249). A decision that finds another pending is dropped, and the loss recorded (R413). -/
def State.decideWithdraw (s : State) (cause : Nat) : State :=
  if !(s.sys.mode.run || s.sys.mode == .commission) then s
  else match s.pair.withdrawing with
    | some _ => s.ev 0 "MODE_CAUSE_DROPPED" [cause]
    | none => ({ s with pair := { s.pair with withdrawing := some cause } }).control 0x01 cause 0 (s.time.tick + 1)

/-- A valid beacon or broadcast of the other end with claim c may depose the module (R252). -/
def State.checkDeposed (s : State) (c : U32) : State :=
  let d := sdiff32 c s.pair.claim
  let lim : Int := if s.sys.mode = .trail then 1 else 0
  if (s.sys.mode.run || s.sys.mode == .commission) && decide (lim < d) && s.pair.withdrawing.isNone then
    ((s.setBit P.pairStatus 17 true).inc P.pairDeposedCnt).decideWithdraw 0x04
  else s

/-- A trail with `SOLO` that hears its lead alive on a trunk withdraws (R264); so does a trail that waits for a lead
broadcast after a divergence without a verdict (R258). `cutTick` is the tick of the broadcast's output cut. -/
def State.leadHeard (s : State) (cutTick : Nat) : State :=
  if s.sys.mode != .trail then s
  else
    let alive : Bool := match s.pair.firstNoHb with
      | some t => decide (t < cutTick)
      | none => false
    let waited : Bool := match s.pair.waitLead with
      | some k => decide (k < cutTick)
      | none => false
    if waited then ((s.setBit P.pairStatus 16 true).inc P.pairUnresolvedCnt).decideWithdraw 0x03
    else if s.bit P.pairStatus 25 && alive then s.decideWithdraw 0x05
    else s

end Sys2Proof.Machine
end

