-- ==== Sys2Proof/Machine/TrunkOps.lean ====
section
/-!
DEFINITION. The shared operations of a trunk port (files 03 to 05): its end, its gate and readiness, the frames byte by byte,
the launch of beacons and broadcasts, the coefficient sets, event rounds, and requests to stations.
-/

namespace Sys2Proof.Machine

/-- Port p is in use (R55), and this module is its Head end (R53). -/
def State.used (s : State) (p : Nat) : Bool := (s.word (P.trkHeadPos p)).toNat < 2
def State.isHead (s : State) (p : Nat) : Bool := (s.word (P.trkHeadPos p)).toNat == s.sys.posB.toNat

/-- The hardware gate of R58 with R409: open only on a calibrated port in use, in a mode that may transmit. -/
def State.gateOpen (s : State) (p : Nat) : Bool :=
  s.used p && (s.port p).calibrated && hasBit s.sys.diesUp 0 && hasBit s.sys.diesUp 1 && !s.sys.mateOpen &&
    (s.sys.mode.run || s.sys.mode == .commission)

/-- The gate opens for pulses alone in HOLD and SERVICE (R87, R409). -/
def State.gatePulse (s : State) (p : Nat) : Bool :=
  s.used p && (s.port p).calibrated && (s.sys.mode == .hold || s.sys.mode == .service || s.gateOpen p)

/-- A port that receives: in use, calibrated, in a mode that listens (R55, R58). -/
def State.receives (s : State) (p : Nat) : Bool :=
  s.used p && (s.port p).calibrated && (s.sys.mode.run || s.sys.mode == .commission || s.sys.mode == .listen ||
    s.sys.mode == .resync)

/-- A running trunk (R254). -/
def State.runningTrunk (s : State) (p : Nat) : Bool :=
  s.used p && s.bit (P.schedStatus p) 15 && s.bit (P.schedStatus p) 14

/-- The current schedule of a port. -/
def State.withSched (s : State) (p : Nat) (f : Sched → State) : State :=
  match (s.port p).cur with
  | some c => f c
  | none => s

/-- The position of the cycle in progress (R24). -/
def PortS.pos (q : PortS) (c : Sched) : Nat := q.cycle % c.hyper

/-- The cycle start of the cycle in progress, plant time in ns. -/
def PortS.cycleStart (q : PortS) : Nat := q.cycleTick * 125000

/-! ### Coefficient sets (R68 to R75, R79, R80) -/

abbrev eqKey (p set w : Nat) : Nat := tkey (0x20C0 + 0x100 * p) set w
abbrev snrKey (p set w : Nat) : Nat := tkey (0x20C1 + 0x100 * p) set w

def State.setValid (s : State) (p set : Nat) : Bool := s.bit (eqKey p set 0) 31

/-- The counts of R72 and R80 for a set: frames passed in a row, failed in a row, and in a row at or above the clearing
threshold of `SNR_LOW`. -/
def PortS.runs (q : PortS) (set : Nat) : Nat × Nat × Nat :=
  match q.setRuns.find? (·.1 == set) with
  | some r => r.2
  | none => (0, 0, 0)

def PortS.setRun (q : PortS) (set : Nat) (r : Nat × Nat × Nat) : PortS :=
  { q with setRuns := (set, r) :: q.setRuns.filter (·.1 != set) }

/-- The sets that the schedule uses: the input slots' sets, and set 1 of the other end (R68). -/
def State.setsInUse (s : State) (p : Nat) : List Nat :=
  match (s.port p).cur with
  | some c => (1 :: (c.entries.filter (!·.noInput)).map (·.eqSet)).eraseDups
  | none => [1]

/-- `READY` of R82: rate found and matching, digest equal by R99, and the sets of all slots marked as present valid. -/
def State.refreshReady (s : State) (p : Nat) : State :=
  let q := s.port p
  let sets := match q.cur with
    | some c => (c.entries.filter fun e => !e.noInput && !e.optional).all fun e => s.setValid p e.eqSet
    | none => false
  let st := P.trkStatus p
  s.setBit st 15 (s.bit st 14 && !s.bit st 13 && q.rotEq == 15 && !s.bit st 12 && sets)

/-- The averaged SNR of a set after one more frame (R79), and the warning of R80. (DEDUCED, log entry 11) -/
def State.countSnr (s : State) (p set snr : Nat) : State :=
  let k := snrKey p set 0
  let old := s.fld k 31 16
  let now := if old = 0xFFFF then snr else (15 * old + snr) / 16
  let warn := (s.word (P.trkSnrWarn p)).toNat
  let s := s.setFld k 31 16 now
  let s := s.setFld k 15 0 (min (s.fld k 15 0) now)
  let s := s.setFld (snrKey p set 1) 15 0 (s.fld (snrKey p set 1) 15 0 + 1)
  let r := (s.port p).runs set
  let s := s.modPort p fun q => q.setRun set (r.1, r.2.1, if warn + 10 ≤ now then r.2.2 + 1 else 0)
  let s := s.setWord (P.trkSnrMin p) (w32 ((s.setsInUse p).foldl (fun m i => min m (s.fld (snrKey p i 0) 31 16)) 0xFFFF))
  if (s.setsInUse p).contains set && decide (now < warn) then
    (s.setBit (P.trkStatus p) 9 true).when (!decide (old < warn)) fun s => s.ev 1 "SNR_LOW" [p, set, now]
  else if s.bit (P.trkStatus p) 9 && (s.setsInUse p).all (fun i => 16 ≤ ((s.port p).runs i).2.2) then
    s.setBit (P.trkStatus p) 9 false
  else s

/-- The adaptation of a set by the values that the equaliser computed (R72, R73): W1 to W12 and `DRIFT`. -/
def State.adapt (s : State) (p set : Nat) (words : List U32) (drift : Nat) : State :=
  let s := s.setWords (eqKey p set 1) (words.take 12)
  let s := s.setFld (eqKey p set 2) 15 0 drift
  let beyond := decide ((s.word (P.trkEqDriftLim p)).toNat < drift)
  (s.setBit (eqKey p set 0) 28 true).when beyond fun s =>
    (s.setBit (P.trkStatus p) 8 true).when (!s.bit (P.trkStatus p) 8) fun s => s.ev 1 "DRIFT" [p, set]

/-- A set just trained, with its origin and SNR (R69, R71, R72): tracking and drift start afresh (R74). -/
def State.trained (s : State) (p set origin snr : Nat) : State :=
  let s := s.setWord (eqKey p set 0) (withField (withField (withField 0 31 31 1) 30 29 origin) 15 0 snr)
  let s := s.setFld (eqKey p set 2) 15 0 0
  if (s.setsInUse p).all fun i => decide (s.fld (eqKey p i 2) 15 0 ≤ (s.word (P.trkEqDriftLim p)).toNat) then
    s.setBit (P.trkStatus p) 8 false
  else s

/-- One valid frame received with a slot's set: training by decisions where the set is not valid (R66, R72), tracking where
it is (R72, R73). -/
def State.eqFrame (s : State) (p set : Nat) (m : RxMeasure) : State :=
  let r := (s.port p).runs set
  let s := s.modPort p fun q => q.setRun set (r.1 + 1, 0, (q.runs set).2.2)
  if !s.setValid p set then
    let s := s.setWords (eqKey p set 1) (m.adapted.take 12)
    if 16 ≤ r.1 + 1 ∧ 140 ≤ m.snr then (s.trained p set 2 m.snr).refreshReady p else s
  else if s.sys.mode == .listen then s.adapt p set m.adapted m.drift
  else if s.sys.mode.run && (s.port p).eqMode != 0 then s.adapt p set m.adapted m.drift
  else s

/-- One frame that begins validly in a slot and fails its CRC (R72, R79). -/
def State.eqBad (s : State) (p set : Nat) : State :=
  let s := s.incFld (snrKey p set 1) 31 16
  let r := (s.port p).runs set
  let s := s.modPort p fun q => q.setRun set (0, r.2.1 + 1, r.2.2)
  if s.sys.mode == .listen && s.setValid p set && decide (16 ≤ r.2.1 + 1) then
    ((s.setBit (eqKey p set 0) 31 false).modPort p fun q => q.setRun set (0, 0, 0)).refreshReady p
  else s

/-! ### Frames (R94 to R107) -/

/-- Frame bytes 3 to the end of the CRC, for a frame whose bytes up to its payload's end are given (R97). -/
def withCrc (body : List Byte) : List Byte := body ++ beBytes 4 (crc32c body).toNat

/-- Whether a received frame is sound: code groups and CRC (R92, R97). -/
def RxFrame.crcOk (f : RxFrame) : Bool :=
  decide (4 < f.bytes.length) &&
    (crc32c (f.bytes.take (f.bytes.length - 4))).toNat == ofBe (f.bytes.drop (f.bytes.length - 4))

def RxFrame.byte (f : RxFrame) (i : Nat) : Nat := (f.bytes.getD i 0).toNat

/-- `TYPE`, and the bytes from the header to the end of the payload. -/
def RxFrame.type (f : RxFrame) : Nat := f.byte 0 / 16
def RxFrame.body (f : RxFrame) : List Byte := f.bytes.take (f.bytes.length - 4)
def RxFrame.payload (f : RxFrame) : List Byte := f.body.drop 4

/-- A beacon as its fields (R98). -/
structure Beacon where
  tail : Bool
  forced : Bool
  hcStart : Bool
  switch : Bool
  apply : Nat
  seq : U8
  rot : Nat
  plant : Nat
  claim : U32
  deriving DecidableEq, Repr

/-- The beacon in a received frame, when the frame is a valid one (R98). -/
def RxFrame.beacon (f : RxFrame) : Option Beacon :=
  if f.codeOk && f.sob && f.crcOk && f.type == 1 && f.bytes.length == 20 then
    some { tail := hasBit (f.byte 0) 3, forced := hasBit (f.byte 0) 2, hcStart := hasBit (f.byte 0) 1,
           switch := hasBit (f.byte 0) 0, apply := f.byte 1, seq := BitVec.ofNat 8 (f.byte 2), rot := f.byte 3,
           plant := ofBe ((f.bytes.drop 4).take 8), claim := w32 (ofBe ((f.bytes.drop 12).take 4)) }
  else none

/-- An output broadcast as its fields (R104). -/
structure Bcast where
  tail : Bool
  forced : Bool
  hcStart : Bool
  seq : U8
  claim : U32
  words : List U64
  deriving DecidableEq, Repr

/-- The 8-byte words of a payload, big-endian on the wire (R95). -/
def beWords : Nat → List Byte → List U64
  | 0, _ => []
  | n + 1, bs => BitVec.ofNat 64 (ofBe (bs.take 8)) :: beWords n (bs.drop 8)

/-- The broadcast in a received frame, when the frame is a valid one (R104). -/
def RxFrame.bcast (f : RxFrame) : Option Bcast :=
  if f.codeOk && !f.sob && f.crcOk && f.type == 3 && f.bytes.length == 12 + 8 * f.byte 3 then
    some { tail := hasBit (f.byte 0) 3, forced := hasBit (f.byte 0) 2, hcStart := hasBit (f.byte 0) 1,
           seq := BitVec.ofNat 8 (f.byte 2), claim := w32 (ofBe ((f.bytes.drop 4).take 4)),
           words := beWords (f.byte 3) (f.bytes.drop 8) }
  else none

/-- The bytes of a beacon from byte 3 to the CRC (R98). -/
def Beacon.bytes (b : Beacon) : List Byte :=
  withCrc ([BitVec.ofNat 8 (0x10 + 8 * b.tail.toNat + 4 * b.forced.toNat + 2 * b.hcStart.toNat + b.switch.toNat),
    BitVec.ofNat 8 b.apply, b.seq, BitVec.ofNat 8 b.rot] ++ beBytes 8 b.plant ++ beBytes 4 b.claim.toNat)

/-- The bytes of an output broadcast from byte 3 to the CRC (R104). -/
def Bcast.bytes (b : Bcast) : List Byte :=
  withCrc ([BitVec.ofNat 8 (0x30 + 8 * b.tail.toNat + 4 * b.forced.toNat + 2 * b.hcStart.toNat), 0, b.seq,
    BitVec.ofNat 8 b.words.length] ++ beBytes 4 b.claim.toNat ++ b.words.flatMap fun w => beBytes 8 w.toNat)

/-- The bytes of another frame: type, flags, address, SEQ and payload (R94). -/
def frameBytes (type flags addr : Nat) (seq : U8) (payload : List Byte) : List Byte :=
  withCrc ([BitVec.ofNat 8 (type * 16 + flags), BitVec.ofNat 8 addr, seq, BitVec.ofNat 8 (payload.length / 8)] ++ payload)

/-- A payload filled with zero bytes to whole 8-byte words (R94). -/
def padWords (bs : List Byte) : List Byte := bs ++ List.replicate ((8 - bs.length % 8) % 8) 0

/-! ### Launching (R98 to R105) -/

/-- The start tick of the hypercycle in progress at tick k, and of the next one (R127). -/
def Sched.hyperStart (c : Sched) (k : Nat) : Nat := k - c.offsetOf k - c.posOf k * c.period
def Sched.nextHyper (c : Sched) (k : Nat) : Nat := c.hyperStart k + c.period * c.hyper

/-- `SWITCH`: the cycle lies in the last hypercycle before a staged schedule takes effect (R98, R127). -/
def PortS.switchNext (q : PortS) (c : Sched) : Bool :=
  match q.staged with
  | some (_, t) => decide (t ≤ c.nextHyper q.cycleTick)
  | none => false

/-- `ROT` (R99). -/
def State.rotOf (s : State) (q : PortS) (c : Sched) : Nat :=
  match (seqOf q.cycle).toNat % 8 with
  | 0 => fieldOf c.digest 31 24
  | 1 => fieldOf c.digest 23 16
  | 2 => fieldOf c.digest 15 8
  | 3 => fieldOf c.digest 7 0
  | 4 => fieldOf s.levels 15 8
  | 5 => c.period
  | 6 => (c.hyper - 1) * 16 + q.pos c
  | _ => c.rounds

/-- At least one force is current (R201). -/
def State.forced (s : State) : Bool := (s.word P.prgForceCount) != 0#32

/-- A beacon launched by this module on port p (R98, R100, R101), and the check of its loopback stamp: `dev` is the stamp
less the `PLANT` field in ns (R57). -/
def State.launchBeacon (s : State) (p : Nat) (tail : Bool) (dev : Int) : State :=
  s.withSched p fun c =>
    let q := s.port p
    let b : Beacon :=
      { tail := tail, forced := s.forced, hcStart := q.pos c == 0, switch := q.switchNext c, apply := c.apply,
        seq := seqOf q.cycle, rot := s.rotOf q c, plant := q.cycleStart + 2000 * tail.toNat, claim := s.pair.claim }
    let s := s.modPort p fun q => { q with lastBeacon := b.bytes }
    if dev < -3 ∨ 3 < dev then (s.inc (P.trkLaunchErr p)).ev 1 "LAUNCH_ERROR" [p] else s

/-- An output broadcast launched by this module on port p, from what the output cut froze (R104, R105), and the comparison
with itself heard back (R255). -/
def State.launchBcast (s : State) (p : Nat) (tail differs : Bool) : State :=
  s.withSched p fun c =>
    let q := s.port p
    let b : Bcast :=
      { tail := tail, forced := q.outForced, hcStart := q.pos c == 0, seq := seqOf q.cycle, claim := q.outClaim,
        words := q.outWords }
    let s := s.modPort p fun q => { q with lastBcast := b.bytes }
    if differs then
      { s.setBit (tkey 0x60C1 p 0) 1 true with pair := { s.pair with faultSeen := true } }
    else s

/-! ### Queue entries (R159, R162) -/

abbrev txKey (p e w : Nat) : Nat := tkey (0x20C7 + 0x100 * p) e w
abbrev rxKey (p e w : Nat) : Nat := tkey (0x20C6 + 0x100 * p) e w

/-- The bytes of words in the order W0 first, little-endian (R9). -/
def wordBytes (ws : List U32) : List Byte := ws.flatMap fun w => leBytes 4 w.toNat

/-! ### Requests to stations (R107, R160, R161, R576) -/

/-- A new Keeper request: `MTAG` has bit 7 set, and bits 6:0 count the port's requests (R576). `body` is the payload after
`MCMD` and `MTAG`. (DEDUCED, log entries 43 and 63) -/
def State.keeperRequest (s : State) (p addr mcmd : Nat) (body : List Byte) (origin : KOrigin) : State :=
  s.modPort p fun q =>
    { q with
      tagCount := (q.tagCount + 1) % 128
      kreqs := q.kreqs ++ [⟨addr, padWords ([BitVec.ofNat 8 mcmd, BitVec.ofNat 8 (128 + q.tagCount)] ++ body),
        128 + q.tagCount, 0, none, origin⟩] }

/-- The request bodies of R142 that carry a serial. -/
def serialBody (b2 : Nat) (serial : U32) : List Byte := BitVec.ofNat 8 b2 :: (beBytes 4 serial.toNat ++ [0])

/-- The configuration entries of a station (R141): from the launch times of the schedule. -/
def Sched.stationEntries (c : Sched) (addr : Nat) : List CfgEntry :=
  c.times.filterMap fun t =>
    match c.entries.find? (·.idx == t.entry) with
    | some e => if e.addr = addr then
        some { pos := t.pos, part := e.part, outWord := e.outWord, noInput := e.noInput, launch := t.launch } else none
    | none => none

/-- One entry of `CFG_SLOTS` on the wire (R142). -/
def CfgEntry.bytes (e : CfgEntry) : List Byte :=
  [BitVec.ofNat 8 (e.pos * 16 + e.part), BitVec.ofNat 8 e.outWord, BitVec.ofNat 8 e.noInput.toNat, 0] ++ beBytes 4 e.launch

/-- `CFG_SLOTS` frames of k entries each, from entry `i` on (R142). -/
def cfgSlotBodies : Nat → Nat → List CfgEntry → Nat → List (List Byte)
  | 0, _, _, _ => []
  | fuel + 1, k, es, i =>
    match es with
    | [] => []
    | _ => let now := es.take k
           ([BitVec.ofNat 8 now.length, BitVec.ofNat 8 i, 0, 0, 0, 0] ++ now.flatMap CfgEntry.bytes) ::
             cfgSlotBodies fuel k (es.drop k) (i + now.length)

/-- The configuration sent to the station at an address (R141, R142): `CFG_SLOTS`, `CFG_TIMING`, `CFG_COMMIT`. -/
def State.sendConfig (s : State) (p addr : Nat) (c : Sched) (origin : KOrigin) : State :=
  let es := c.stationEntries addr
  let k := max 1 (min 7 (c.evLen - 1))
  let d := s.delay p addr
  let urg := s.fld (tkey (0x20C4 + 0x100 * p) (addr - 1) 0) 11 8
  let s := s.each (cfgSlotBodies 512 k es 0) fun s b => s.keeperRequest p addr 0x10 b origin
  let s := s.keeperRequest p addr 0x11
    ([BitVec.ofNat 8 (s.word (P.trkOutTimeout p)).toNat, BitVec.ofNat 8 urg, BitVec.ofNat 8 c.period,
      BitVec.ofNat 8 c.hyper, 0, 0] ++ beBytes 4 d.head ++ beBytes 4 d.tail) origin
  s.keeperRequest p addr 0x12 (BitVec.ofNat 8 es.length :: (beBytes 4 c.digest.toNat ++ [0])) origin

/-! ### Station table (R150, R156) -/

abbrev stKey (p addr w : Nat) : Nat := tkey (0x20C4 + 0x100 * p) (addr - 1) w
abbrev strKey (p e w : Nat) : Nat := tkey (0x20C5 + 0x100 * p) e w

def State.stState (s : State) (p addr : Nat) : Nat := s.fld (stKey p addr 0) 31 28

/-- The address at which a serial is expected, if any (R147). -/
def State.addrOf (s : State) (p : Nat) (serial : U32) : Option Nat :=
  ((List.range 192).find? fun i => s.word (stKey p (i + 1) 1) == serial).map (· + 1)

/-- The entry of `TRK_STRANGERS` that holds a serial; else a free one; else the one seen longest ago (R150). -/
def State.strangerSlot (s : State) (p : Nat) (serial : U32) : Nat :=
  match (List.range 32).find? fun e => s.bit (strKey p e 2) 0 && s.word (strKey p e 0) == serial with
  | some e => e
  | none =>
    match (List.range 32).find? fun e => !s.bit (strKey p e 2) 0 with
    | some e => e
    | none => (List.range 32).foldl (fun b e => if later32 (s.word (strKey p b 3)) (s.word (strKey p e 3)) then e else b) 0

def State.strangerKnown (s : State) (p : Nat) (serial : U32) : Bool :=
  (List.range 32).any fun e => s.bit (strKey p e 2) 0 && s.word (strKey p e 0) == serial

/-- A stranger entered or counted in `TRK_STRANGERS` (R147, R150). -/
def State.enterStranger (s : State) (p : Nat) (serial : U32) (vendor product level : Nat) (quar : Bool) : State :=
  let e := s.strangerSlot p serial
  let known := s.strangerKnown p serial
  let s := if known then s else s.clearEntry (0x20C5 + 0x100 * p) e 4
  let s := s.setWord (strKey p e 0) serial
  let s := s.setWord (strKey p e 1) (w32 (vendor * 65536 + product))
  let s := s.incFld (strKey p e 2) 31 16
  let s := s.setFld (strKey p e 2) 15 8 level
  let s := (s.setBit (strKey p e 2) 0 true).when quar fun s => s.setBit (strKey p e 2) 1 true
  s.setWord (strKey p e 3) (w32 (s.port p).cycle)

/-- The count words of R163 over the scheduled stations. -/
def State.countStations (s : State) (p : Nat) : State :=
  let addrs := match (s.port p).cur with
    | some c => c.addrs
    | none => []
  let pr := (addrs.filter fun a => let t := s.stState p a; t == 1 || t == 2).length
  let ab := (addrs.filter fun a => let t := s.stState p a; t == 3 || t == 4 || t == 5).length
  (s.setWord (P.trkPresentCnt p) (w32 pr)).setWord (P.trkAbsentCnt p) (w32 ab)

/-- A duplicate declared at an address for a foreign serial (R148): quarantined, entered and recorded. -/
def State.declareDuplicate (s : State) (p addr : Nat) (serial : U32) (level : Nat) : State :=
  let s := (s.setBit (stKey p addr 0) 5 true).enterStranger p serial 0 0 level true
  let s := s.ev 1 "DUPLICATE" [p, addr, serial.toNat]
  if s.sys.mode.contends then s.keeperRequest p addr 0x30 (serialBody 0 serial) .duplicate else s

end Sys2Proof.Machine
end

