-- ==== Sys2Proof/Machine/PrgOps.lean ====
section
/-!
DEFINITION. The shared operations of program execution (file 06) and of online change (file 07): the process memory, the
tasks, releases and agreed completion, the output cut, forces, retentive data, the start and stop of the program, and the
switch of tasks.
-/

namespace Sys2Proof.Machine

/-! ### Tasks (R165, R166, R185) -/

abbrev taskKey (m w : Nat) : Nat := tkey 0x40C0 m w
abbrev statKey (m w : Nat) : Nat := tkey 0x40C1 m w

def State.task (s : State) (m : Nat) : TaskS := s.prog.tasks.getD m TaskS.fresh0
def State.modTask (s : State) (m : Nat) (f : TaskS → TaskS) : State := { s with prog.tasks := s.prog.tasks.modify m f }

def State.taskKind (s : State) (m : Nat) : Nat := s.fld (taskKey m 0) 31 30
def State.taskEp (s : State) (m : Nat) : Nat := s.fld (taskKey m 0) 29 28
def State.taskPrio (s : State) (m : Nat) : Nat := s.fld (taskKey m 0) 27 23
def State.taskTrunk (s : State) (m : Nat) : Nat := s.fld (taskKey m 0) 22 19

/-- The tasks of a kind; kind 0 is unused. -/
def State.tasksOf (s : State) (kind : Nat) : List Nat := (List.range 32).filter fun m => s.taskKind m == kind
def State.allTasks (s : State) : List Nat := (List.range 32).filter fun m => s.taskKind m != 0

/-- The program runs in this module (R207). -/
def State.running (s : State) : Bool := s.bit P.prgStatus 15

/-- The summary bits of `PRG_STATUS` (R207). -/
def State.prgSums (s : State) : State :=
  (s.setBit P.prgStatus 10 (s.word P.prgLateVector != 0#32)).setBit P.prgStatus 11 (s.word P.prgSuspendVector != 0#32)

/-- A miss of a task (R26 to R28, R185): the flag, the counts, and the event of the first miss after one on time. (DEDUCED, log entry 29) -/
def State.taskMiss (s : State) (m : Nat) : State :=
  let first := !s.bit (statKey m 0) 0
  let s := ((s.setBit (statKey m 0) 0 true).inc (statKey m 1)).incFld (statKey m 0) 7 4
  let s := (s.setBit P.prgLateVector m true).prgSums
  s.when first fun s => s.ev 2 "TASK_LATE" [m]

/-- A completion on time clears the flag and the run of misses (R28). -/
def State.taskOnTime (s : State) (m : Nat) : State :=
  (((s.setBit (statKey m 0) 0 false).setFld (statKey m 0) 7 4 0).setBit P.prgLateVector m false).prgSums

/-- A task suspended, or resumed (R184). -/
def State.suspend (s : State) (m : Nat) (v : Bool) : State :=
  let s := s.modTask m fun t => { t with suspended := v }
  let s := ((s.setBit (statKey m 0) 3 v).setBit P.prgSuspendVector m v).prgSums
  if v then (s.ev 2 "TASK_SUSPENDED" [m]).gaugeAuto 6 else s.setFld (statKey m 0) 7 4 0

/-- Every task whose agreed misses have reached its limit is suspended where `ESCALATE` says so (R184). -/
def State.suspendDue (s : State) : State :=
  s.each s.allTasks fun s m =>
    if s.fld (taskKey m 0) 18 17 == 1 && !(s.task m).suspended &&
        decide (s.fld (taskKey m 0) 16 13 ≤ s.fld (statKey m 0) 7 4) then s.suspend m true
    else s

/-! ### Online change: the switch of a task (R213, R216, R217, R226) -/

def State.chgPhase (s : State) : Nat := s.fld P.prgChangeStatus 15 13
def State.setChgPhase (s : State) (ph : Nat) : State := s.setFld P.prgChangeStatus 15 13 ph

abbrev ctKey (m w : Nat) : Nat := tkey 0x40C3 m w

/-- The new row of task m in the package of the change in progress. (DEDUCED, log entry 26) -/
def State.newRow (s : State) (m : Nat) : List U32 := (s.change.package.map fun k => k.tasks.getD m []).getD []

/-- A row of a program's task table installed: the fields that are written stay as configured (R166). -/
def State.setTaskRow (s : State) (m : Nat) (row : List U32) : State :=
  let old := s.word (taskKey m 0)
  let w0 := row.getD 0 0
  let w0 := withField (withField w0 18 17 (fieldOf old 18 17)) 16 13 (fieldOf old 16 13)
  s.setWords (taskKey m 0) [w0, row.getD 1 0, row.getD 2 0, row.getD 3 0]

/-- A task is done with the change: switched, first released, or removed. (DESIGN CHOICE, log entry 27) -/
def State.switchDone (s : State) (m k : Nat) : State :=
  let s := (s.setBit (ctKey m 0) 29 true).set64 (ctKey m 2) k
  let left := s.change.pending.filter (· != m)
  let s := { s with change.pending := left }
  let s := (s.setFld P.prgChangeStatus 5 0 left.length).gaugeRec 0x08 12 [] [] (leBytes 4 m ++ leBytes 8 k)
  if left.isEmpty && s.chgPhase == 5 then (s.setChgPhase 6).ev 2 "CHANGE_SAVING" [] else s

/-- A task switches to its new code at its first release at or after C (R213). (DEDUCED, log entry 26) -/
def State.switchTask (s : State) (m k : Nat) : State :=
  if s.chgPhase == 5 && s.change.pending.contains m && s.newRow m != [] then
    let s := (s.setTaskRow m (s.newRow m)).modTask m fun t => { t with newCode := true, migrated := false }
    s.switchDone m k
  else s

/-- One instance migrated (R217). -/
def State.migrateInst (s : State) (i : InstMove) : State :=
  match i.action with
  | 0 => s.each (s.memBytes i.oldAt i.len).zipIdx fun s x => s.putMem (i.newAt + x.2) x.1
  | 1 =>
    let old := i.fields.map fun f => (f.2.1, s.memBytes f.1 f.2.2)
    let s := s.each i.init.zipIdx fun s x => s.putMem (i.newAt + x.2) x.1
    s.each old fun s f => s.each f.2.zipIdx fun s x => s.putMem (f.1 + x.2) x.1
  | 2 =>
    s.each (List.range i.len) fun s j => s.putMem (i.newAt + j) (i.init.getD j 0)
  | _ => s

/-- The migration of task m, with its measured time in 0.01 µs (R216, R226). (DESIGN CHOICE, log entry 27) -/
def State.migrate (s : State) (m meas : Nat) : State :=
  let moves := (s.change.package.map fun k => k.moves.filter (·.task == m)).getD []
  let s := s.each moves fun s i => s.migrateInst i
  let s := s.modTask m fun t => { t with migrated := true }
  (s.setFld (ctKey m 1) 15 0 meas).maxWord P.prgChangeMigrMax (10 * meas)

/-! ### Releases (R183, R213) -/

/-- A task released at tick k, or its release skipped where the run before is not agreed complete (R182, R183). A suspended
task is not released, but switches (R184, R213). (DEDUCED, log entry 29) -/
def State.releaseTask (s : State) (m k : Nat) : State :=
  let t := s.task m
  if t.suspended then s.switchTask m k
  else if t.released.isSome && !t.agreed then
    let s := if t.late then s else ((s.modTask m fun t => { t with late := true }).setBit (statKey m 0) 2 true).taskMiss m
    (s.inc (statKey m 2)).taskMiss m
  else
    let s := s.switchTask m k
    let s := s.modTask m fun t =>
      { t with
        released := some k
        finished := false
        agreed := false
        late := false
        started := false
        fresh := none
        acc := RunEffects.none
        randCalls := 0 }
    s.setBit (statKey m 0) 1 true

/-- The row by which task m is due at tick k: the new program's from C on (R213). -/
def State.dueRow (s : State) (m k : Nat) : List U32 :=
  if s.chgPhase == 5 && decide (s.change.commit ≤ k) then
    (if s.change.pending.contains m then s.newRow m else s.entry 0x40C0 m 4)
  else s.entry 0x40C0 m 4

/-- Whether a periodic task is due at tick k (R24, R165). -/
def State.periodicDue (s : State) (m k : Nat) : Bool :=
  let row := s.dueRow m k
  let period := fieldOf (row.getD 1 0) 31 16
  fieldOf (row.getD 0 0) 31 30 == 1 && period != 0 && sinceTick k (fieldOf (row.getD 1 0) 15 0) % period == 0

/-- Whether a task of a kind is bound to trunk p by its due row. -/
def State.boundTo (s : State) (kind m k p : Nat) : Bool :=
  let row := s.dueRow m k
  fieldOf (row.getD 0 0) 31 30 == kind && fieldOf (row.getD 0 0) 22 19 == p

/-- The releases of tick k, for the trunks published at its Intake and those with a change list (R165, R169, R197). -/
def State.releases (s : State) (k : Nat) (published changed : List Nat) : State :=
  if !s.running then s
  else
    let ids := List.range 32
    let s := s.each (ids.filter fun m => s.periodicDue m k) fun s m => s.releaseTask m k
    let s := s.each changed fun s p =>
      match ids.find? fun m => s.boundTo 3 m k p with
      | none => s
      | some m =>
        let skip := (s.task m).released.isSome && !(s.task m).agreed
        let s := s.releaseTask m k
        if skip || (s.task m).suspended then s else { s with prog.chain := Sys2Proof.setBit s.prog.chain p true }
    s.each published fun s p =>
      s.each (ids.filter fun m => s.boundTo 2 m k p) fun s m => s.releaseTask m k

/-! ### Program windows (R167, R169) -/

/-- Whether task m may start or continue: released, unfinished, migrated, and not held by its trunk's ERROR run (R169). -/
def State.taskReady (s : State) (m : Nat) : Bool :=
  let t := s.task m
  t.released.isSome && !t.finished &&
    (t.started || !(s.taskKind m == 2 && hasBit s.prog.chain (s.taskTrunk m)))

/-- The ready task of highest priority of an EP (R167). -/
def State.pick (s : State) (ep : Nat) : Option Nat :=
  (s.allTasks.filter fun m => s.taskEp m == ep && s.taskReady m).foldl (fun b m => match b with
    | none => some m
    | some x => if s.taskPrio m < s.taskPrio x then some m else some x) none

/-- Every EP that runs nothing starts or continues its next task. -/
def State.fillEps (s : State) : State :=
  s.each (List.range 4) fun s ep =>
    match s.prog.running.getD ep none with
    | some _ => s
    | none =>
      match s.pick ep with
      | some m =>
        let s := { s with prog.running := s.prog.running.set ep (some m) }
        s.modTask m fun t => { t with started := true }
      | none => s

/-! ### Agreed completion (R179 to R182) -/

/-- The completion vector at 110 µs (R179). -/
def State.completion (s : State) : Nat :=
  s.allTasks.foldl (fun v m => if (s.task m).released.isSome && (s.task m).finished then v + 2 ^ m else v) 0

/-- Outputs of a run over those of earlier runs. -/
def mergeOuts (old new : List (Nat × U64 × U64)) : List (Nat × U64 × U64) :=
  old.filter (fun o => !new.any fun n => n.1 == o.1) ++ new

/-- The completions of tick k agreed from both vectors, or from the module's own (R179, R180): the outputs of a run on time
become the task's outputs; a late run's are discarded (R182). -/
def State.agreeRuns (s : State) (agreedVec : Nat) : State :=
  let k := s.time.tick
  s.each s.allTasks fun s m =>
    let t := s.task m
    if t.released.isSome && !t.agreed && hasBit agreedVec m then
      let eff := t.fresh.getD RunEffects.none
      let s := s.modTask m fun t =>
        { t with
          agreed := true
          effects := some eff
          kept := if t.late then t.kept else mergeOuts t.kept eff.outs }
      let s := s.setBit (statKey m 0) 2 false
      let s := if t.late then s
        else (s.each eff.outs fun s o => s.setPm64 o.1 o.2.1 o.2.2).taskOnTime m
      let s := if t.newCode && !t.late then
          { s with change.orphans := s.change.orphans.filter fun o =>
              !eff.outs.any fun w => w.1 == o.1.offset && w.2.1 &&& o.1.mask != 0#64 }
        else s
      if s.chgPhase == 5 && s.change.pending.contains m && s.newRow m == [] then
        (s.setWords (taskKey m 0) [0, 0, 0, 0]).switchDone m k
      else s
    else s

/-- Whether a task writes words of a range of the process memory. -/
def TaskS.writes (t : TaskS) (lo hi : Nat) : Bool :=
  (t.kept ++ (t.fresh.map (·.outs)).getD []).any fun o => decide (lo ≤ o.1) && decide (o.1 < hi)

/-! ### Forces (R199 to R201) -/

abbrev forceKey (e w : Nat) : Nat := tkey 0x40C5 e w

/-- The entries in use of the current force table, in order: offset, mask and value of those of a direction. -/
def State.forces (s : State) (dir : Bool) : List (Nat × U64 × U64) :=
  s.words.filterMap fun (x : Nat × U32) =>
    if tkey 0x40C5 0 0 ≤ x.1 ∧ x.1 < tkey 0x40C6 0 0 ∧ x.1 % 64 = 0 ∧ x.2.getLsbD 31 ∧ x.2.getLsbD 30 = dir then
      some ((s.word (x.1 + 1)).toNat, BitVec.ofNat 64 (s.get64 (x.1 + 2)), BitVec.ofNat 64 (s.get64 (x.1 + 4)))
    else none

/-- The readouts of the force table (R201, R206, R207, R414). -/
def State.forceSums (s : State) : State :=
  let n := (s.forces false).length + (s.forces true).length
  let s := (s.setWord P.prgForceCount (w32 n)).setBit P.prgStatus 14 (n != 0)
  { s with prog.heldForces := n }

/-- The staged force table copied into the table in force, or both emptied (R199). -/
def State.applyForces (s : State) (commit : Bool) : State :=
  let cur (k : Nat) : Bool := decide (tkey 0x40C5 0 0 ≤ k) && decide (k < tkey 0x40C6 0 0)
  let stg (k : Nat) : Bool := decide (tkey 0x40C2 0 0 ≤ k) && decide (k < tkey 0x40C3 0 0)
  let staged := s.words.filter fun (x : Nat × U32) => stg x.1
  let s := s.keepWords fun k => !cur k && (commit || !stg k)
  let s := if commit then s.each staged fun s x => s.setWord (x.1 + 3 * 2 ^ 20) x.2 else s
  let s := s.forceSums
  s.gaugeRec 0x07 (24 * (s.word P.prgForceCount).toNat) [] (s.words.filter fun (x : Nat × U32) => cur x.1) []

/-- The quality bits that show a forced input word (R172, R176). -/
def State.markForced (s : State) (off : Nat) (mask : U64) : State :=
  if off < 0x40000 then
    let i := off % 0x4000 / 8
    if i < 768 then
      let q := inImage (off / 0x4000) + 0x1800 + i
      s.setPmByte q (s.pmByte q ||| 0x10#8)
    else s
  else if off = localImage then
    let g := (List.range 4).foldl (fun m g => if fieldOf (w32 mask.toNat) (4 * g + 3) (4 * g) != 0 then m + 2 ^ g else m) 0
    s.setPmByte (localImage + 5) (BitVec.ofNat 8 g)
  else if localImage + 0x240 ≤ off ∧ off < localImage + 0x260 then
    let k := (off - localImage - 0x240) / 4
    let mk (s : State) (k : Nat) : State :=
      s.setPmByte (localImage + 0x260 + k) (s.pmByte (localImage + 0x260 + k) ||| 0x10#8)
    (s.when (fieldOf (w32 mask.toNat) 31 0 != 0) fun s => mk s k).when (mask.toNat / 2 ^ 32 != 0) fun s => mk s (k + 1)
  else s

/-- The forced words put back as they were published, before an Intake publishes anew. (DEDUCED, log entry 25) -/
def State.unforce (s : State) : State :=
  let s' := s.each s.prog.underForce fun s x =>
    let s := s.pmPut x.1 8 x.2.toNat
    if x.1 < 0x40000 ∧ x.1 % 0x4000 / 8 < 768 then
      let q := inImage (x.1 / 0x4000) + 0x1800 + x.1 % 0x4000 / 8
      s.setPmByte q (s.pmByte q &&& 0xEF#8)
    else s
  { s' with prog.underForce := [] }

/-- The input forces applied at an Intake, over every input image (R200). (DEDUCED, log entry 25) -/
def State.forceInputs (s : State) : State :=
  s.each (s.forces false) fun s f =>
    let s := { s with prog.underForce := (f.1, s.pm64 f.1) :: s.prog.underForce }
    (s.setPm64 f.1 f.2.1 f.2.2).markForced f.1 f.2.1

/-- An output word with the output forces over it (R200). -/
def State.forcedOut (s : State) (off : Nat) (w : U64) : U64 :=
  (s.forces true).foldl (fun w f => if f.1 = off then (w &&& ~~~f.2.1) ||| (f.2.2 &&& f.2.1) else w) w

/-! ### Output cuts (R117, R175, R180, R181, R218) -/

/-- Whether trunk p has its output cut at 110 µs of tick k (R117). (DEDUCED, log entry 30) -/
def State.cutAt (s : State) (p k : Nat) : Bool :=
  match (s.port p).cur with
  | some c => s.sys.mode.run && (s.port p).begun && c.offsetOf k + 1 == c.bcast
  | none => false

/-- The orphans in force: those whose old writer has switched or gone take their value (R218). (DEDUCED, log entry 33) -/
def State.raiseOrphans (s : State) : State :=
  if s.chgPhase ≠ 5 ∧ s.chgPhase ≠ 6 then s
  else
    let all := (s.change.package.map (·.orphans)).getD []
    let due := all.filter fun o =>
      !(s.change.orphans.any fun x => x.1 == o) &&
        !(s.allTasks.any fun m => s.change.pending.contains m &&
          (s.task m).kept.any fun w => w.1 == o.offset && w.2.1 &&& o.mask != 0#64)
    { s with change.orphans := s.change.orphans ++ due.map fun o => (o, if o.hold then s.pm64 o.offset else o.subst) }

/-- Every orphan at its value (R218). (DEDUCED, log entry 33) -/
def State.holdOrphans (s : State) : State :=
  let s := s.raiseOrphans
  s.each s.change.orphans fun s o => s.setPm64 o.1.offset o.1.mask o.2

/-- The words and marks of trunk p's output image at its cut (R105, R175, R180): the tasks whose run is not agreed keep
their values, with `KEPT`; forces lie over the frozen words. -/
def State.cutTrunk (s : State) (p k : Nat) : State :=
  s.withSched p fun c =>
    let q := s.port p
    let j := q.pos c
    let lo := outImage p
    let open_ (t : TaskS) : Bool := t.suspended || (t.released.isSome && !t.agreed)
    let keptWords := (s.allTasks.filter fun m => open_ (s.task m)).flatMap fun m => (s.task m).kept.map (·.1)
    let idxs := (s.allTasks.flatMap fun m => (s.task m).kept.map (·.1)).filter fun o =>
      decide (lo ≤ o) && decide (o < lo + 0x1800)
    let s := s.each idxs.eraseDups fun s o =>
      let forced := (s.forces true).any fun f => f.1 == o
      s.setPmByte (lo + 0x1800 + (o - lo) / 8)
        (BitVec.ofNat 8 (16 * forced.toNat + 8 * (keptWords.contains o).toNat))
    let late := idxs.any fun o => keptWords.contains o
    let st := P.schedStatus p
    let first := late && !s.bit st 10
    let s := (s.setBit st 10 late).when late fun s => s.inc (P.schedOutMiss p)
    let s := s.when first fun s => s.ev 1 "OUTPUT_LATE" [p]
    let s := ((s.pmPut (lo + 0x1BC0) 8 q.cycle).pmPut (lo + 0x1BC8) 8 k).pmPut (lo + 0x1BD8) 4 (2 * late.toNat)
    let words := (List.range (c.width j)).map fun n =>
      match c.entries.find? fun e => e.usedIn j && e.outWord == n with
      | some e =>
        let off := lo + partIdx e.addr e.part * 8
        s.forcedOut off (s.pm64 off)
      | none => 0#64
    s.modPort p fun q => { q with outWords := words, outForced := s.forced, outClaim := s.pair.claim }

/-- The local outputs frozen (R181): the digital commands, and the commanded currents. -/
def State.cutLocal (s : State) : State :=
  let d := s.forcedOut (localImage + 0x400) (s.pm64 (localImage + 0x400))
  let cl := (List.range 4).flatMap fun i =>
    let w := s.forcedOut (localImage + 0x410 + 8 * i) (s.pm64 (localImage + 0x410 + 8 * i))
    [w32 w.toNat, w32 (w.toNat / 2 ^ 32)]
  { s with prog.localCut := some (w32 d.toNat, cl) }

/-! ### Effects of agreed runs (R158, R160, R178, R188) -/

/-- A transmit entry submitted by the program (R160). -/
def State.txqSubmit (s : State) (p e : Nat) (ws : List U32) : State :=
  if s.fld (txKey p e 0) 7 6 ≠ 0 then s.inc (P.trkTxqOvf p)
  else
    let mcmd := fieldOf (ws.getD 0 0) 23 16
    let s := s.setWord (txKey p e 0) (ws.getD 0 0 &&& 0xFFFF0F00#32)
    let s := s.setWords (txKey p e 1) (List.replicate 3 0)
    let s := (s.setWords (txKey p e 4) ((List.range 16).map fun i => ws.getD (4 + i) 0)).setWords (txKey p e 20)
      (List.replicate 16 0)
    let s := s.modPort p fun q => { q with txqSubs := q.txqSubs.modify e (· + 1) }
    if mcmd = 0x20 ∨ (0x40 ≤ mcmd ∧ mcmd ≤ 0x7F) then
      (s.setFld (txKey p e 0) 7 6 1).modPort p fun q => { q with txqOrder := q.txqOrder ++ [e] }
    else (s.setFld (txKey p e 0) 7 6 3).setFld (txKey p e 1) 23 16 2

/-- A receive entry acknowledged (R158). -/
def State.rxqAck (s : State) (p e : Nat) : State := s.setBit (rxKey p e 0) 0 false

/-- A DONE or FAILED transmit entry returned to FREE (R160). -/
def State.txqFree (s : State) (p e : Nat) : State :=
  if 2 ≤ s.fld (txKey p e 0) 7 6 then s.setFld (txKey p e 0) 7 6 0 else s

/-- The other effects of every run agreed complete, at the Intake that follows (R178). -/
def State.commitEffects (s : State) : State :=
  s.each s.allTasks fun s m =>
    match (s.task m).effects with
    | none => s
    | some e =>
      let s := s.putCells e.vars
      let s := s.each e.rxqAcks fun s x => s.rxqAck x.1 x.2
      let s := s.each e.txqFrees fun s x => s.txqFree x.1 x.2
      let s := s.each e.txqPuts fun s x => s.txqSubmit x.1 x.2.1 x.2.2
      let used := s.prog.inboxUsed.filter fun (i : Nat × Nat) => !e.inboxReads.any fun j => j.val == i.1
      let out := if s.sys.mode == .trail then [] else e.outbox
      let s := { s with prog.inboxUsed := used, prog.outbox := s.prog.outbox ++ out }
      s.modTask m fun t => { t with effects := none }

/-! ### Start and stop of the program (R164, R189, R202, R205, R236) -/

/-- The marked retentive buffer of the program with the highest generation (R205, R215). -/
def State.retained (s : State) (hash : List Byte) : Option (Nat × Nat × List Byte × List (Nat × Byte)) :=
  (s.prog.retainMark.filter fun b => b.2.2.1 == hash).foldl (fun r b => match r with
    | none => some b
    | some x => if x.2.1 < b.2.1 then some b else some x) none

/-- The retentive data as they stand now (R204). -/
def State.retainCells (s : State) : List (Nat × Byte) :=
  ((s.prog.package.map (·.retain)).getD []).flatMap fun r => (List.range r.2).map fun i => (r.1 + i, s.memByte (r.1 + i))

/-- No EP runs a task. -/
def State.idleEps (s : State) : State := { s with prog.running := List.replicate 4 none }

/-- The program that runs (R164). -/
def State.setPackage (s : State) (k : Package) : State := { s with prog.package := some k, prog.hash := k.hash }

/-- A program image loaded: its task table, the sizes it shows, and its firmware regions (R166, R206, R207, R506). -/
def State.loadTasks (s : State) (k : Package) : State :=
  let s := (s.each (List.range 32) fun s m => s.setTaskRow m (k.tasks.getD m [])).loadLoops k.loopWords true
  let s := (s.setFld P.prgStatus 5 0 s.allTasks.length).setWord P.prgRetainSize (w32 k.retainBytes)
  s.guardLoad.setPackage k

/-- No task holds a run. -/
def State.freshTasks (s : State) : State :=
  let s := { s with
    prog.tasks := List.replicate 32 TaskS.fresh0
    prog.running := List.replicate 4 none
    prog.chain := 0
    prog.localCut := none
    prog.underForce := []
    prog.changes := []
    prog.changeKept := [] }
  (s.each (List.range 32) fun s m => s.setFld (statKey m 0) 7 0 0).setWord P.prgLateVector 0

/-- The pair seed drawn by the module's true random generator (R189). (DESIGN CHOICE, log entry 5; DEDUCED, log entry 98) -/
def State.drawSeed (s : State) : State :=
  let r := s.drawBytes 32
  ({ r.2 with prog.seed := r.1 }).gaugeRec 0x06 32 [] [] r.1

/-- The program starts in STANDALONE (R202, R205). (DEDUCED, log entries 32 and 98) -/
def State.startProgram (s : State) : State :=
  match s.prog.package with
  | none => s
  | some k =>
    let held := s.prog.heldForces
    let s := (s.freshTasks.loadTasks k).clearPm.keepDram fun a => !isPrgData a
    let s := (s.putCells k.initCells).applyForces false
    let s := s.when (held != 0) fun s => (s.setBit P.prgStatus 8 true).ev 2 "FORCE_DROPPED" [held]
    let warm := s.word P.prgStartMode == 1#32
    let buf : Option (Nat × Nat × List Byte × List (Nat × Byte)) := s.retained k.hash
    let s := (s.setBit P.prgStatus 13 (warm && buf.isSome)).setBit P.prgStatus 12 (warm && buf.isSome)
    let s := match buf with
      | some b => if warm then s.putCells b.2.2.2 else s
      | none => s
    let s := (s.setBit P.prgStatus 15 true).startLoops.drawSeed
    let next := s.time.tick + (s.word P.prgRetainPeriod).toNat
    { s with prog.inboxUsed := [], prog.inbox := [], prog.outbox := [], prog.lastValid := [], prog.retainNext := next }

/-- The program stops: no task runs, the Gauge stops, and nothing is released (R391, R409). -/
def State.stopProgram (s : State) : State :=
  if s.running then
    let s := s.freshTasks.gaugeStop.stopLoops
    let s := (s.setBit P.prgStatus 15 false).prgSums
    { s with prog.retainBusy := none }
  else s

end Sys2Proof.Machine
end

