-- ==== Sys2Proof/Machine/Program.lean ====
section
/-!
DEFINITION. Program execution (file 06): program windows and the ends of runs, the system blocks, retentive data, forces, the
resumption of tasks, and messages to and from the program.
-/

namespace Sys2Proof.Machine

/-! ### Program windows -/

/-- PROGRAM_WINDOW_OPEN (R167, R216): at 55 µs the tasks that switched in this tick migrate in the order of their new
priority, then each EP starts or continues its ready task of highest priority. `meas` gives measured migration times. -/
def execProgramWindowOpen (meas : List (Nat × Nat)) (s : State) : Res :=
  .next <|
    if !s.running then s
    else
      let due := s.allTasks.filter fun m => (s.task m).newCode && !(s.task m).migrated
      let s := s.each (sortBy (fun m => s.taskPrio m) due) fun s m => s.migrate m (wordOf meas m)
      s.idleEps.fillEps

/-- The end of the run of task m, which leaves `eff` (R169, R178, R185). -/
def State.finishRun (s : State) (m : Nat) (eff : RunEffects) : State :=
  let all := (s.task m).acc.add eff
  let err := s.taskKind m == 3
  let s := s.putCells eff.inst
  let s := if err then s.putCells all.vars else s
  let s := s.modTask m fun t =>
    { t with
      finished := true
      fresh := some (if err then { all with vars := [] } else all) }
  let s := (s.setBit (statKey m 0) 1 false).setFld (statKey m 3) 31 16 (max (s.fld (statKey m 3) 31 16) (min eff.micros 65535))
  { s with prog.chain := if err then Sys2Proof.setBit s.prog.chain (s.taskTrunk m) false else s.prog.chain }

/-- RUN_FINISH (R167, R169, R178): the run of task m ends within the program window, leaving `eff`. An ERROR run's shared
variables are read at once by the trunk-bound runs it held; the EPs that are free take their next tasks. -/
def execRunFinish (m : Fin 32) (eff : RunEffects) (s : State) : Res :=
  .next <|
    let ep := s.taskEp m
    if s.prog.running.getD ep none != some m.val then s
    else
      let s := s.finishRun m eff
      { s with prog.running := s.prog.running.set ep none }.fillEps

/-! ### System blocks (R190 to R194) -/

/-- A call by the run of task m that its EP executes now; other calls find no caller. (DEDUCED, log entry 32) -/
def State.call (s : State) (m : Nat) (f : State → Nat → State) : State :=
  match (s.task m).released with
  | some k => if s.prog.running.getD (s.taskEp m) none == some m && !(s.task m).finished then f s k else s
  | none => s

/-- What a call answers to its caller. (DEDUCED, log entry 32) -/
def State.answer (s : State) (r : List U64) : State := { s with prog.sbResult := r }

/-- An effect that the run has left by a call, to take effect as R178 states. -/
def State.leave (s : State) (m : Nat) (e : RunEffects → RunEffects) : State :=
  s.modTask m fun t => { t with acc := e t.acc }

def State.memGet (s : State) (a n : Nat) : Nat := ofLe (s.memBytes a n)
def State.memPut (s : State) (a n v : Nat) : State := s.each (leBytes n v).zipIdx fun s x => s.putMem (a + x.2) x.1

/-- A timer instance as its fields (R191). -/
structure Timer where
  et : Nat
  start : Nat
  q : Bool
  inPrev : Bool
  primed : Bool
  timing : Bool
  deriving DecidableEq, Repr

def State.timer (s : State) (a : Nat) : Timer :=
  let w := w32 (s.memGet a 4)
  { et := s.memGet (a + 24) 8, start := s.memGet (a + 8) 8, q := w.getLsbD 31, inPrev := w.getLsbD 30,
    primed := w.getLsbD 29, timing := w.getLsbD 28 }

/-- A timer instance written back after a call (R191, R192): `IN_PREV` takes IN and `PRIMED` is set. -/
def State.putTimer (s : State) (a kind pt : Nat) (i : Bool) (t : Timer) : State :=
  let w := t.q.toNat * 2 ^ 31 + i.toNat * 2 ^ 30 + 2 ^ 29 + t.timing.toNat * 2 ^ 28 + kind * 2 ^ 24
  (((s.memPut a 4 w).memPut (a + 8) 8 t.start).memPut (a + 16) 8 pt).memPut (a + 24) 8 t.et

/-- min(T − START, PT) on 64 bits (R192). -/
def elapsed (t start pt : Nat) : Nat := min ((t + 2 ^ 64 - start) % 2 ^ 64) pt

def Timer.ton (x : Timer) (t pt : Nat) (i : Bool) : Timer :=
  if i then
    let start := if !x.inPrev || !x.primed then t else x.start
    let et := elapsed t start pt
    { x with start := start, et := et, q := et == pt }
  else { x with et := 0, q := false }

def Timer.tof (x : Timer) (t pt : Nat) (i : Bool) : Timer :=
  if i then { x with timing := false, et := 0, q := true }
  else
    let x := if x.inPrev && x.primed then { x with start := t, timing := true } else x
    if x.timing then
      let et := elapsed t x.start pt
      if et = pt then { x with et := et, timing := false, q := false } else { x with et := et }
    else x

def Timer.tp (x : Timer) (t pt : Nat) (i : Bool) : Timer :=
  let x := if !x.timing && i && !x.inPrev && x.primed then { x with start := t, timing := true } else x
  let x := if x.timing then
      let et := elapsed t x.start pt
      if et = pt then { x with et := et, timing := false } else { x with et := et }
    else if !i then { x with et := 0 }
    else x
  { x with q := x.timing }

/-- A call of a timer (R192), with T the tick-start plant time of the run's release tick; it answers Q and ET. -/
def State.callTimer (s : State) (m a kind pt : Nat) (i : Bool) (f : Timer → Nat → Nat → Bool → Timer) : State :=
  s.call m fun s k =>
    let t := f (s.timer a) (k * 125000 % 2 ^ 64) (pt % 2 ^ 64) i
    (s.putTimer a kind pt i t).answer [BitVec.ofNat 64 t.q.toNat, BitVec.ofNat 64 t.et]

/-- TON (R192). -/
def execTon (m : Fin 32) (addr : Nat) (input : Bool) (pt : U64) (s : State) : Res :=
  .next (s.callTimer m addr 1 pt.toNat input Timer.ton)

/-- TOF (R192). -/
def execTof (m : Fin 32) (addr : Nat) (input : Bool) (pt : U64) (s : State) : Res :=
  .next (s.callTimer m addr 2 pt.toNat input Timer.tof)

/-- TP (R192). -/
def execTp (m : Fin 32) (addr : Nat) (input : Bool) (pt : U64) (s : State) : Res :=
  .next (s.callTimer m addr 3 pt.toNat input Timer.tp)

/-- A call of a counter (R193); it answers QU, QD and CV. -/
def State.callCounter (s : State) (m a kind : Nat) (cu cd r ld : Bool) (pv : U32) : State :=
  s.call m fun s _ =>
    let w := w32 (s.memGet a 4)
    let cv := w32 (s.memGet (a + 8) 4)
    let primed := w.getLsbD 27
    let up := cu && !w.getLsbD 29 && primed
    let down := cd && !w.getLsbD 28 && primed
    let cv : U32 :=
      if r then 0
      else if ld then pv
      else
        let c := if up && !down && cv != 0x7FFFFFFF#32 then cv + 1 else cv
        if down && !up && c != 0x80000000#32 then c - 1 else c
    let qu := decide (pv.toInt ≤ cv.toInt)
    let qd := decide (cv.toInt ≤ 0)
    let w' := qu.toNat * 2 ^ 31 + qd.toNat * 2 ^ 30 + cu.toNat * 2 ^ 29 + cd.toNat * 2 ^ 28 + 2 ^ 27 + kind * 2 ^ 24
    (((s.memPut a 4 w').memPut (a + 8) 4 cv.toNat).memPut (a + 12) 4 pv.toNat).answer
      [BitVec.ofNat 64 qu.toNat, BitVec.ofNat 64 qd.toNat, cv.setWidth 64]

/-- CTU (R193). -/
def execCtu (m : Fin 32) (addr : Nat) (cu r : Bool) (pv : U32) (s : State) : Res :=
  .next (s.callCounter m addr 1 cu false r false pv)

/-- CTD (R193). -/
def execCtd (m : Fin 32) (addr : Nat) (cd ld : Bool) (pv : U32) (s : State) : Res :=
  .next (s.callCounter m addr 2 false cd false ld pv)

/-- CTUD (R193). -/
def execCtud (m : Fin 32) (addr : Nat) (cu cd r ld : Bool) (pv : U32) (s : State) : Res :=
  .next (s.callCounter m addr 3 cu cd r ld pv)

/-- A call of an edge detector (R194); it answers Q. -/
def State.callEdge (s : State) (m a kind : Nat) (clk : Bool) (edge : Bool → Bool) : State :=
  s.call m fun s _ =>
    let w := w32 (s.memGet a 4)
    let q := w.getLsbD 29 && edge (w.getLsbD 30)
    (s.memPut a 4 (q.toNat * 2 ^ 31 + clk.toNat * 2 ^ 30 + 2 ^ 29 + kind * 2 ^ 24)).answer [BitVec.ofNat 64 q.toNat]

/-- R_TRIG (R194). -/
def execRTrig (m : Fin 32) (addr : Nat) (clk : Bool) (s : State) : Res :=
  .next (s.callEdge m addr 1 clk fun prev => clk && !prev)

/-- F_TRIG (R194). -/
def execFTrig (m : Fin 32) (addr : Nat) (clk : Bool) (s : State) : Res :=
  .next (s.callEdge m addr 2 clk fun prev => !clk && prev)

/-- SB_TIME (R45, R46): the tick count, tick-start plant time and microsecond count of the run's release tick. -/
def execSbTime (m : Fin 32) (s : State) : Res :=
  .next <| s.call m fun s k =>
    s.answer [BitVec.ofNat 64 k, BitVec.ofNat 64 (k * 125000), BitVec.ofNat 64 (k * 125 % 2 ^ 32)]

/-- SB_TASK_INFO (R185, R190): the caller's own status entry. -/
def execSbTaskInfo (m : Fin 32) (s : State) : Res :=
  .next <| s.call m fun s _ => s.answer ((s.entry 0x40C1 m 4).map fun w => w.setWidth 64)

/-- SB_STATION_STATE (R171, R190): `STATE` and the four quality bytes of one address, as published. -/
def execSbStationState (m : Fin 32) (p : Fin 16) (addr : U8) (s : State) : Res :=
  .next <| s.call m fun s _ =>
    let a := addr.toNat
    if a < 1 ∨ 192 < a then s.answer []
    else s.answer ((s.pmByte (inImage p + 0x1B00 + a - 1)).setWidth 64 ::
      (List.range 4).map fun k => (s.pmByte (inImage p + 0x1800 + partIdx a k)).setWidth 64)

/-- The words of a queue entry as a call answers them. -/
def State.entryOut (s : State) (tid e n : Nat) : List U64 := (s.entry tid e n).map fun w => w.setWidth 64

/-- SB_RXQ_GET (R158, R190): a receive entry, while the program owns it. -/
def execSbRxqGet (m : Fin 32) (p : Fin 16) (e : Fin 64) (s : State) : Res :=
  .next <| s.call m fun s _ =>
    s.answer (if s.bit (rxKey p e 0) 0 then s.entryOut (0x20C6 + 0x100 * p) e 20 else [])

/-- SB_RXQ_ACK (R158, R178): the entry is acknowledged when the run's effects take effect. -/
def execSbRxqAck (m : Fin 32) (p : Fin 16) (e : Fin 64) (s : State) : Res :=
  .next <| s.call m fun s _ => s.leave m fun x => { x with rxqAcks := x.rxqAcks ++ [(p, e)] }

/-- SB_TXQ_SUBMIT (R160, R178): a transmit entry filled with `words` is submitted when the run's effects take effect. -/
def execSbTxqSubmit (m : Fin 32) (p e : Fin 16) (words : List U32) (s : State) : Res :=
  .next <| s.call m fun s _ => s.leave m fun x => { x with txqPuts := x.txqPuts ++ [(p, e, words)] }

/-- SB_TXQ_GET (R160, R162): the outcome of a transmit entry; `free` returns it to FREE by R178. -/
def execSbTxqGet (m : Fin 32) (p e : Fin 16) (free : Bool) (s : State) : Res :=
  .next <| s.call m fun s _ =>
    let s := s.answer (s.entryOut (0x20C7 + 0x100 * p) e 36)
    if free then s.leave m fun x => { x with txqFrees := x.txqFrees ++ [(p, e)] } else s

/-- SB_MBX_RECV (R188): the message of an inbox slot: its length, then its bytes. The slot is free again by R178. -/
def execSbMbxRecv (m : Fin 32) (slot : Fin 16) (s : State) : Res :=
  .next <| s.call m fun s _ =>
    match s.prog.inboxUsed.find? (·.1 == slot.val) with
    | none => s.answer []
    | some (_, n) =>
      let s := s.answer (BitVec.ofNat 64 n :: (Cmap.getAll byteDflt s.pm (inboxSlot slot) n).map fun b => b.setWidth 64)
      s.leave m fun x => { x with inboxReads := x.inboxReads ++ [slot] }

/-- SB_MBX_SEND (R188): a message of at most 4 KiB for the outbox, by R178. -/
def execSbMbxSend (m : Fin 32) (msg : List Byte) (s : State) : Res :=
  .next <| s.call m fun s _ => s.leave m fun x => { x with outbox := x.outbox ++ [msg.take 4096] }

/-- SB_RAND (R189). -/
def execSbRand (m : Fin 32) (s : State) : Res :=
  .next <| s.call m fun s k =>
    let i := (s.task m).randCalls
    let b := shake256 (s.prog.seed ++ leBytes 1 m ++ leBytes 8 k ++ leBytes 4 i) 4
    (s.answer [BitVec.ofNat 64 (ofLe b)]).modTask m fun t => { t with randCalls := i + 1 }

/-! ### Retentive data (R203, R204) -/

/-- RETAIN_SAVE (R204): a save is due. While the one before has not finished it is skipped; saves stop from a commit tick to
the full save of R214. -/
def execRetainSave (s : State) : Res :=
  .next <|
    if !s.running || decide (s.time.tick < s.prog.retainNext) || s.chgPhase == 5 || s.chgPhase == 6 then s
    else
      let next := s.time.tick + (s.word P.prgRetainPeriod).toNat
      let s := { s with prog.retainNext := next }
      match s.prog.retainBusy with
      | some _ => s.inc P.prgRetainSkip
      | none =>
        let gen := s.prog.retainGen + 1
        let older : Nat := match (s.prog.retainMark.find? fun b => b.1 == 0), (s.prog.retainMark.find? fun b => b.1 == 1) with
          | none, _ => 0
          | some _, none => 1
          | some a, some b => if a.2.1 < b.2.1 then 0 else 1
        { s with
          prog.retainBusy := some (older, gen, s.retainCells)
          prog.retainMark := s.prog.retainMark.filter fun b => b.1 != older
          prog.retainGen := gen }

/-- RETAIN_SAVE_DONE (R203, R204): the buffer's generation, then its mark, are written. -/
def execRetainSaveDone (s : State) : Res :=
  .next <|
    match s.prog.retainBusy with
    | none => s
    | some (b, gen, cells) =>
      { s.setBit P.prgStatus 12 true with
        prog.retainBusy := none
        prog.retainMark := s.prog.retainMark ++ [(b, gen, s.prog.hash, cells)] }

/-! ### Forces (R199) and the resumption of tasks (R184) -/

/-- A change that waits for a tick named by its command's own rule, sent as an ACTION to a trail (R292, R445), or to a module that
returns (R306). -/
def State.stageAction (s : State) (rq : Rq) (op arg eff : Nat) (item : StagedItem) (body : List Byte) : State :=
  let rel := s.paired
  let s := { s with kpr.staged := s.kpr.staged ++ [⟨eff, [item], some rq, op, rel, false, false, s.sync.fseq⟩] }
  if rel || s.serving then
    let r := s.message 3 body
    r.2.control 0x20 arg r.1 eff
  else s

/-- A force command (R199), executed by the module in LEAD or STANDALONE. -/
def State.forceCmd (s : State) (rq : Rq) (op arg : Nat) (commit : Bool) : State :=
  s.cmd rq op [0, 1] true s.sys.mode.run fun s =>
    if s.sys.mode == .trail then s.relay rq op []
    else s.starting rq op 1 0 none fun s =>
      s.stageAction rq op arg (s.time.tick + (s.word P.prgForceDelay).toNat) (.forces commit) []

/-- PRG_FORCE_COMMIT (R199). -/
def execPrgForceCommit (rq : Rq) (s : State) : Res := .next (s.forceCmd rq 0x0403 1 true)

/-- PRG_FORCE_CLEAR (R199). -/
def execPrgForceClear (rq : Rq) (s : State) : Res := .next (s.forceCmd rq 0x0404 2 false)

/-- The force commands due at tick k take effect and are answered. -/
def State.forceEffect (s : State) (k : Nat) : State :=
  let due := s.kpr.staged.filter fun c => decide (c.effect ≤ k) && c.items.any StagedItem.isForces && (!c.relayed || c.acked)
  let s := { s with kpr.staged := s.kpr.staged.filter fun c => !due.contains c }
  let s := s.each due fun s c =>
    let s := s.each c.items fun s i => match i with
      | .forces b => s.applyForces b
      | _ => s
    match c.rq with
    | some rq => s.respond rq c.opcode St.ok 0 (leBytes 8 c.effect)
    | none => s
  s.when (!due.isEmpty) fun s => s.unforce.forceInputs

/-- FORCE_EFFECT (R199, R200, R445): the force commands due at this tick take effect from its Intake on, and are answered. -/
def execForceEffect (s : State) : Res := .next (s.forceEffect s.time.tick)

/-- PRG_TASK_RESUME (R184): the resume tick is 16 ticks away. (DEDUCED, log entry 28) -/
def execPrgTaskResume (rq : Rq) (task : U8) (s : State) : Res :=
  .next <| s.cmd rq 0x0405 [0] true s.sys.mode.run fun s =>
    if s.sys.mode == .trail then s.relay rq 0x0405 [task, 0, 0, 0]
    else if 32 ≤ task.toNat ∨ s.taskKind task.toNat = 0 then s.respond rq 0x0405 St.outOfRange 0 []
    else if !(s.task task.toNat).suspended then s.respond rq 0x0405 St.refused 0 []
    else s.stageAction rq 0x0405 3 (s.time.tick + 16) (.resume task.toNat) [task]

/-! ### Messages (R188) -/

/-- The inbox slots unread, with the messages that wait for their delivery tick. (DEDUCED, log entry 32) -/
def State.inboxLoad (s : State) : Nat := s.prog.inboxUsed.length + s.prog.inbox.length

/-- PRG_MSG_SEND (R188): a message of at most 4,096 bytes takes a delivery tick, and goes to the partner with it. A trail
forwards the request to its lead. -/
def execPrgMsgSend (rq : Rq) (msg : List Byte) (s : State) : Res :=
  .next <| s.cmd rq 0x0406 [3] true s.sys.mode.run fun s =>
    if 4096 < msg.length then s.respond rq 0x0406 St.badLength 0 []
    else if s.sys.mode == .trail then s.relay rq 0x0406 msg
    else if 16 ≤ s.inboxLoad then s.respond rq 0x0406 St.busy 0 []
    else
      let k := s.time.tick + (s.word P.prgMbxDelay).toNat
      let s := { s with prog.inbox := s.prog.inbox ++ [(k, msg)] }
      let s := if s.paired || s.serving then
          let r := s.message 1 msg
          r.2.control 0x20 5 r.1 k
        else s
      s.respond rq 0x0406 St.ok 0 (leBytes 8 k)

/-- PRG_MSG_OUT (R188, R446): the oldest outbox message goes out unsolicited on MB3, when a response entry is free. -/
def execPrgMsgOut (s : State) : Res :=
  .next <|
    match s.prog.outbox with
    | [] => s
    | msg :: rest =>
      let used := (s.kpr.resps.filter fun r => r.mb == (3 : Fin 8)).length
      if 16 ≤ used then s
      else { s with prog.outbox := rest }.unsolicited 3 0x0407 msg

end Sys2Proof.Machine
end

