-- ==== Sys2Proof/Machine/Change.lean ====
section
/-!
DEFINITION. The loop window (file 08) and online change (file 07): staging, the agreement of the commit tick, the commit, the
full save, and the commands that carry them.
-/

namespace Sys2Proof.Machine

/-- LOOP_WINDOW (R227 to R229, R245): the loop engine's work of this tick, with the units that are not complete by 55 µs and
the time that the window took. -/
def execLoopWindow (loops gens groups : List Nat) (ns : Nat) (s : State) : Res :=
  .next (if s.bit P.loopStatus 7 then (s.loopWindow s.time.tick loops gens groups).maxWord P.loopWindowMax ns else s)

/-! ### Refusals (R209, R221, R222) -/

/-- The cause of a refusal shown (R222, R225). (DEDUCED, log entry 76) -/
def State.chgRefuse (s : State) (cause : Nat) : State :=
  (s.setFld P.prgChangeStatus 12 9 cause).setBit P.prgChangeStatus 8 true

/-- The cause for which staging of a package is refused, or 0 (R209, R210, R222, R244). -/
def State.stageCause (s : State) (k : Package) (signed : Bool) : Nat :=
  if !signed then 1
  else if k.base != s.prog.hash then 2
  else if k.execLevel != fieldOf s.levels 23 16 then 3
  else if !k.limitsOk then 4
  else if !s.loopsOk k.loopWords false then 10
  else 0

/-- The program-window time from a task's release to its deadline, µs (R221). -/
def State.windowTime (s : State) (row : List U32) : Nat :=
  let w0 := row.getD 0 0
  if fieldOf w0 31 30 = 1 then 55 * fieldOf (row.getD 1 0) 31 16
  else match (s.port (fieldOf w0 22 19)).cur with
    | some c => 55 * (c.bcast - c.inputTicks.foldl max 0 - 1)
    | none => 0

/-- The migration-time conditions of R221. The tasks of one EP whose switching releases can fall in one tick are taken to be
all that switch on it. -/
def State.migrationFits (s : State) (k : Package) : Bool :=
  let rows := k.tasks.zipIdx.filter fun x => fieldOf (x.1.getD 0 0) 31 30 != 0
  rows.all (fun x =>
    let mt := k.mts.getD x.2 0
    decide (mt ≤ 50) && decide (mt + fieldOf (x.1.getD 3 0) 31 16 ≤ s.windowTime x.1)) &&
  (List.range 4).all fun ep =>
    ((rows.filter fun x => fieldOf (x.1.getD 0 0) 29 28 == ep).map fun x => k.mts.getD x.2 0).foldl (· + ·) 0 ≤ 50

/-! ### Staging (R209, R210) -/

/-- The package staged in both modules, or in the only one. -/
def State.stagedNow (s : State) : State :=
  ((s.setChgPhase 2).setBit P.prgChangeStatus 8 false).finish 0x0400 St.ok 0 []

/-- No package is held: the phase is NONE, and the copies are gone. -/
def State.dropPackage (s : State) : State :=
  let s := (s.setChgPhase 0).setBit P.prgChangeStatus 6 false
  { s with change.package := none, change.agree := none, change.ackSent := false, change.rq := none }

/-- PRG_CHANGE_STAGE (R209, R522, R523, R549 C1): the transferred object that `obj` names, the package that it holds, and what its
signature check gives. Both modules stage a copy; while a package is STAGED no other is (C1). -/
def execPrgChangeStage (rq : Rq) (obj : List Byte) (pkg : Package) (signed : Bool) (s : State) : Res :=
  .next <| s.cmd rq 0x0400 [0] true (s.sys.mode == .standalone || s.sys.mode == .lead) fun s =>
    let busy := if s.chgPhase == 2 then some 0 else s.conflict 0 true none
    match busy with
    | some a => (s.chgRefuse 7).refuseConflict rq 0x0400 7 a
    | none =>
      let c := s.stageCause pkg (signed && s.kpr.ownerKey.isSome)
      if !(s.img.objects.any fun (o : Obj) => o.kind == 2 && o.hash == obj) then s.respond rq 0x0400 St.refused 0 []
      else if c != 0 then (s.chgRefuse c).respond rq 0x0400 (if c == 1 then St.verifyFail else St.refused) c []
      else s.bg rq 0x0400 [] fun s =>
        let s := { s with img.objects := s.img.objects.filter fun (o : Obj) => o.hash != obj }
        let s := { s.setChgPhase 1 with change.package := some pkg, change.rq := some (rq.mb, rq.tag) }
        if s.paired then (s.message 2 pkg.hash).2 else s.stagedNow

/-- PRG_CHANGE_DISCARD (R209): refused once the phase has reached CONFIRMED. (DEDUCED, log entry 33) -/
def execPrgChangeDiscard (rq : Rq) (s : State) : Res :=
  .next <| s.cmd rq 0x0402 [0] true s.sys.mode.run fun s =>
    if s.sys.mode == .trail then s.relay rq 0x0402 []
    else if s.chgPhase == 0 || s.chgPhase == 7 || decide (4 ≤ s.chgPhase) then s.respond rq 0x0402 St.refused 0 []
    else
      let s := s.when s.paired fun s => (s.message 6 []).2
      let s := s.finish 0x0400 St.aborted 0 []
      (s.finish 0x0401 St.aborted 0 []).dropPackage.respond rq 0x0402 St.ok 0 []

/-! ### The agreement of the commit tick (R211, R212) -/

/-- The cause for which a commit at tick `c`, accepted in tick k0, is refused, or 0 (R221, R222). -/
def State.commitCause (s : State) (c k0 : Nat) : Nat :=
  match s.change.package with
  | none => 6
  | some k =>
    if k.base != s.prog.hash then 2
    else if k.execLevel != fieldOf s.levels 23 16 then 3
    else if !s.migrationFits k then 5
    else if s.paired && !s.bit P.prgChangeStatus 6 then 6
    else if (s.conflict 0 true none).isSome then 7
    else if !s.running then 8
    else if c < k0 + (s.word P.prgChangeLead).toNat ∨ k0 + 80000 < c then 9
    else if !s.loopsOk k.loopWords false then 10
    else 0

/-- PRG_CHANGE_COMMIT (R211, R212): the commit tick is the requested one, or the earliest for 0. -/
def execPrgChangeCommit (rq : Rq) (tick : Nat) (s : State) : Res :=
  .next <| s.cmd rq 0x0401 [0] true (s.sys.mode == .standalone || s.sys.mode == .lead) fun s =>
    let k0 := s.time.tick
    let c := if tick = 0 then k0 + (s.word P.prgChangeLead).toNat else tick
    let cause := if s.chgPhase = 2 then s.commitCause c k0 else 6
    if cause == 7 then (s.chgRefuse 7).refuseConflict rq 0x0401 7 ((s.conflict 0 true none).getD 0)
    else if cause != 0 then (s.chgRefuse cause).respond rq 0x0401 St.refused cause []
    else s.bg rq 0x0401 (leBytes 8 c) fun s =>
      let r := s.drawBytes 32
      let hash := (s.change.package.map (·.program)).getD []
      let s := { (r.2.setBit P.prgChangeStatus 8 false).set64 P.prgChangeTickLo c with
        change := { r.2.change with commit := c, agree := some .proposed, proposedAt := k0, seed := r.1, lead := true,
                                    ackSent := false, rq := some (rq.mb, rq.tag) } }
      if s.paired then
        let m := s.message 3 (hash ++ r.1)
        (m.2.control 0x10 0 m.1 c).setChgPhase 3
      else { s.setChgPhase 4 with change.agree := some .confirmed }

/-- A commit abandoned (R212, R223): the package stays STAGED. -/
def State.abandonCommit (s : State) (status detail : Nat) : State :=
  if s.chgPhase != 3 then s
  else
    let s := (s.setChgPhase 2).setBit P.prgChangeStatus 7 true
    ({ s with change.agree := none, change.ackSent := false }.finish 0x0401 status detail []).ev 2 "CHANGE_ABANDONED" [detail]

/-- CHG_PROPOSE (R212): the trail checks the proposal by the same rules, and answers ACK, or NAK with the cause. `hash` and
`seed` are the body of the message's MSG frame. -/
def execChgPropose (c : Nat) (hash seed : List Byte) (s : State) : Res :=
  .next <|
    if s.sys.mode != .trail || s.bit P.pairStatus 25 then s
    else
      let cause := if s.chgPhase ≠ 2 ∨ (s.change.package.map (·.program)) ≠ some hash then 6
        else s.commitCause c (c - (s.word P.prgChangeLead).toNat)
      if cause != 0 then ((s.chgRefuse cause).control 0x12 cause 0 c).ev 3 "CHANGE_NAK" [cause]
      else
        let s := (s.setChgPhase 3).set64 P.prgChangeTickLo c
        { s with
          change := { s.change with commit := c, agree := some .acked, proposedAt := s.time.tick, seed := seed, lead := false,
                                    ackSent := true } }.control 0x11 0 0 c

/-- CHG_ACK (R212): the lead confirms, in time for the exchange of C − 4. -/
def execChgAck (c : Nat) (s : State) : Res :=
  .next <|
    if s.chgPhase != 3 || !s.change.lead || s.change.commit != c || decide (c < s.time.tick + 8) then s
    else { s.setChgPhase 4 with change.agree := some .confirmed }.control 0x13 0 0 c

/-- CHG_NAK (R212, R222): the commit is abandoned with cause 0xB; the trail's cause is recorded. -/
def execChgNak (c cause : Nat) (s : State) : Res :=
  .next <|
    if s.chgPhase != 3 || !s.change.lead || s.change.commit != c then s
    else ((s.chgRefuse 11).ev 3 "CHANGE_NAK" [cause]).abandonCommit St.refused 11

/-- CHG_CONFIRM (R212): the trail switches at C without further exchange. -/
def execChgConfirm (c : Nat) (s : State) : Res :=
  .next <|
    if s.chgPhase != 3 || s.change.lead || s.change.commit != c || decide (c < s.time.tick + 4) then s
    else { s.setChgPhase 4 with change.agree := some .confirmed }

/-- CHG_ACK_TIMEOUT (R212): no ACK eight ticks after PROPOSE, or by the exchange of C − 8: abandoned in both modules. -/
def execChgAckTimeout (s : State) : Res :=
  .next <|
    if s.chgPhase == 3 && s.change.lead &&
        decide (min (s.change.proposedAt + 8) (s.change.commit - 8) ≤ s.time.tick) then
      (s.message 7 []).2.abandonCommit St.timeout 0
    else s

/-- CHG_CONFIRM_TIMEOUT (R212): a trail that sent ACK has no CONFIRM by the exchange of C − 4, and hears heartbeats: it
withdraws at C with cause 0x07. -/
def execChgConfirmTimeout (s : State) : Res :=
  .next <|
    if s.chgPhase == 3 && s.change.ackSent && !s.change.lead && decide (s.change.commit ≤ s.time.tick + 4) &&
        decide (s.pair.hbMissed < 8) && s.sys.mode == .trail then
      let s := s.ev 3 "CHANGE_NO_CONFIRM" []
      let s := (s.setChgPhase 2).setBit P.prgChangeStatus 7 true
      { s with pair.withdrawAt := some (s.change.commit, 0x07), change.agree := none, change.ackSent := false }
    else s

/-! ### The commit, the full save (R213, R214, R218, R220) -/

/-- The rows of `PRG_CHANGE_TASKS` at the commit (R226), and the tasks left to switch. -/
def State.openChangeTasks (s : State) (k : Package) : State :=
  s.each (List.range 32) fun s m =>
    let row := k.tasks.getD m []
    let new := fieldOf (row.getD 0 0) 31 30 != 0
    let old := s.taskKind m != 0
    let act := if new && old then 1 else if new then 2 else if old then 3 else 0
    s.setWords (ctKey m 0) [withField 0 31 30 act, withField 0 31 16 (k.mts.getD m 0), 0, 0]

/-- CHANGE_COMMIT_TICK (R213, R214, R189, R220): tick C. The new seed applies, saves stop, the loop banks are exchanged, and
removed tasks are released no more. -/
def execChangeCommitTick (s : State) : Res :=
  .next <|
    match s.change.package with
    | none => s
    | some k =>
      if s.chgPhase != 4 || decide (s.time.tick < s.change.commit) then s
      else
        let s := (s.setChgPhase 5).openChangeTasks k
        let k := { k with tasks := (List.range 32).map fun m => let r := k.tasks.getD m []
                                                              if fieldOf (r.getD 0 0) 31 30 = 0 then [] else r }
        let ids := (List.range 32).filter fun m => k.tasks.getD m [] != [] || s.taskKind m != 0
        let c := { s.change with package := some k, pending := ids }
        let s := { s with change := c, prog.seed := s.change.seed, prog.retainBusy := none }
        let s := s.setWord P.prgChangeMigrMax 0
        let s := s.when (k.moves.any fun i => i.oldAt != i.newAt) State.guardLoad
        let before := s.loops
        let s := (s.loadLoops k.loopWords false).setBit P.loopStatus 6 (!s.bit P.loopStatus 6)
        let s := s.each (s.loops.filter fun l => !before.contains l) fun s l => s.initLoop l
        let s := (s.gaugeRec 0x06 32 [] [] s.prog.seed).gaugeRec 0x08 32 [] [] k.program
        let s := (s.setFld P.prgChangeStatus 5 0 ids.length).putCells k.initCells
        s.each (ids.filter fun m => k.tasks.getD m [] == [] && ((s.task m).released.isNone || (s.task m).agreed)) fun s m =>
          (s.setWords (taskKey m 0) [0, 0, 0, 0]).switchDone m s.time.tick

/-- The package as the program that runs after the change (R208, R214). -/
def Package.after (k : Package) (old : Option Package) : Package :=
  { k with
    hash := k.program
    base := []
    moves := []
    orphans := []
    loopWords := ((old.map (·.loopWords)).getD []).filter (fun x => !k.loopWords.any fun y =>
      (y.1, y.2.1, y.2.2.1) == (x.1, x.2.1, x.2.2.1)) ++ k.loopWords }

/-- CHANGE_SAVE_DONE (R214): the full save is marked in both buffers; the new program is current. -/
def execChangeSaveDone (s : State) : Res :=
  .next <|
    match s.change.package with
    | none => s
    | some k =>
      if s.chgPhase != 6 then s
      else
        let p := k.after s.prog.package
        let gen := s.prog.retainGen + 1
        let s := { s with prog.package := some p, prog.hash := p.hash }
        let cells := s.retainCells
        let s := (s.setWord P.prgRetainSize (w32 p.retainBytes)).setFld P.prgStatus 5 0 s.allTasks.length
        let next := s.time.tick + (s.word P.prgRetainPeriod).toNat
        let s := { s with prog := { s.prog with
          retainMark := [(0, gen, p.hash, cells), (1, gen + 1, p.hash, cells)]
          retainGen := gen + 1
          retainNext := next } }
        let s := (s.setBit P.prgStatus 12 true).inc P.prgChangeCount
        let progs := s.img.programs.filter (fun x => x.hash != p.hash) ++ [p]
        let s := ({ s with img.programs := progs }.setChgPhase 7).ev 2 "CHANGE_DONE" []
        let s := s.setBit P.prgChangeStatus 6 false
        { s with change.package := none, change.agree := none }.finish 0x0401 St.ok 0 (leBytes 8 s.time.tick)

/-! ### Outcomes of takeover and reset (R223) -/

/-- A takeover during a change: a proposal is abandoned; from CONFIRMED on the new lead completes it. -/
def State.chgTakeover (s : State) : State :=
  let s := s.abandonCommit St.aborted 0
  { s with change.lead := true }

/-- The loss of the trail during a change. -/
def State.chgTrailLost (s : State) : State :=
  let s := (s.abandonCommit St.partnerFail 0).setBit P.prgChangeStatus 6 false
  if s.chgPhase == 1 then s.stagedNow else s

/-- A reset of this module during a change: staging is abandoned; from STAGED to SAVING the commit is abandoned and the
package stays staged. (DEDUCED, log entry 35) -/
def State.chgReset (s : State) : State :=
  let ph := s.chgPhase
  let s := s.setBit P.prgChangeStatus 6 false
  if ph = 1 then (s.dropPackage.setBit P.prgChangeStatus 7 true).ev 2 "CHANGE_ABANDONED" [ph]
  else if 3 ≤ ph ∧ ph ≤ 6 then
    let s := ((s.setChgPhase 2).setBit P.prgChangeStatus 7 true).ev 2 "CHANGE_ABANDONED" [ph]
    let c := { s.change with agree := none, ackSent := false, pending := [], orphans := [] }
    { s with change := c }.setFld P.prgChangeStatus 5 0 0
  else s

end Sys2Proof.Machine
end

