-- ==== Sys2Proof/Machine/Fio.lean ====
section
/-!
DEFINITION. The meanings of the local field I/O commands (file 12, and R273 of file 09).
-/

namespace Sys2Proof.Machine

/-! ### Digital channels -/

/-- DIO_SAMPLE (R340, R341, R343, R344, R346): the raw sample at plant time `t`, a multiple of `PERIOD`. A group in OFF or
RECOVERING has its filters frozen (R355). -/
def execDioSample (c : Fin 16) (raw : Bool) (t : Nat) (s : State) : Res :=
  .next <|
    let period := s.fld (dioKey c) 9 0 * 1000
    if s.dioMode c != 1 || !s.groupValid (c / 4) || t % period != 0 then s
    else
      let s := s.modDio c fun d => d.sample (s.fld (dioKey c) 23 16) raw t
      s.setWord (chKey c 1) (w32 (s.dio c).f.toNat)

/-- DIO_OVERLOAD (R348): 2 ms at the current limit, or an overheated switch. -/
def execDioOverload (c : Fin 16) (thermal : Bool) (s : State) : Res :=
  .next <|
    if s.dioMode c != 2 || !(s.dio c).on then s
    else
      let s := s.modDio c fun d => { d with on := false }
      ((s.chFault c (if thermal then 30 else 31) true).inc P.fioOvlCnt).ev 4 "DIO_OVERLOAD" [c, thermal.toNat]

/-- DIO_OPEN (R349): below 5 mA for 100 ms; the output stays on. -/
def execDioOpen (c : Fin 16) (s : State) : Res :=
  .next <|
    if s.dioMode c != 2 || !(s.dio c).on || !s.bit (dioKey c) 27 || s.bit (chKey c 0) 29 then s
    else (s.chFault c 29 true).ev 4 "DIO_OPEN" [c]

/-- DIO_OPEN_CLEAR (R349): 5 mA or more. -/
def execDioOpenClear (c : Fin 16) (s : State) : Res := .next <| s.chFault c 29 false

/-! ### Groups (R355 to R358) -/

/-- GROUP_WARNING (R355): from NORMAL, below 19.2 V for 1 ms. -/
def execGroupWarning (g : Fin 6) (s : State) : Res :=
  .next <|
    if !s.groupUp g || s.sag g != 0 then s
    else ((s.setSag g 1).inc (grpKey g 2)).ev 4 "GROUP_WARNING" [g]

/-- GROUP_OFF (R355, R357): below 15 V for 50 µs; an outage begins when the group was NORMAL or WARNING. -/
def execGroupOff (g : Fin 6) (s : State) : Res :=
  .next <|
    if !s.groupUp g || s.sag g == 2 then s
    else
      let s := if s.sag g ≤ 1 then { s with fio.outage := Sys2Proof.setBit s.fio.outage g true } else s
      (((s.setSag g 2).groupOutputsOff g).inc (grpKey g 3)).ev 4 "GROUP_OFF" [g]

/-- GROUP_RECOVERING (R355): from OFF, at 19.2 V or above. -/
def execGroupRecovering (g : Fin 6) (s : State) : Res :=
  .next <| if !s.groupUp g || s.sag g != 2 then s else s.setSag g 3

/-- GROUP_NORMAL (R346, R355, R357): 20 ms at 19.2 V or above; the return that ends an outage latches or resumes. -/
def execGroupNormal (g : Fin 6) (s : State) : Res :=
  .next <|
    if !s.groupUp g || s.sag g == 0 || s.sag g == 2 then s
    else
      let s := (s.setSag g 0).groupReload g
      let latch := hasBit s.fio.outage g && !s.bit (grpKey g 0) 31
      let s := s.when latch fun s => s.setBit (grpKey g 0) 25 true
      { s with fio.outage := Sys2Proof.setBit s.fio.outage g false }.ev 4 "GROUP_NORMAL" [g]

/-- GROUP_OVERLOAD (R358): more than 2.2 A for 5 ms in a digital group. -/
def execGroupOverload (g : Fin 4) (s : State) : Res :=
  .next <|
    if !s.groupUp g || s.bit (grpKey g 0) 24 then s
    else ((s.groupOutputsOff g).setBit (grpKey g 0) 24 true).ev 4 "GROUP_OVERLOAD" [g]

/-- FIO_GROUP_ACK (R357, R358): refused while the group is not NORMAL; effective at the next tick boundary. -/
def execFioGroupAck (rq : Rq) (g : Fin 6) (s : State) : Res :=
  .next <| s.cmd rq 0x0801 [0, 1] true true fun s =>
    if !s.groupUp g then s.respond rq 0x0801 St.unavailable 0 []
    else if s.sag g != 0 then s.respond rq 0x0801 St.refused 0 []
    else s.stage (some rq) 0x0801 false [.groupAck g]

/-! ### Current loops (R363, R367) -/

/-- CL_COMPLIANCE_SET (R363). -/
def execClComplianceSet (k : Fin 8) (s : State) : Res :=
  .next <| if s.clSource k && s.groupUp (4 + k / 4) then s.chFault (16 + k) 28 true else s

/-- CL_COMPLIANCE_CLEAR (R363). -/
def execClComplianceClear (k : Fin 8) (s : State) : Res := .next <| s.chFault (16 + k) 28 false

/-- CL_LIVE_ZERO (R367): below 3.6 mA for 8 consecutive ticks with `LIVE_ZERO`. -/
def execClLiveZero (k : Fin 8) (s : State) : Res :=
  .next <|
    if s.clMeasure k && s.bit (clKey k 0) 28 && decide (8 ≤ (s.cl k).lowRun) then
      (s.chFault (16 + k) 26 true).modCl k fun c => { c with valid := false, reload := true }
    else s

/-- LOCAL_DISAGREE (R273): a channel whose two valid sources have differed for `PAIR_DISAGREE_TICKS` ticks. -/
def execLocalDisagree (c : Fin 24) (s : State) : Res :=
  .next <|
    if decide ((s.word P.pairDisagreeTicks).toNat ≤ s.pair.disagreeRun.getD c 0) && !s.bit (plKey c 0) 25 then
      ((s.setBit (plKey c 0) 25 true).incFld (plKey c 0) 15 0).ev 4 "LOCAL_DISAGREE" [c]
    else s

/-! ### Manual outputs (R352) -/

/-- FIO_MANUAL (R352): in SERVICE; a shared channel is refused while the partner runs. -/
def execFioManual (rq : Rq) (chan : Fin 24) (value : U32) (s : State) : Res :=
  .next <| s.cmd rq 0x0800 [0] true (s.sys.mode == .service) fun s =>
    let shared := s.fld (plKey chan 0) 27 26 == 1
    let output := if chan.val < 16 then s.dioMode chan == 2 else s.clSource (chan - 16)
    if shared && (s.pair.partner == .trail || s.pair.partner == .lead) then s.respond rq 0x0800 St.refused 0 []
    else if !output then s.respond rq 0x0800 St.refused 0 []
    else s.stage (some rq) 0x0800 false [.manual chan value]

/-! ### HART (R369 to R371) -/

/-- Whether this module is the HART master of a channel (R369, R371). (DEDUCED, log entry 22) -/
def State.hartMaster (s : State) (k : Nat) : Bool :=
  s.clMeasure k && s.bit (clKey k 0) 26 && (s.pair.partner == .absent || s.bit (clKey k 0) 25 == s.sys.posB)

def Mode.hart : Mode → Bool
  | .standalone | .lead | .trail | .hold | .service => true
  | _ => false

/-- The frame of a HART command from a primary master: delimiter, address, command, byte count, data, checksum. (PRESUMED, log entry 12) -/
def hartFrame (short : Option Nat) (long : List Byte) (cmd : Nat) (data : List Byte) : List Byte :=
  let a : List Byte := match short with
    | some p => [0x02#8, BitVec.ofNat 8 (0x80 + p)]
    | none => 0x82#8 :: ((long.take 1).map (· ||| 0x80#8) ++ long.drop 1)
  let f := a ++ [BitVec.ofNat 8 cmd, BitVec.ofNat 8 data.length] ++ data
  f ++ [f.foldl (· ^^^ ·) 0#8]

/-- FIO_HART_SCAN (R369, R371): command 0 to polling addresses 1 to 63. -/
def execFioHartScan (rq : Rq) (k : Fin 8) (s : State) : Res :=
  .next <| s.cmd rq 0x0802 [0, 1, 2] true s.sys.mode.hart fun s =>
    if !s.hartMaster k then s.respond rq 0x0802 St.refused 0 []
    else if s.fio.hart.any (·.chan == k.val) then s.respond rq 0x0802 St.busy 0 []
    else s.bg rq 0x0802 [] fun s =>
      let h : HartS := ⟨k, rq, true, 1, hartFrame (some 1) [] 0 [], (s.word P.fioHartRetry).toNat, []⟩
      { s with fio.hart := s.fio.hart ++ [h] }

/-- FIO_HART_XFER (R369, R371): one transaction with a long address. -/
def execFioHartXfer (rq : Rq) (k : Fin 8) (cmd : U8) (long data : List Byte) (s : State) : Res :=
  .next <| s.cmd rq 0x0803 [0, 1, 2] true s.sys.mode.hart fun s =>
    if !s.hartMaster k then s.respond rq 0x0803 St.refused 0 []
    else if s.fio.hart.any (·.chan == k.val) then s.respond rq 0x0803 St.busy 0 []
    else s.bg rq 0x0803 [] fun s =>
      let h : HartS := ⟨k, rq, false, 0, hartFrame none long cmd.toNat data, (s.word P.fioHartRetry).toNat, []⟩
      { s with fio.hart := s.fio.hart ++ [h] }

/-- The response of a scan (R369, R453): per device its polling address and its long address. -/
def scanBytes (found : List (Nat × List Byte)) : List Byte :=
  leBytes 2 found.length ++ found.flatMap fun x => BitVec.ofNat 8 x.1 :: ((x.2 ++ List.replicate 5 0#8).take 5 ++ [0, 0])

/-- The next polling address of a scan, or its end. -/
def State.hartNext (s : State) (h : HartS) : State :=
  if 63 ≤ h.poll then (s.setHart h []).respond h.rq 0x0802 St.ok 0 (scanBytes h.found)
  else s.setHart h [{ h with poll := h.poll + 1, frame := hartFrame (some (h.poll + 1)) [] 0 [],
                             retries := (s.word P.fioHartRetry).toNat }]

/-- A transaction that timed out, or drew a corrupt reply (R369): sent again, or failed. An address of a scan that does not
answer is passed over. (DEDUCED, log entry 22) -/
def State.hartAgain (s : State) (h : HartS) : State :=
  if 0 < h.retries then s.setHart h [{ h with retries := h.retries - 1 }]
  else if h.scan then s.hartNext h
  else (((s.setHart h []).chFault (16 + h.chan) 25 true).inc P.fioHartErr).respond h.rq 0x0803 St.timeout 0 []

/-- HART_REPLY_RECEIVE (R369): `sound`: the reply's checksum holds; `code` and `status` its first two data bytes. (PRESUMED, log entry 12) -/
def execHartReplyReceive (k : Fin 8) (sound : Bool) (long : List Byte) (code status : U8) (data : List Byte) (s : State) :
    Res :=
  .next <|
    match s.fio.hart.find? (·.chan == k.val) with
    | none => s
    | some h =>
      if !sound then s.hartAgain h
      else
        let s := s.chFault (16 + k) 25 false
        if h.scan then s.hartNext { h with found := h.found ++ [(h.poll, long)] }
        else (s.setHart h []).respond h.rq 0x0803 St.ok 0 ([code, status, BitVec.ofNat 8 data.length, 0] ++ data)

/-- HART_REPLY_TIMEOUT (R369). -/
def execHartReplyTimeout (k : Fin 8) (s : State) : Res :=
  .next <|
    match s.fio.hart.find? (·.chan == k.val) with
    | none => s
    | some h => s.hartAgain h

/-- HART_BURST_FRAME (R369): discarded and counted. -/
def execHartBurstFrame (k : Fin 8) (s : State) : Res :=
  .next <| if s.clMeasure k && s.bit (clKey k 0) 26 then s.inc P.fioHartErr else s

end Sys2Proof.Machine
end

