-- ==== Sys2Proof/Machine/ParamOps.lean ====
section
/-!
DEFINITION. What a parameter or a table word reads as (file 16): the words that follow from the rest of the state, the
configuration hash, and the pending writes of RESTART parameters.
-/

namespace Sys2Proof.Machine

/-! ### The configuration hash (R464) -/

/-- The pair-configuration parameters, in ascending number. -/
def pairParams : List Nat := (List.range 0x10000).filter fun i => match paramRow i with
  | some r => r.pair
  | none => false

/-- The tables that hold pair configuration, in ascending number. -/
def pairTables : List Nat := (List.range 0x10000).filter fun i => match tableRow i with
  | some r => r.pair
  | none => false

/-- The writable bits of a word of a table. -/
def TableRow.mask (r : TableRow) (w : Nat) : U32 := w32 (wordOf r.rw w)

/-- The bits of a pair table's word that the hash covers: its RW fields, and the fields of `TRK_DELAYS`. -/
def TableRow.hashMask (r : TableRow) (w : Nat) : U32 :=
  if r.base = 0x20C2 then (if w = 0 then 0xFFFF003F#32 else 0xFFFFFFFF#32) else r.mask w

/-- The entries of a table: an arrival guard has 16 regions (R503). -/
def TableRow.count (r : TableRow) (tid : Nat) : Nat :=
  if r.base = 0xC0C0 ∨ r.base = 0xC0C1 then guardRegions ((tid - r.base) / 0x100) else r.entries

/-- The configuration hash (R464). (DEDUCED, log entry 97) -/
def State.cfgHash (s : State) : List Byte :=
  let ps := pairParams.flatMap fun i => leBytes 2 i ++ leBytes 4 (s.word i).toNat
  let ts := pairTables.flatMap fun t => match tableRow t with
    | some r => leBytes 2 t ++ leBytes 4 (r.count t) ++ (List.range (r.count t)).flatMap fun e =>
        (List.range r.words).flatMap fun w => leBytes 4 ((s.word (tkey t e w)) &&& r.hashMask w).toNat
    | none => []
  shake256 (ps ++ ts) 32

/-! ### Words that follow from the state -/

/-- The warning conditions of R415. -/
def State.warn (s : State) : Bool :=
  ((List.range 16).any fun p => decide ((s.word (P.trkHeadPos p)).toNat < 2) && s.bit (P.trkStatus p) 3) ||
    s.bit P.pairStatus 19 || s.bit P.syncStatus 16 || s.bit P.chkStatus 13 || s.bit P.sysClock 5 ||
    ((List.range 6).any fun g => s.bit (tkey 0x80C2 g 0) 25 || s.bit (tkey 0x80C2 g 0) 24) ||
    ((List.range 32).any fun i => s.fld (0xF020 + i) 31 30 == 2)

/-- `SYS_MODE` (R414). -/
def State.sysModeWord (s : State) : U32 :=
  let w := withField (withField 0 31 28 s.sys.mode.num) 27 24 s.sys.prev.num
  let w := match s.sys.pending with
    | some (m, _) => withField (withField w 23 20 m.num) 19 19 1
    | none => w
  let w := withField w 18 18 (s.word P.prgForceCount != 0#32).toNat
  withField (withField w 17 17 (s.sys.split != 0).toNat) 16 16 s.warn.toNat

/-- `ROLE` of a mode (R278). -/
def Mode.role : Mode → Nat
  | .listen => 1 | .resync => 2 | .trail => 3 | .lead => 4 | .standalone => 5 | .commission => 6
  | _ => 0

def Partner.code : Partner → Nat
  | .absent => 0 | .listen => 1 | .trail => 2 | .lead => 3

/-- `SWAP_READY` (R268): the module stands in HOLD or FAULT-SAFE with its lever out. -/
def State.swapReady (s : State) : Bool := s.sys.leverOut && (s.sys.mode == .hold || s.sys.mode == .faultSafe)

/-- `PAIR_STATUS` (R278): `ROLE`, `PARTNER`, `POSITION` and `SWAP_READY` over the word's other fields. -/
def State.pairStatusWord (s : State) : U32 :=
  let w := withField (withField (s.word P.pairStatus) 31 29 s.sys.mode.role) 21 21 s.swapReady.toNat
  withField (withField w 28 27 s.pair.partner.code) 26 26 s.sys.posB.toNat

/-- BOOTSEL and CLKSEL as they act: a reserved code is 0b00 (R419). -/
def strapCode (v : Nat) : Nat := if v = 3 then 0 else v

/-- `SYS_STRAPS` (R429). -/
def State.strapsWord (s : State) : U32 :=
  let w := withField (withField 0 15 14 s.sys.bootsel) 13 12 s.sys.clksel
  let w := withField (withField w 11 10 s.sys.bootselPin) 9 8 s.sys.clkselPin
  withField (withField w 7 7 (s.sys.bootsel == 3).toNat) 6 6 (s.sys.clksel == 3).toNat

/-- The version of a running firmware image (R469): that of its bank, or the one delivered. -/
def State.fwVersion (s : State) (cls : Nat) : U32 :=
  let e := 4 * s.runBank + cls - 1
  if s.bit (bankKey e 0) 27 then s.word (bankKey e 6) else Config.fwVersion cls

/-- The bytes of the records that the ring took in the last 10 min, and R in kB/s (R396, R407). -/
def State.gaugeRate (s : State) : Nat :=
  let recent := s.gauge.ring.filter fun r => decide (s.time.tick < r.2.tick + 4800000)
  (recent.map fun r => 16 + (r.2.len + 15) / 16 * 16).foldl (· + ·) 0 / 600000

/-- W of R396, s. -/
def State.gaugeSpan (s : State) : Nat :=
  let rate := s.gaugeRate * 1000
  if rate = 0 then 0 else (8192 - (s.word P.gaugeBaseMib).toNat) * 2 ^ 20 / rate

/-- `KPR_STATUS` (R474). -/
def State.kprStatusWord (s : State) : U32 :=
  let w := withField (s.word P.kprStatus) 15 15 s.kpr.ownerKey.isSome.toNat
  let w := withField (withField w 14 14 (s.bit (P.kprLink 0) 0).toNat) 13 13 (s.bit (P.kprLink 1) 0).toNat
  let w := withField (withField w 12 12 (s.sys.mode == .service).toNat) 11 11 s.coreUp.toNat
  withField w 7 0 ((List.range 8).foldl (fun m i => if s.kpr.sessions.any (·.mb.val == i) then m + 2 ^ i else m) 0)

/-- `FIO_STATUS` (R377): its field dies released and none of their halves in reset. (DEDUCED, log entry 99) -/
def State.fioStatusWord (s : State) : U32 :=
  let ok (d : Nat) : Nat := (hasBit s.sys.diesUp (2 + d) && !hasBit s.sys.sluices (8 + 2 * d) && !hasBit s.sys.sluices (9 + 2 * d)).toNat
  withField (withField (s.word P.fioStatus) 2 2 (ok 1)) 1 1 (ok 0)

/-- The trunk protocol levels of the PRESENT stations of a trunk, as `TRK_STATIONS` shows them (R156, R541). (DEDUCED, log entry 99) -/
def State.presentLevels (s : State) (p : Nat) : List Nat :=
  (List.range 192).filterMap fun i =>
    let w := s.word (tkey (0x20C4 + 0x100 * p) i 0)
    if fieldOf w 31 28 = 1 then some (fieldOf w 19 12) else none

/-- What a parameter reads as: its word, or for a word that follows from the state, that (R455 to R479). (DESIGN CHOICE, log entry 4) -/
def State.paramView (s : State) (id : Nat) : U32 :=
  if id < 0x1000 then
    match id with
    | 0x0000 => Config.serial
    | 0x0001 => w32 Config.orderCode.toNat
    | 0x0002 => Config.hwRev
    | 0x0003 => s.fwVersion 1
    | 0x0004 => s.fwVersion 2
    | 0x0005 => s.fwVersion 3
    | 0x0006 => s.fwVersion 4
    | 0x0007 => s.levels
    | 0x0009 => w32 (satNat 32 (s.sys.uptimeMs / 1000))
    | 0x000E => w32 (2 * s.sys.carrier + s.sys.posB.toNat)
    | 0x0010 => s.sysModeWord
    | 0x0015 => s.strapsWord
    | _ => s.word id
  else if id < 0x2000 then
    match id with
    | 0x1004 => sat32 s.time.rate
    | 0x1010 => lo32 s.time.tick
    | 0x1011 => hi32 s.time.tick
    | 0x1012 => lo32 s.tickStart
    | 0x1013 => hi32 s.tickStart
    | _ => s.word id
  else if id < 0x3000 then
    if id % 0x100 = 0 then
      let p := (id - 0x2000) / 0x100
      let pos := (s.word (P.trkHeadPos p)).toNat
      withField (s.word id) 6 5 (if 2 ≤ pos then 0 else if pos = s.sys.posB.toNat then 1 else 2)
    else s.word id
  else if id < 0x4000 then
    let q := s.port ((id - 0x3000) / 0x100)
    if id % 0x100 = 0x14 then lo32 q.cycle else if id % 0x100 = 0x15 then hi32 q.cycle else s.word id
  else if id < 0xA000 then
    match id with
    | 0x6000 => s.pairStatusWord
    | 0x6001 => s.pair.claim
    | 0x6002 => latest32 (latest32 s.pair.high s.pair.saved) s.pair.claim
    | 0x6028 => withField (withField (s.word id) 31 24 (fieldOf s.levels 31 24)) 15 8 (fieldOf s.levels 23 16)
    | 0x7000 =>
      let w := withField (withField (s.word id) 19 16 s.sys.split) 12 12 s.sys.proofPending.toNat
      withField (withField w 11 11 (s.eps.any (·.halted)).toNat) 10 10 (s.bit P.chkTraceCfg 0).toNat
    | 0x8000 => s.fioStatusWord
    | _ => s.word id
  else if id < 0xD000 then
    match id with
    | 0xA005 => w32 s.gaugeRate
    | 0xA006 => w32 s.gaugeSpan
    | 0xB800 => w32 s.recorder.queue.length
    | 0xB808 => w32 ((List.range 1024).filter fun e => s.fld (tkey 0xB8C0 e 0) 31 16 != 0).length
    | _ => if 0xC000 ≤ id ∧ id % 0x100 = 0 then s.guardStatusWord ((id - 0xC000) / 0x100) else s.word id
  else if id < 0xE000 then
    match id with
    | 0xD082 => match s.img.healthAt with
      | some t => w32 (900 - (s.kpr.now - t) / 1000)
      | none => 0
    | 0xD087 => w32 s.img.xfers.length
    | 0xD088 => s.tplRange
    | _ =>
      let l := s.presentLevels (id / 0x100 % 16)
      if id % 0x100 = 0x0D then w32 ((l.min?).getD 0) else if id % 0x100 = 0x0E then w32 ((l.max?).getD 0) else s.word id
  else
    match id with
    | 0xE000 => s.kprStatusWord
    | 0xE004 => w32 s.kpr.revoked.length
    | 0xE013 => (Config.mac 0) &&& 0xFFFF#32
    | 0xE014 => Config.mac 1
    | 0xE113 => (Config.mac 2) &&& 0xFFFF#32
    | 0xE114 => Config.mac 3
    | 0xE017 => w32 (s.kpr.connections.filter fun x => x.1 == 0).length
    | 0xE117 => w32 (s.kpr.connections.filter fun x => x.1 == 1).length
    | _ =>
      if 0xE042 ≤ id ∧ id ≤ 0xE742 ∧ id % 0x100 = 0x42 then
        w32 (s.kpr.reqs.filter fun r => r.background && r.rq.mb.val == (id - 0xE042) / 0x100).length
      else s.word id

/-- A word of `SYS_HASHES` (R471). -/
def State.hashWord (s : State) (e w : Nat) : U32 :=
  let h : List Byte := match e with
    | 0 => s.prog.hash
    | 1 => s.cfgHash
    | 2 => (s.change.package.map (·.hash)).getD []
    | _ => match s.kpr.ownerKey with
      | some (_, k) => shake256 k 32
      | none => []
  w32 (ofLe ((h.drop (4 * w)).take 4))

/-- A word of `SCHED_TIMES` (R125). -/
def State.timesWord (s : State) (p e w : Nat) : U32 :=
  match (s.port p).cur with
  | none => 0
  | some c => match c.times[e]? with
    | none => 0
    | some t => if w = 1 then withField (withField 0 31 28 t.pos) 27 19 t.entry else w32 t.launch

/-- What a table word reads as (R459, R471). (DESIGN CHOICE, log entry 4) -/
def State.tableView (s : State) (tid e w : Nat) : U32 :=
  if tid = 0x00C0 then s.hashWord e w
  else if 0x30C1 ≤ tid ∧ tid ≤ 0x3FC1 ∧ tid % 0x100 = 0xC1 then s.timesWord ((tid - 0x30C1) / 0x100) e w
  else s.word (tkey tid e w)

/-! ### Pending writes of RESTART parameters (R463, R472) -/

abbrev pendKey (e w : Nat) : Nat := tkey 0x00C1 e w

/-- The pending writes, in the order in which they were made. -/
def State.restartList (s : State) : List (Nat × U32) :=
  ((List.range 16).filter fun e => s.bit (pendKey e 0) 0).map fun e => (s.fld (pendKey e 0) 31 16, s.word (pendKey e 1))

/-- `SYS_PENDING` and its readouts set to a list of pending writes. -/
def State.setRestart (s : State) (l : List (Nat × U32)) : State :=
  let s := s.each (List.range 16) fun s e => match l[e]? with
    | some (id, v) => s.setWords (pendKey e 0) [w32 (id * 65536 + 1), v]
    | none => s.setWords (pendKey e 0) [0, 0]
  (s.setBit P.sysParamStatus 15 (!l.isEmpty)).setFld P.sysParamStatus 4 0 l.length

/-- A RESTART write at its effect tick (R463): a second write replaces the first, and the value in force cancels it. -/
def State.pendRestart (s : State) (id : Nat) (v : U32) : State :=
  let l := s.restartList
  if s.word id = v then s.setRestart (l.filter fun x => x.1 != id)
  else if l.any fun x => x.1 == id then s.setRestart (l.map fun x => if x.1 = id then (id, v) else x)
  else s.setRestart (l ++ [(id, v)])

/-- The pending writes become current at a BOOT (R463). -/
def State.applyRestart (s : State) : State :=
  (s.each s.restartList fun s x => s.setWord x.1 x.2).setRestart []

/-- Whether a word of the word file goes with the pair state (R297): pair configuration, tasks and their status, forces, stations, queues,
schedules, loops, and the readouts of the online change and of forces. `MAX_RUN` stays the module's own. -/
def transferred (k : Nat) : Bool :=
  if k < 2 ^ 16 then
    (match paramRow k with
      | some r => r.pair
      | none => false) ||
      (decide (P.prgChangeStatus ≤ k) && decide (k ≤ P.prgChangeTickHi)) || k == P.prgForceCount || k == P.prgLateVector ||
      k == P.prgSuspendVector
  else
    match tableRow ((k - 2 ^ 32) / 2 ^ 20) with
    | some r => r.pair || [0x20C2, 0x20C4, 0x20C6, 0x20C7, 0x30C0, 0x40C0, 0x40C1, 0x40C2, 0x40C3, 0x40C4, 0x40C5,
        0x50C0, 0x50C1, 0x50C2, 0x50C3, 0x50C4, 0x50C5].contains r.base
    | none => false

end Sys2Proof.Machine
end

