-- ==== Sys2Proof/Machine/Gauge.lean ====
section
/-!
DEFINITION. The meanings of the Gauge commands and of replay (file 13, R391 to R408).
-/

namespace Sys2Proof.Machine

/-! ### Snapshots (R394, R395) -/

/-- GAUGE_SNAPSHOT (R394): at a snapshot tick the pages are captured, or the snapshot is skipped while the one before has not
finished. -/
def execGaugeSnapshot (s : State) : Res :=
  .next <|
    let period := (s.word P.gaugeSnapMin).toNat * 480000
    if !s.gauge.recording || s.time.tick % period != 0 then s
    else if s.gauge.snapBusy then s.inc P.gaugeSnapSkip
    else
      let n : GSnap := ⟨s.time.tick, s.gauge.snaps.isEmpty, s.pm, s.dram, s.words, s.prog.hash, s.cfgHash⟩
      let s := s.gaugeRec 0x0D (16 + 16 * s.pm.length) [] [] (leBytes 4 s.gauge.snaps.length)
      { s with gauge.snaps := s.gauge.snaps ++ [n], gauge.snapBusy := true }

/-- GAUGE_SNAPSHOT_DONE (R394): the copy finishes, or is abandoned because the reserve area filled. -/
def execGaugeSnapshotDone (full : Bool) (s : State) : Res :=
  .next <|
    if !s.gauge.snapBusy then s
    else if full then { s with gauge.snapBusy := false, gauge.snaps := s.gauge.snaps.dropLast }.inc P.gaugeSnapSkip
    else { s with gauge.snapBusy := false }

/-- The bytes of the ring in use: the records it holds (R395). -/
def State.ringUsed (s : State) : Nat := (s.gauge.ring.map fun r => r.2.size).foldl (· + ·) 0
def State.ringSize (s : State) : Nat := 8 * 2 ^ 30 - (s.word P.gaugeBaseMib).toNat * 2 ^ 20

/-- GAUGE_FOLD (R395, R397): when less than 256 MiB of the ring is free, the oldest snapshot is folded into the base and the
records before the next one leave the ring, unless a window copy still needs them. -/
def execGaugeFold (s : State) : Res :=
  .next <|
    match s.gauge.snaps with
    | _ :: n :: rest =>
      if s.gauge.copying.isSome || decide (s.ringUsed + 2 ^ 28 ≤ s.ringSize) then s
      else { s with gauge.snaps := { n with full := true } :: rest, gauge.ring := s.gauge.ring.filter (n.tick ≤ ·.2.tick) }
    | _ => s

/-! ### Marked windows (R397, R398) -/

/-- GAUGE_MARK (R397, R398). -/
def execGaugeMark (rq : Rq) (s : State) : Res :=
  .next <| s.cmd rq 0x0A00 [0, 1, 2] true (!s.gauge.snaps.isEmpty) fun s => s.starting rq 0x0A00 7 0 none fun s =>
    match s.gaugeMark 1 with
    | (s, some slot) => s.respond rq 0x0A00 St.ok 0 (leBytes 4 slot)
    | (s, none) => s.respond rq 0x0A00 St.refused 0 []

def recBytes (l : List GRec) : Nat := (l.map GRec.size).foldl (· + ·) 0

/-- The longest prefix of the records, given in ascending ticks, that fits n bytes; whether any was left out. -/
def fitRecs : Nat → List GRec → List GRec × Bool
  | _, [] => ([], false)
  | n, r :: rs => if n < r.size then ([], true) else let (l, t) := fitRecs (n - r.size) rs; (r :: l, t)

/-- The window of R397: from the latest snapshot at or before T − `GAUGE_PRE_S`, or the oldest; within 2 GiB S moves later,
and when no snapshot at or before T fits, E moves earlier; it ends at a GAP record. (DEDUCED, log entry 24) -/
def State.windowOf (s : State) (m : GMark) : Option (GWin × Bool × Bool × Nat) :=
  let stateBytes := 4096 + (s.word P.gaugeBaseMib).toNat * 2 ^ 20
  let early := m.trig - (s.word P.gaugePreS).toNat * 8000
  let old := s.gauge.snaps.filter (·.tick ≤ early)
  let upTo := s.gauge.snaps.filter (·.tick ≤ m.trig)
  let cand := if old.isEmpty then upTo else upTo.drop (old.length - 1)
  let recsFrom (n : GSnap) : List GRec := (s.gauge.ring.map (·.2)).filter fun r => n.tick ≤ r.tick && r.tick ≤ m.stop
  let fits (n : GSnap) : Bool := decide (stateBytes + recBytes (recsFrom n) ≤ 2 ^ 31)
  let pick : Option GSnap := match cand.find? fits with
    | some n => some n
    | none => upTo.getLast?
  pick.map fun n =>
    let (rs, trunc) := fitRecs (2 ^ 31 - stateBytes) (recsFrom n)
    let gap := rs.find? (·.rtype == 0x0E)
    let stop := match gap with
      | some g => g.tick
      | none => if trunc then (rs.getLast?.map (·.tick)).getD n.tick else m.stop
    let rs := rs.filter (·.tick ≤ stop)
    ({ snaps := n :: (s.gauge.snaps.filter fun x => decide (n.tick < x.tick) && decide (x.tick ≤ stop)), recs := rs,
       endTick := stop, prgHash := n.prgHash, cfgHash := n.cfgHash,
       level := fieldOf (levelsOf (Cmap.get dfltWord n.words)) 23 16 }, trunc, gap.isSome, stateBytes + recBytes rs)

/-- The words of a window's entry (R399). -/
def State.windowEntry (s : State) (slot : Nat) (w : GWin) (trunc gap imported : Bool) (bytes : Nat) : State :=
  let k := winKey slot
  let s := s.set64 (k 12) ((w.snaps.head?.map (·.tick)).getD 0)
  let s := (s.set64 (k 10) w.endTick).setWord (k 9) (w32 bytes)
  let s := (s.set64 (k 6) (ofLe (w.prgHash.take 8))).set64 (k 4) (ofLe (w.cfgHash.take 8))
  let s := s.setWord (k 3) (withField (withField 0 31 24 w.level) 23 16 (fieldOf s.levels 31 24))
  let s := (s.setBit (k 0) 31 true).setBit (k 0) 29 false
  ((s.setBit (k 0) 28 trunc).setBit (k 0) 27 imported).setBit (k 0) 26 gap

/-- GAUGE_WINDOW_COPY_DONE (R397, R398): the copy of a window that has reached its end; a mark that waited begins. -/
def execGaugeWindowCopyDone (s : State) : Res :=
  .next <|
    match s.gauge.copying with
    | none => s
    | some m =>
      if s.time.tick < m.stop && s.gauge.recording then s
      else match s.windowOf m with
      | none => s
      | some (w, trunc, gap, bytes) =>
        let s := s.windowEntry m.slot w trunc gap false bytes
        let s := { s with gauge.copying := none, gauge.windows := s.gauge.windows ++ [(m.slot, w)] }
        let s := (s.setFld P.gaugeStatus 6 5 0).ev 0 "GAUGE_WINDOW" [m.slot, m.cause]
        match s.gauge.waiting with
        | some n => { s with gauge.waiting := none }.startCopy n
        | none => s

/-- GAUGE_PROTECT (R398). -/
def execGaugeProtect (rq : Rq) (slot : Fin 8) (set : Bool) (s : State) : Res :=
  .next <| s.cmd rq 0x0A01 [0, 1] false true fun s =>
    if !s.bit (winKey slot 0) 31 then s.respond rq 0x0A01 St.refused 0 []
    else (s.setBit (winKey slot 0) 30 set).respond rq 0x0A01 St.ok 0 []

/-- The first 4 KiB of an export file (R400), up to the hashes and the firmware version. The layout's order is the table's. (DEDUCED, log entry 24) -/
def State.exportHeader (s : State) (slot : Nat) (w : GWin) : List Byte :=
  leBytes 4 0x58474157 ++ leBytes 4 1 ++ leBytes 4 (s.paramView P.sysSerial).toNat ++ leBytes 4 (s.paramView P.sysOrderCode).toNat ++
    leBytes 4 s.sys.posB.toNat ++ ((s.entry 0xA0C0 slot 16).flatMap fun x => leBytes 4 x.toNat) ++ w.prgHash ++ w.cfgHash ++
    leBytes 4 (s.paramView P.sysRtfVer).toNat

/-- GAUGE_EXPORT (R400, R546): bytes of the window's file. The bytes after the header's fixed fields are the recorder's own
encoding, which the spec does not give: they are free values. -/
def execGaugeExport (rq : Rq) (slot : Fin 8) (offset : Nat) (len : Fin 262141) (s : State) : Res :=
  .next <| s.cmd rq 0x0A02 [0, 1] false true fun s => s.starting rq 0x0A02 7 0 none fun s =>
    match s.gauge.windows.find? (fun x => x.1 == slot.val) with
    | none => s.respond rq 0x0A02 St.refused 0 []
    | some (_, w) =>
      let h := s.exportHeader slot w
      let (free, s) := s.drawBytes len
      let bytes := (h.drop offset).take len
      { s with gauge.exportAt := some s.plant }.respond rq 0x0A02 St.ok 0 (bytes ++ free.drop bytes.length)

/-! ### Replay (R401 to R406) -/

/-- REPLAY_LOAD (R401, R523): a transferred window imported into a free slot; `signed`: its signature verifies against the
identity certificate of the module it came from; `win` is its content. -/
def execReplayLoad (rq : Rq) (hash : List Byte) (signed : Bool) (win : GWin) (s : State) : Res :=
  .next <| s.cmd rq 0x0A10 [0] false (s.sys.mode == .hold || s.sys.mode == .service || s.sys.mode == .replay) fun s =>
    match s.img.objects.find? (fun o => o.hash == hash && o.kind == 4) with
    | none => s.respond rq 0x0A10 St.refused 0 []
    | some o => s.bg rq 0x0A10 [] fun s =>
      if !signed then (s.ev 6 "VERIFY_FAIL" []).respond rq 0x0A10 St.verifyFail 0 []
      else match ((o.slot <|> (List.range 8).find? fun i => !s.bit (winKey i 0) 31 : Option Nat)) with
      | none => s.respond rq 0x0A10 St.refused 0 []
      | some slot =>
        let s := (s.clearEntry 0xA0C0 slot 16).windowEntry slot win false false true o.size
        let wins : List (Nat × GWin) := s.gauge.windows.filter (fun x => x.1 != slot) ++ [(slot, win)]
        let s : State := { s with gauge.windows := wins, img.objects := s.img.objects.filter fun o => o.hash != hash }
        s.respond rq 0x0A10 St.ok 0 (leBytes 4 slot)

/-- The refusal cause of R402, 0 when replay may start. -/
def State.replayCause (s : State) (slot : Nat) : Nat :=
  match s.gauge.windows.find? (·.1 == slot) with
  | none => 4
  | some (_, w) =>
    if w.snaps.isEmpty then 4
    else if w.prgHash != s.prog.hash then 1
    else if w.cfgHash != s.cfgHash then 2
    else if w.level != fieldOf s.levels 23 16 then 3
    else 0

/-- REPLAY_START (R402, R403): the state at the latest snapshot at or before the requested tick is installed. (DEDUCED, log entry 92) -/
def execReplayStart (rq : Rq) (slot : Fin 8) (tick : Nat) (s : State) : Res :=
  .next <| s.cmd rq 0x0A11 [0] true (s.sys.mode == .replay) fun s =>
    if s.replay.rq.isSome then s.respond rq 0x0A11 St.refused 0 []
    else
      let c := s.replayCause slot
      match c, s.gauge.windows.find? (fun (x : Nat × GWin) => x.1 == slot.val) with
      | 0, some (_, w) =>
        s.bg rq 0x0A11 [] fun s =>
          let at_ : Option GSnap := (w.snaps.filter (·.tick ≤ tick)).getLast? <|> w.snaps.head?
          match at_ with
          | some n =>
            let k := n.tick
            let s := (s.loadMem n.pm n.dram).keepWords fun k => !transferred k
            let s := s.each (n.words.filter fun (x : Nat × U32) => transferred x.1) fun s x => s.setWord x.1 x.2
            let s := { s with
              replay := { slot := some slot, tick := k, start := k, executed := 0, second := 0, rq := some rq } }
            s.setWord P.replayStatus (withField 0 31 28 2)
          | none => s
      | c, _ => (s.setFld P.replayStatus 27 24 c).respond rq 0x0A11 St.refused c []

/-- The digests of a DIGEST payload for its mask bits, in ascending order (R293). -/
def digestsOf (d : List Byte) : List (Nat × Nat) :=
  let mask := ofLe ((d.drop 32).take 4)
  ((List.range 17).filter fun i => hasBit mask i).zipIdx.map fun x => (x.1, ofLe ((d.drop (40 + 8 * x.2)).take 8))

/-- The first difference of R403, in its order: kind, index, recorded and computed value, cell offset. -/
def firstDiff (recorded computed : List Byte) (recCells compCells : List (Nat × U32)) : Option (Nat × Nat × Nat × Nat × Nat) :=
  let r := digestsOf recorded
  let c := digestsOf computed
  match r.find? fun (x : Nat × Nat) => (c.find? (·.1 == x.1)).map (·.2) != some x.2 with
  | some (i, v) => some (if i < 16 then 1 else 2, if i < 16 then i else 0, v, ((c.find? (·.1 == i)).map (·.2)).getD 0, 0)
  | none =>
    if recorded.take 32 != computed.take 32 then
      some (3, 0, ofLe (recorded.take 8), ofLe (computed.take 8), 0)
    else match recCells.find? fun x => !(compCells.contains x) with
    | some (o, v) => some (4, 0, v.toNat, ((compCells.find? (·.1 == o)).map (·.2.toNat)).getD 0, o)
    | none => none

/-- The end of a replay (R404, R406): report, status, event on RC2, and the final response of `REPLAY_START`. (DEDUCED, log entry 36) -/
def State.replayEnd (s : State) (stop : Nat) (diff : Option (Nat × Nat × Nat × Nat × Nat)) : State :=
  let k := tkey 0xA0C1 0
  let (dk, di, rv, cv, off) := diff.getD (0, 0, 0, 0, 0)
  let split := s.sys.split != 0
  let s := (s.set64 (k 14) s.replay.tick).set64 (k 12) rv
  let s := (s.set64 (k 10) cv).set64 (k 8) s.replay.start
  let s := (s.set64 (k 6) s.replay.executed).setWord (k 4) (w32 off)
  let s := s.setWord (k 5) (withField (withField (withField (withField 0 31 28 stop) 27 24 dk) 23 16 di) 15 15 split.toNat)
  let s := (s.setFld P.replayStatus 31 28 (if stop = 2 then 3 else 4)).ev 2 "REPLAY_END" [stop]
  match s.replay.rq with
  | some rq =>
    let s := { s with replay.rq := none }
    s.respond rq 0x0A11 St.ok 0 ((s.entry 0xA0C1 0 16).flatMap fun x => leBytes 4 x.toNat)
  | none => s

/-- REPLAY_TICK (R403, R404): one tick from the records. `effects` are the effects of the runs that finish in it, `comp` what
it computed, `bad` a read or check error, `held`: a change package that a CHANGE record names is held. -/
def execReplayTick (effects : List (Nat × RunEffects)) (digest : List Byte) (cells : List (Nat × U32)) (bad held : Bool)
    (s : State) : Res :=
  .next <|
    match s.replay.slot, s.fld P.replayStatus 31 28 with
    | some slot, 2 =>
      match s.gauge.windows.find? (·.1 == slot) with
      | none => s.replayEnd 7 none
      | some (_, w) =>
        let rs := w.recs.filter (·.tick == s.replay.tick)
        let has (t : Nat) : Bool := rs.any (·.rtype == t)
        if bad then s.replayEnd 7 none
        else if has 0x0E then s.replayEnd 5 none
        else if has 0x0A then s.replayEnd 3 none
        else if has 0x08 && !held then s.replayEnd 4 none
        else
          let s := s.each rs fun s r =>
            let s := s.each r.pm fun s x => s.setPmByte x.1 x.2
            s.each r.words fun s x => s.setWord x.1 x.2
          let s := s.each effects fun s e =>
            let s := s.each e.2.vars fun s x => s.setPmByte x.1 x.2
            s.each e.2.inst fun s x => s.setDramByte x.1 x.2
          let recorded := ((rs.find? (·.rtype == 0x0C)).map (·.data)).getD digest
          let recCells := (rs.filter (·.rtype == 0x0B)).flatMap (·.words)
          let s := { s with replay.executed := s.replay.executed + 1 }
          match firstDiff recorded digest recCells cells with
          | some d => s.replayEnd 2 (some d)
          | none =>
            if w.endTick ≤ s.replay.tick then s.replayEnd 1 none
            else { s with replay.tick := s.replay.tick + 1 }
    | _, _ => s

/-- REPLAY_STOP (R404). -/
def execReplayStop (rq : Rq) (s : State) : Res :=
  .next <| s.cmd rq 0x0A12 [0] true (s.sys.mode == .replay) fun s =>
    (if s.fld P.replayStatus 31 28 == 2 then s.replayEnd 6 none else s).respond rq 0x0A12 St.ok 0 []

end Sys2Proof.Machine
end

