-- ==== Sys2Proof/Machine/Guards.lean ====
section
/-!
DEFINITION. The access guards' commands (file 18).
-/

namespace Sys2Proof.Machine

/-- The guard through which an initiator issues (R503). -/
def Initiator.guard : Initiator → Nat
  | .ep n _ _ => n | .loops _ _ => 4 | .acq _ _ => 5 | .gauge => 6 | .sync => 7 | .keeper _ _ => 8 | .debug _ _ => 9

/-- The privilege that its accesses carry (R503). -/
def Initiator.priv : Initiator → Nat
  | .ep _ p _ => p | .keeper _ _ => 0 | _ => 1

/-- A memory error met in an entry of a guard's current table (R511). -/
def State.regionError (s : State) (n e : Nat) : RegionError → State
  | .corrected => s.inc (P.guardEccCnt n)
  | .uncorrectable => s.setBit (curKey n e 3) 29 true
  | .altered ws => s.setWords (curKey n e 0) (ws.take 4)

/-- The run of the EP stops at the refused access (R515): its outputs and its other effects are gone, its instance keeps what it
wrote, and its task is suspended at the next boundary. (DEDUCED, log entry 51) -/
def State.stopRun (s : State) (ep : Nat) (inst : List (Nat × Byte)) : State :=
  match s.prog.running.getD ep none with
  | none => s
  | some m =>
    let s := s.putCells inst
    let s := s.modTask m fun t =>
      { t with released := none, finished := false, started := false, fresh := none, acc := RunEffects.none }
    let s := ((s.setBit (statKey m 0) 1 false).setBit (statKey m 0) 2 true).taskMiss m
    let chain := if s.taskKind m == 3 then Sys2Proof.setBit s.prog.chain (s.taskTrunk m) false else s.prog.chain
    { s with
      prog.chain := chain
      prog.running := s.prog.running.set ep none
      prog.guardStop := (s.prog.guardStop.filter (· != m)) ++ [m] }

/-- What the refusal does to its initiator (R515). (DEDUCED, log entry 51) -/
def State.refusal (s : State) (who : Initiator) : State :=
  match who with
  | .ep n p inst => if 2 ≤ p.val then s.stopRun n inst else { s with pair.faultSeen := true }
  | .loops 0 u => { s with loop.lateLoops := u :: s.loop.lateLoops }
  | .loops 1 u => { s with loop.lateGens := u :: s.loop.lateGens }
  | .loops _ u => { s with loop.lateGroups := u :: s.loop.lateGroups }
  | .acq u d => s.cuStop u 5 d
  | .gauge => s.gaugeTick true
  | .sync => s.inc P.syncLate
  | .keeper rq op => (s.respond rq op St.internal 0 []).ev 0 "COMMAND_INTERNAL" [op]
  | .debug rq op => s.respond rq op St.notPermitted 0 []

/-- A refusal at guard n: counts, the record and the events (R509 to R511, R514, R515). -/
def State.refuseAt (s : State) (n : Nat) (who : Initiator) (kind addr len : Nat) (f : Nat × Nat × Nat) : State :=
  let late := decide (10 ≤ n)
  let straddle := decide (f.1 ≠ addr)
  let beats := (addr + len - 1) / 8 - addr / 8 + 1
  let s := s.guardFault n (s.guardWords n f.1 addr f.2.1 who.priv kind beats f.2.2 who.guard straddle late)
  let s := (s.inc (P.guardRefuseCnt n)).setBit (P.guardStatus n) 10 true
  let s := s.when straddle fun s => s.inc (P.guardStraddleCnt n)
  let s := s.when (2 ≤ who.priv) fun s => s.inc (P.guardAppCnt n)
  let s := s.when late fun s => (s.inc (P.guardLateCnt n)).inc (P.guardLateCnt who.guard)
  let s := if f.2.1 = 3 then
      ((s.inc (P.guardOverlapCnt n)).setBit (P.guardStatus n) 13 true).ev 5 "GUARD_OVERLAP" [n, f.2.2]
    else s
  (s.ev 5 "GUARD_REFUSED" [n, f.2.1, who.guard]).refusal who

/-- The guard that refuses an access, and what it finds: the initiator's issue guard, unless the access has passed it, then the arrival
guard of its address (R503, R504, R510). -/
def State.guardFinds (s : State) (who : Initiator) (kind a len : Nat) (passed : Bool) : Option (Nat × Nat × Nat × Nat) :=
  match if passed then none else s.guardCheck who.guard a len who.priv kind with
  | some f => some (who.guard, f)
  | none =>
    match arrivalGuard a with
    | none => none
    | some n => (s.guardCheck n a len who.priv kind).map fun f => (n, f)

/-- GUARD_ACCESS_REFUSED (R509 to R511, R514, R515): an access of `len` bytes; `kind` 0 read, 1 write, 2 fetch. `errors` are memory
errors met in the entries as they are checked; `passed`: its issue guard checked it under rules since replaced. An access that both
guards admit is none of this row's. -/
def execGuardAccessRefused (who : Initiator) (kind : Fin 3) (addr : BitVec 48) (len : Fin 65) (passed : Bool)
    (errors : List (Fin 16 × Fin 32 × RegionError)) (s : State) : Res :=
  .next <|
    let s := s.each errors fun s x => s.regionError x.1 x.2.1 x.2.2
    match s.guardFinds who kind addr.toNat len passed with
    | some (n, f) => s.refuseAt n who kind addr.toNat len f
    | none => s

/-- GUARD_SWITCH (R513): the guards whose arming has reached its effect tick switch; issue guards first. -/
def execGuardSwitch (s : State) : Res :=
  .next <| s.each ((List.range 16).filter fun n => s.kpr.staged.any fun c =>
    decide (c.effect ≤ s.time.tick) && c.items.contains (.guardArm n)) fun s n =>
      { s.guardSwitch n with kpr.staged := s.kpr.staged.map fun c =>
          if c.effect ≤ s.time.tick then { c with items := c.items.filter (· != .guardArm n) } else c }

end Sys2Proof.Machine
end

