-- ==== Sys2Proof/Machine/ModeOps.lean ====
section
/-!
DEFINITION. The shared operations of modes and roles (files 09, 10 and 14): entering a mode and what ends with the old one, a
pending transition with its precedence, the withdrawal, and the end of a resync.
-/

namespace Sys2Proof.Machine

/-- The modes in which the module emits (R247, R409). -/
def Mode.emits (m : Mode) : Bool := m.run || m == .commission

/-- The final response of a request that its mailbox and tag name, whatever its opcode (R443). (DEDUCED, log entry 37) -/
def State.finishAny (s : State) (mb : Fin 8) (tag : U16) (status detail : Nat) : State :=
  match s.kpr.reqs.find? fun r => r.rq.mb == mb && r.rq.tag == tag with
  | some r => s.respond r.rq r.opcode status detail []
  | none => s

/-! ### What ends with a mode -/

/-- A reflectometry run that waits is given up (R87, R452). -/
def State.tdrAbort (s : State) (p : Nat) : State :=
  match (s.port p).tdrPending with
  | some (mb, tag) =>
    ((s.setBit (P.trkStatus p) 7 false).modPort p fun q => { q with tdrPending := none, tdrWait := 0 }).finishTag mb tag 0x0301
      St.aborted 0 []
  | none => s

/-- Emission ends on every port (R249): no beacon, broadcast, contention or event-round frame. -/
def State.leaveEmission (s : State) : State :=
  let lead : Bool := match s.sync.resync with
    | some r => r.lead
    | none => false
  let s := s.when lead fun s => { s.setFld P.syncStatus 31 28 0 with sync := { s.sync with resync := none, accepted := none } }
  s.each (List.range 16) fun s p =>
    let s := (s.setBit (P.schedStatus p) 14 false).setBit (P.schedStatus p) 13 false
    s.modPort p fun q => { q with begun := false, running := false, firstCycle := false, round := none }

/-- A distribution of station firmware goes no further in this module; its journal stays (R427, R536). -/
def State.stnHalt (s : State) (p : Nat) : State :=
  if s.fld (P.imgStnStatus p) 31 29 = 2 then
    let rq : Option Rq := ((s.img.journals.find? fun (j : StnJournal) => j.port == p).bind (·.rq))
    let js := s.img.journals.map fun (j : StnJournal) => if j.port == p then { j with rq := none } else j
    let s := ({ s with img.journals := js }.setFld (P.imgStnStatus p) 31 29 5).modPort p fun q => { q with serves := [] }
    let s := s.setWord (P.imgStnActive p) 0
    match rq with
    | some rq => s.respond rq 0x0D19 St.aborted 0 []
    | none => s
  else s

/-- Requests to stations end when the module no longer contends for event rounds (R123, R443, R576). -/
def State.leaveContend (s : State) : State :=
  s.each (List.range 16) fun s p =>
    let s := match (s.port p).comm with
      | some k => if k.running then s.finishTag k.mb k.tag 0x0300 St.aborted 0 [] else s
      | none => s
    let s := s.each (s.port p).kreqs fun s k => match k.origin with
      | .mailbox mb tag => s.finishAny mb tag St.aborted 0
      | _ => s
    (s.modPort p fun q => { q with comm := none, kreqs := [], trainRuns := [] }).stnHalt p

/-- The run modes are left: the program, the local outputs and the transactions that need them end (R350, R371, R391). (DEDUCED, log entry 35) -/
def State.leaveRun (s : State) : State := s.stopProgram.chgReset.outputsOff.hartAbandon

/-- The manual outputs of SERVICE end with it (R352), and the service port's connections (R475). -/
def State.leaveService (s : State) : State := ({ s with fio.manualDio := 0, fio.manualCl := [] }.portConnsLost 2).outputsOff

/-- The rate search of every port in use begins (R81). -/
def State.beginSearch (s : State) : State :=
  s.each (List.range 16) fun s p =>
    let s := ((s.setBit (P.trkStatus p) 15 false).setBit (P.trkStatus p) 14 false).setBit (P.trkStatus p) 13 false
    s.modPort p fun q => { q with searchRate := 0, rateCand := none, rotEq := 0, headHeard := false, headHeardPrev := false }

/-! ### The end of a resync (R309) -/

/-- Three abandons within 1 h of plant time block the rejoin (R309). (DEDUCED, log entry 36) -/
def State.countAbandon (s : State) : State :=
  let now := s.plant
  let l := now :: s.sync.abandons.filter fun t => decide (now < t + 3600000000000)
  let s := { s with sync.abandons := l }
  if 3 ≤ l.length then s.setBit P.pairStatus 19 true else s

/-- The words that an abandoned resync leaves (R310, R311). -/
def State.resyncWords (s : State) (cause sent : Nat) : State :=
  let s := ((s.setFld P.syncStatus 31 28 0).setFld P.syncStatus 27 24 cause).setBit P.syncStatus 17 true
  (s.inc P.resyncAbandonCnt).setWord P.resyncLastPages (w32 sent)

/-- A resync given up by this module: everything received is discarded, the partner is told while a link is usable, and the
next attempt waits 10 s (R309). The mode is the caller's. -/
def State.resyncDrop (s : State) (cause : Nat) : State :=
  match s.sync.resync with
  | none => s
  | some r =>
    let usable := s.bit P.syncStatus 14 || s.bit P.syncStatus 13
    let s := (s.resyncWords cause r.sent).ev 3 "RESYNC_ABANDONED" [cause]
    let s := s.when usable fun s => s.control 0x35 cause 0 s.time.tick
    if r.lead then { s with sync.resync := none }
    else
      let s := { s with sync := { s.sync with resync := none, retryAt := some (s.plant + 10000000000) } }.clearPm
      (s.freshTasks.setBit P.prgStatus 15 false).stopLoops.countAbandon

/-- Requests that a trail has relayed are answered when it is a trail no longer (R445). (DEDUCED, log entry 74) -/
def State.dropRelays (s : State) : State :=
  { s with kpr.relays := [] }.each s.kpr.relays fun s r => s.respond r.rq r.opcode St.partnerFail 0 []

/-! ### Entering a mode (R247, R250, R409, R411) -/

/-- What entering a mode begins. -/
def State.beginMode (s : State) (m : Mode) : State :=
  match m with
  | .listen => { s with sync.stepped := false }.beginSearch
  | .trail => { s with sys.proofPending := false }
  | .boot | .update | .faultSafe => s.cuDropAll 6
  | _ => s

/-- A role change recorded (R250, R277): the highest claim known is saved, and the tick kept. -/
def State.roleChange (s : State) (m : Mode) : State :=
  let h := s.highest
  let keep := m.emits
  let s := { s with pair := { s.pair with saved := h, high := h, claim := if keep then s.pair.claim else 0 } }
  let s := s.set64 P.pairLastChangeLo s.evTick
  let s := if m == .standalone || m == .lead then s
    else { s.setBit P.pairStatus 18 false with pair.suspect := 0 }
  s.ev 3 "ROLE" [s.sys.mode.role, m.role]

/-- The module enters a mode: what the old mode carried ends, the readout and the records change. `cause` is the number written
on RC0: 0 a reset or BOOT, 1 a hardware fault, 2 the lever, 3 a withdrawal, 4 a pair transition, 5 a request. -/
def State.enterMode (s : State) (m : Mode) (cause : Nat) : State :=
  let o := s.sys.mode
  if o == m then s
  else
    let s := if o.emits && !m.emits then s.leaveEmission else s
    let s := if o.contends && !m.contends then s.leaveContend else s
    let s := if o.run && !m.run then s.leaveRun else s
    let s := if o == .service then s.leaveService else s
    let s := if o == .resync && !m.run then s.resyncDrop (if m == .hold then 7 else 8) else s
    let s := if o == .replay && s.fld P.replayStatus 31 28 == 2 then s.replayEnd 6 none else s
    let s := if o == .listen then { s with sys.runStanding := false } else s
    let s := if o == .trail then s.dropRelays else s
    let s := if o.role != m.role then s.roleChange m else s
    let s := { s with sys := { s.sys with mode := m, prev := o } }
    let s := (s.set64 P.sysModeTickLo s.evTick).ev 0 "MODE" [o.num, m.num, cause]
    let s := s.beginMode m
    let s := if m.hart then s else s.hartAbandon
    s.each (List.range 16) fun s p => if s.gatePulse p then s else s.tdrAbort p

/-! ### Pending transitions (R412, R413) -/

/-- The rank of a cause in R413; a smaller rank prevails. -/
def ModeCause.rank : ModeCause → Nat
  | .hardware => 2 | .lever => 3 | .withdrawal _ => 4 | .pair => 5 | .request => 6

/-- The number of a cause as it is written on RC0. (DESIGN CHOICE, log entry 40) -/
def ModeCause.code : ModeCause → Nat
  | .hardware => 1 | .lever => 2 | .withdrawal _ => 3 | .pair => 4 | .request => 5

/-- The pending request, if any, is answered as refused (R413). (DEDUCED, log entry 54) -/
def State.refusePending (s : State) : State :=
  match s.sys.pendingRq with
  | some (rq, op) => { s with sys.pendingRq := none }.respond rq op St.refused 0 []
  | none => s

/-- No transition is pending: the one that was is dropped, and the loss recorded (R413). -/
def State.dropPending (s : State) : State :=
  match s.sys.pending with
  | some (_, c) => (({ s with sys.pending := none }).ev 0 "MODE_CAUSE_DROPPED" [c.rank]).refusePending
  | none => s

/-- A transition to take effect at the next tick boundary, unless one of higher precedence is pending (R412, R413). (DESIGN CHOICE, log entry 8) -/
def State.pend (s : State) (m : Mode) (c : ModeCause) : State :=
  match s.sys.pending with
  | some (_, c') =>
    if c'.rank ≤ c.rank then s.ev 0 "MODE_CAUSE_DROPPED" [c.rank]
    else { s.dropPending with sys.pending := some (m, c) }
  | none => { s with sys.pending := some (m, c) }

/-! ### Withdrawal (R249) -/

/-- The mode that a withdrawal cause gives (R249). (DESIGN CHOICE, log entry 8; DEDUCED, log entry 34) -/
def State.withdrawTo (s : State) (cause : Nat) : Mode :=
  match cause with
  | 1 | 2 => .faultSafe
  | 9 => .hold
  | 0x0B => match s.sys.pending with
    | some (m, _) => m
    | none => .update
  | _ => .listen

/-- A withdrawal with cause 0x03 counts towards the block of R259. -/
def State.countUnresolved (s : State) (cause : Nat) : State :=
  if cause ≠ 3 then s
  else
    let now := s.plant
    let l := now :: s.pair.withdrawn03.filter fun t => decide (now < t + 86400000000000)
    let s := { s with pair.withdrawn03 := l }
    if 3 ≤ l.length then s.setBit P.pairStatus 19 true else s

/-- No pair activity of a running module is left: resolution, handover, takeover, waits (R256, R267). (DEDUCED, log entry 35) -/
def State.clearPairWork (s : State) : State :=
  let s := ((s.setBit P.pairStatus 25 false).setBit P.pairStatus 23 false).setBit P.pairStatus 22 false
  { s with pair := { s.pair with
      resolution := none, waitLead := none, handover := none, withdrawing := none, takeoverDue := false
      afterHandover := none, waitHandover := none, withdrawAt := none, firstNoHb := none, faultSeen := false } }

/-- The withdrawal itself (R249): the cause is recorded, emission ends, the local outputs are de-energised, and the module enters
the mode that the cause gives. (DEDUCED, log entry 34) -/
def State.withdraw (s : State) (cause : Nat) : State :=
  let m := s.withdrawTo cause
  let s := if s.sys.mode.run then s.gaugeAuto 3 else s
  let s := (s.setFld P.pairStatus 13 9 cause).ev 3 "WITHDRAWAL" [cause, m.num]
  let s := (s.countUnresolved cause).clearPairWork
  let s := s.enterMode m (if cause = 9 then 2 else if cause = 1 then 1 else if cause = 0x0B then 5 else 3)
  match cause, s.sys.pending, s.sys.pendingRq with
  | 0x0B, some _, some (rq, op) =>
    { s with sys := { s.sys with pending := none, pendingRq := none } }.respond rq op St.ok 0 (leBytes 8 s.time.tick)
  | 0x0B, _, _ => { s with sys.pending := none }
  | _, _, _ => s.dropPending

/-- A fault that the hardware detects (R249, R320, R566): the gates close at once and a pending transition is dropped. The notice
goes out in the next exchange. -/
def State.hardWithdraw (s : State) (cause : Nat) (m : Mode) : State :=
  let s := { s with sys.pending := none }.refusePending
  if s.sys.mode.emits then
    let s := s.control 0x01 cause 0 s.time.tick
    s.withdraw cause
  else (s.clearPairWork.enterMode m 1)

end Sys2Proof.Machine
end

