-- ==== Sys2Proof/Machine/ImgOps.lean ====
section
/-!
DEFINITION. Images (file 19): an image's header, checks and hash, the entries of `IMG_BANKS`, the bank choice with fall-back
and recovery, and the settings across an activation.
-/

namespace Sys2Proof.Machine

/-! ### The image format (R521, R522). The widths of the first header fields are the log's entry 14. -/

def Obj.u (o : Obj) (off n : Nat) : Nat := ofLe (Cmap.getAll byteDflt o.data off n)

def Obj.cls (o : Obj) : Nat := o.u 8 4
def Obj.blocks (o : Obj) : Nat := o.u 24 4

/-- The manifest that follows the body. (DESIGN CHOICE, log entry 14) -/
def Obj.manifest (o : Obj) : List Byte := Cmap.getAll byteDflt o.data (4096 + 65536 * o.blocks) (32 * (o.blocks + 1))

/-- The image hash (R521). -/
def Obj.imageHash (o : Obj) : List Byte := shake256 o.manifest 32

/-- The manifest that the header and the body give. -/
def Obj.manifestOf (o : Obj) : List Byte :=
  shake256 (Cmap.getAll byteDflt o.data 0 4096) 32 ++
    (List.range o.blocks).flatMap fun b => shake256 (Cmap.getAll byteDflt o.data (4096 + 65536 * b) 65536) 32

/-- An image is valid for one of the classes expected (R522); `signed`: its signature verifies with its class's key. An unowned
module accepts no plant image. -/
def State.imageValid (s : State) (o : Obj) (signed : Bool) (classes : List Nat) : Bool :=
  signed && classes.contains o.cls && o.u 0 4 == 0x4D494157 && o.u 4 4 == 1 && o.manifest == o.manifestOf &&
    (o.cls < 5 || s.kpr.ownerKey.isSome)

/-- The closed object of a kind that a hash names (R523). (DEDUCED, log entry 45) -/
def State.object (s : State) (kind : Nat) (hash : List Byte) : Option Obj :=
  s.img.objects.find? fun (o : Obj) => o.kind == kind && o.hash == hash

/-- An object used: it stays no longer (R523). -/
def State.dropObject (s : State) (hash : List Byte) : State :=
  { s with img.objects := s.img.objects.filter fun (o : Obj) => o.hash != hash }

/-- The words of an image's entry in `IMG_BANKS`, written now (R544). -/
def State.bankWords (s : State) (o : Obj) (active : Bool) : List U32 :=
  let h := o.imageHash
  [w32 (o.cls * 2 ^ 28 + 2 ^ 27 + 2 ^ 26 + active.toNat * 2 ^ 25 + (decide (5 ≤ o.cls)).toNat * 2 ^ 23), 0,
    lo32 s.plant, hi32 s.plant, w32 (o.u 32 4), w32 (o.u 28 1 * 2 ^ 24 + o.u 29 1 * 2 ^ 16 + o.u 30 1 * 256 + o.u 31 1),
    w32 (o.u 12 4), w32 (o.u 16 8)] ++ (List.range 8).map fun w => w32 (ofLe ((h.drop (4 * w)).take 4))

/-- An entry of `IMG_BANKS` copied, with its time taken now. -/
def State.copyBank (s : State) (src dst : Nat) : State :=
  let ws := s.entry 0xD0C0 src 16
  ((s.setWords (bankKey dst 0) ws).setWord (bankKey dst 2) (lo32 s.plant)).setWord (bankKey dst 3) (hi32 s.plant)

/-- `IMG_CHAMBER` (R541). -/
def State.chamberWord (s : State) : State :=
  s.setWord P.imgChamber (w32 ((List.range 4).foldl (fun m c => if s.bit (bankKey (8 + c) 0) 27 then m + 2 ^ (c + 1) else m) 0))

/-- The Chamber emptied (R524). -/
def State.emptyChamber (s : State) : State :=
  (s.each (List.range 4) fun s c => { s.clearEntry 0xD0C0 (8 + c) 16 with img.chamber := [] }).chamberWord

/-! ### Settings (R528) -/

/-- The bits of a word of the word file that are settings. -/
def settingMask (k : Nat) : U32 :=
  if k < 2 ^ 16 then match paramRow k with
    | some r => if r.acc = .rw then 0xFFFFFFFF#32 else 0
    | none => 0
  else match tableRow ((k - 2 ^ 32) / 2 ^ 20) with
    | some r => r.mask (k % 2 ^ 6)
    | none => 0

/-- The settings of an earlier word file back in force; all else stays. -/
def State.restoreSettings (s : State) (old : List (Nat × U32)) : State :=
  s.each ((old.map (·.1)) ++ (s.words.map (·.1))) fun s k =>
    let m := settingMask k
    if m = 0 then s else s.setWord k ((Cmap.get dfltWord old k &&& m) ||| (s.word k &&& ~~~ m))

/-! ### Activation, health and the bank choice (R525 to R528) -/

/-- The health window ends: no settings of the old firmware are held any more. -/
def State.endHealth (s : State) : State :=
  let s := (s.setBit P.imgStatus 15 false).setBit P.imgStatus 14 false
  { s with
    img := { s.img with healthAt := none, cleanSince := none, oldWords := none, windowWrites := 0, fallCause := none }
    maint.upd := false }

/-- The confirmation (R527). -/
def State.confirmImage (s : State) : State :=
  (s.endHealth.setBit P.imgStatus 9 true).ev 6 "IMG_CONFIRMED" []

/-- `ACTIVE` of the bank that runs (R544). (DEDUCED, log entry 39) -/
def State.runFrom (s : State) (b : Nat) : State :=
  s.each (List.range 8) fun s e => s.setBit (bankKey e 0) 25 (e / 4 == b)

/-- The fall-back at a start (R526, R528). -/
def State.fallBack (s : State) : State :=
  let cause : Nat := s.img.fallCause.getD 2
  let bad := (s.word P.imgActiveBank).toNat
  let lost := s.img.windowWrites
  let s := s.setWord P.imgActiveBank (w32 (1 - bad))
  let s := s.each (List.range 4) fun s c => (s.setBit (bankKey (4 * bad + c) 0) 27 false).setBit (bankKey (4 * bad + c) 0) 24 true
  let s := match s.img.oldWords with
    | some old => s.restoreSettings old
    | none => s
  let s := ((s.endHealth.setBit P.imgStatus 13 true).setFld P.imgStatus 7 4 cause).inc P.imgFallbackCnt
  (s.setWord P.imgLostWrites (w32 lost)).ev 6 "IMG_FELL_BACK" [cause, lost]

/-- The bank choice at a start (R526). `bankOk`: bit b when bank b verifies now. `activation`: this is the activation restart. -/
def State.chooseBank (s : State) (bankOk : Nat) (activation : Bool) : State :=
  let s := if s.bit P.imgStatus 15 && !activation then s.fallBack else s
  let s := (s.each (List.range 8) fun s e => s.setBit (bankKey e 0) 26 (s.bit (bankKey e 0) 27 && hasBit bankOk (e / 4)))
  let active := (s.word P.imgActiveBank).toNat
  let chosen := if s.sys.bootsel = 1 then 1 - active else active
  let recover := fun (s : State) => { (s.setBit P.imgStatus 11 true).ev 6 "IMG_RECOVERY" [] with sys.toUpdate := true }
  if s.sys.bootsel = 2 then recover s
  else if hasBit bankOk chosen then
    { (s.setBit P.imgStatus 11 false).runFrom chosen with sys.toUpdate := false }
  else
    let s := s.ev 6 "VERIFY_FAIL" [chosen]
    if hasBit bankOk (1 - chosen) then
      let s := ((s.setBit P.imgStatus 11 false).setBit P.imgStatus 12 true).ev 6 "BANK_SWITCHED" [1 - chosen]
      { s.runFrom (1 - chosen) with sys.toUpdate := false }
    else recover s

/-- A planned restart with cause SWR: of the main domain (0) or the whole module (1); RESET_SWR carries it out (R416). -/
def State.planRestart (s : State) (scope : Nat) : State := { s with kpr.restart := some scope }

/-- A fall-back that the module plans: journalled with its cause, withdrawn with 0x0B when it holds a role, and restarted (R527,
R528). (DEDUCED, log entry 39) -/
def State.planFallBack (s : State) (cause : Nat) : State :=
  ({ s with img.fallCause := some cause }.decideWithdraw 0x0B).planRestart 1

/-- The entry of `IMG_BANKS` that the set after an activation has for a firmware class: the Chamber's, or the active bank's
(R525). -/
def State.setEntry (s : State) (c : Nat) : Nat :=
  if s.bit (bankKey (8 + c) 0) 27 then 8 + c else 4 * (s.word P.imgActiveBank).toNat + c

/-- A revision of four bytes is above another in some byte (R521, R525). -/
def revAbove (a b : U32) : Bool := (List.range 4).any fun i => decide (fieldOf b (8 * i + 7) (8 * i) < fieldOf a (8 * i + 7) (8 * i))

/-- The detail for which `IMG_ACTIVATE` is refused, or 0 (R525). The set's pair protocol level is that of its RTF image. (DEDUCED, log entry 43) -/
def State.activateCause (s : State) : Nat :=
  let es := (List.range 4).map s.setEntry
  let code := s.word (bankKey (s.setEntry 0) 4)
  let ppl := s.fld (bankKey (s.setEntry 1) 5) 31 24
  let theirs : Nat := (s.sync.beatLast.map (·.pairLevel)).getD ppl
  if s.word P.imgChamber = 0 then 1
  else if es.any fun e => s.word (bankKey e 4) != code then 2
  else if s.img.chamber.any fun (x : Nat × U32 × List Byte) => revAbove x.2.1 Config.hwRev then 3
  else if (s.pair.partner == .trail || s.pair.partner == .lead) && decide (ppl + 1 < theirs ∨ theirs + 1 < ppl) then 4
  else if hasBit s.maint.partner 15 then 5
  else 0

end Sys2Proof.Machine
end

