-- ==== Sys2Proof/Machine/Images.lean ====
section
/-!
DEFINITION. The commands of images, transfers, activation, identity and attestation (R523 to R529, R537 to R540).
-/

namespace Sys2Proof.Machine

/-! ### Transfer (R523) -/

/-- The largest object of a kind (R523), in bytes. -/
def maxSize (kind : Nat) : Nat :=
  match kind with
  | 1 => 256 * 2 ^ 20
  | 2 => 2 ^ 30
  | 3 => 64 * 2 ^ 20
  | 4 => 2 * 2 ^ 30
  | _ => 0

/-- The bytes of the transfer area in use; a Gauge window stands in its slot. -/
def State.transferUsed (s : State) : Nat :=
  ((s.img.xfers.map fun (x : Xfer) => if x.kind = 4 then 0 else x.size) ++
    (s.img.objects.map fun (o : Obj) => if o.kind = 4 then 0 else o.size)).foldl (· + ·) 0

/-- A slot of R398 that nothing holds. -/
def State.freeSlot (s : State) : Option Nat :=
  (List.range 8).find? fun i => !s.bit (winKey i 0) 31 && (s.gauge.copying.map (·.slot)) != some i &&
    (s.gauge.waiting.map (·.slot)) != some i && !(s.img.xfers.any fun (x : Xfer) => x.slot == some i) &&
    !(s.img.objects.any fun (o : Obj) => o.slot == some i)

/-- IMG_XFER_OPEN (R523). -/
def execImgXferOpen (rq : Rq) (kind : U8) (size : U64) (hash : List Byte) (s : State) : Res :=
  .next <| s.cmd rq 0x0D00 [6] false true fun s =>
    let k := kind.toNat
    let n := size.toNat
    if hash.length ≠ 32 then s.respond rq 0x0D00 St.badLength 0 []
    else if k < 1 ∨ 4 < k ∨ maxSize k < n then s.respond rq 0x0D00 St.outOfRange 0 []
    else if 4 ≤ s.img.xfers.length ∨ (k ≠ 4 ∧ 4 * 2 ^ 30 < s.transferUsed + n) then s.respond rq 0x0D00 St.refused 0 []
    else
      let slot : Option Nat := if k = 4 then s.freeSlot else none
      if k = 4 ∧ slot.isNone then s.respond rq 0x0D00 St.refused 0 []
      else
        let x : Xfer := ⟨s.img.nextNum, k, n, hash, [], [], slot⟩
        { s with
          img.xfers := s.img.xfers ++ [x]
          img.nextNum := (s.img.nextNum + 1) % 2 ^ 32 }.respond rq 0x0D00 St.ok 0 (leBytes 4 x.num)

/-- A range joined to the ranges held, which are disjoint. -/
def addRange (a b : Nat) (l : List (Nat × Nat)) : List (Nat × Nat) :=
  let touch := l.filter fun (r : Nat × Nat) => decide (r.1 ≤ b ∧ a ≤ r.2)
  let rest := l.filter fun (r : Nat × Nat) => !decide (r.1 ≤ b ∧ a ≤ r.2)
  (touch.foldl (fun m r => min m r.1) a, touch.foldl (fun m r => max m r.2) b) :: rest

/-- The bytes held of a transfer. -/
def Xfer.held (x : Xfer) : Nat := (x.ranges.map fun r => r.2 - r.1).foldl (· + ·) 0

/-- IMG_XFER_DATA (R523): at any offset, and again. -/
def execImgXferData (rq : Rq) (num : U32) (offset : U64) (data : List Byte) (s : State) : Res :=
  .next <| s.cmd rq 0x0D01 [6] false true fun s =>
    if 262128 < data.length then s.respond rq 0x0D01 St.badLength 0 []
    else match s.img.xfers.find? fun (x : Xfer) => x.num == num.toNat with
    | none => s.respond rq 0x0D01 St.refused 0 []
    | some x =>
      let o := offset.toNat
      if x.size < o + data.length then s.respond rq 0x0D01 St.outOfRange 0 []
      else
        let y := { x with
          data := Cmap.putAll byteDflt x.data o data
          ranges := if data.isEmpty then x.ranges else addRange o (o + data.length) x.ranges }
        { s with img.xfers := s.img.xfers.map fun (z : Xfer) => if z.num = x.num then y else z }.respond rq 0x0D01 St.ok 0
          (leBytes 8 y.held)

/-- IMG_XFER_CLOSE (R523): the whole object is checked against the declared value. (DESIGN CHOICE, log entry 44) -/
def execImgXferClose (rq : Rq) (num : U32) (s : State) : Res :=
  .next <| s.cmd rq 0x0D02 [6] false true fun s =>
    match s.img.xfers.find? fun (x : Xfer) => x.num == num.toNat with
    | none => s.respond rq 0x0D02 St.refused 0 []
    | some x => s.bg rq 0x0D02 [] fun s =>
      if x.held ≠ x.size then s.respond rq 0x0D02 St.refused 0 []
      else if shake256 (Cmap.getAll byteDflt x.data 0 x.size) 32 != x.hash then
        ({ s with img.xfers := s.img.xfers.filter fun (z : Xfer) => z.num != x.num }.ev 6 "VERIFY_FAIL" []).respond rq 0x0D02
          St.verifyFail 0 []
      else
        let o : Obj := ⟨x.hash, x.kind, x.size, x.data, s.plant, x.slot⟩
        { (s.dropObject x.hash) with
          img.xfers := s.img.xfers.filter fun (z : Xfer) => z.num != x.num
          img.objects := (s.dropObject x.hash).img.objects ++ [o] }.respond rq 0x0D02 St.ok 0 []

/-- IMG_XFER_DROP (R523). -/
def execImgXferDrop (rq : Rq) (hash : List Byte) (s : State) : Res :=
  .next <| s.cmd rq 0x0D03 [6] false true fun s =>
    if s.img.objects.any fun (o : Obj) => o.hash == hash then (s.dropObject hash).respond rq 0x0D03 St.ok 0 []
    else s.respond rq 0x0D03 St.refused 0 []

/-- TRANSFER_EXPIRE (R523): 24 h of plant time without use. -/
def execTransferExpire (s : State) : Res :=
  .next { s with img.objects := s.img.objects.filter fun (o : Obj) => decide (s.plant < o.usedAt + 86400000000000) }

/-! ### Firmware sets (R524 to R528) -/

/-- IMG_STAGE (R524): `signed`: the signature verifies with the Wiulas key. (DESIGN CHOICE, log entry 44; DEDUCED, log entry 45) -/
def execImgStage (rq : Rq) (hash : List Byte) (signed : Bool) (s : State) : Res :=
  .next <| s.cmd rq 0x0D04 [6] false (s.sys.mode != .boot && s.sys.mode != .faultSafe) fun s =>
    match s.object 1 hash with
    | none => s.respond rq 0x0D04 St.refused 0 []
    | some o => s.bg rq 0x0D04 [] fun s =>
      if !s.imageValid o signed [1, 2, 3, 4] then (s.ev 6 "VERIFY_FAIL" [o.cls]).respond rq 0x0D04 St.verifyFail 0 []
      else
        let c := o.cls - 1
        let s := (s.setWords (bankKey (8 + c) 0) (s.bankWords o false)).chamberWord
        let s := { s.dropObject hash with img.chamber :=
            (s.img.chamber.filter fun (x : Nat × U32 × List Byte) => x.1 != c) ++ [(c, w32 (o.u 36 4), o.manifest)] }
        (s.ev 6 "IMG_STAGED" [o.cls]).respond rq 0x0D04 St.ok 0 (leBytes 4 (s.word P.imgChamber).toNat)

/-- IMG_CHAMBER_CLEAR (R524): not while the copy of step 3 of R525 is pending. -/
def execImgChamberClear (rq : Rq) (s : State) : Res :=
  .next <| s.cmd rq 0x0D05 [6] false (!s.bit P.imgStatus 10) fun s => s.emptyChamber.respond rq 0x0D05 St.ok 0 []

/-- IMG_ACTIVATE (R525): step 1; the restart follows. -/
def execImgActivate (rq : Rq) (s : State) : Res :=
  .next <| s.cmd rq 0x0D06 [6] false (s.sys.mode == .update && !s.img.activating) fun s =>
    let c := s.activateCause
    if c != 0 then s.respond rq 0x0D06 St.refused c []
    else
      let s := { s.setBit P.imgStatus 10 true with img.activating := true }
      (s.planRestart 1).respond rq 0x0D06 St.ok 0 []

/-- ACTIVATION_COPY (R427, R525): steps 3 and 4 of the activation, at the start with the copy journalled. `ok`: every block
verified as it was written; `bankOk` as for the bank choice. -/
def execActivationCopy (ok : Bool) (bankOk : Fin 4) (s : State) : Res :=
  .next <|
    if !s.bit P.imgStatus 10 || !s.sys.keeperUp then s
    else if !ok then
      let s := { (s.setBit P.imgStatus 10 false).emptyChamber with img.activating := false }
      ((s.ev 6 "ACTIVATION_COPY_FAIL" []).ev 0 "ACTIVATION_COPY_FAIL" []).chooseBank bankOk.val true
    else
      let dst := 1 - (s.word P.imgActiveBank).toNat
      let s := s.each (List.range 4) fun s c => s.copyBank (s.setEntry c) (4 * dst + c)
      let old := s.words
      let s := ((s.setBit P.imgStatus 10 false).setWord P.imgActiveBank (w32 dst)).emptyChamber
      let s := ((s.setBit P.imgStatus 15 true).setBit P.imgStatus 14 true).inc P.imgActivateCnt
      let s := { s with img := { s.img with
          activating := false, healthAt := some s.kpr.now, cleanSince := none, oldWords := some old, windowWrites := 0
          fallCause := none } }
      (s.ev 6 "IMG_ACTIVATED" [dst]).chooseBank bankOk.val true

/-- IMG_CONFIRM (R527). -/
def execImgConfirm (rq : Rq) (s : State) : Res :=
  .next <| s.cmd rq 0x0D07 [0, 6] false
    (s.bit P.imgStatus 15 && s.sys.mode != .faultSafe && !s.bit P.chkStatus 14) fun s =>
      s.confirmImage.respond rq 0x0D07 St.ok 0 []

/-- IMG_REVERT (R527). -/
def execImgRevert (rq : Rq) (s : State) : Res :=
  .next <| s.cmd rq 0x0D08 [0, 6] false (s.bit P.imgStatus 15) fun s => (s.respond rq 0x0D08 St.ok 0 []).planFallBack 3

/-- HEALTH_WINDOW_EXPIRE (R527). (DEDUCED, log entry 91) -/
def execHealthWindowExpire (s : State) : Res :=
  .next <| match s.img.healthAt with
    | some t => if s.bit P.imgStatus 15 && decide (t + 900000 ≤ s.kpr.now) && s.img.fallCause.isNone then s.planFallBack 1 else s
    | none => s

/-- HEALTH_AUTO_CONFIRM (R527): the Keeper confirms on MB7 after `IMG_HEALTH_RUN_S` in the run modes. -/
def execHealthAutoConfirm (s : State) : Res :=
  .next <| match s.img.cleanSince with
    | some t =>
      if s.bit P.imgStatus 15 && s.word P.imgHealthAuto == 1#32 && s.sys.mode.run && s.bit P.chkStatus 15 &&
          s.pair.withdrawing.isNone && decide (t + (s.word P.imgHealthRunS).toNat * 1000 ≤ s.kpr.now) then
        s.confirmImage.tally 7 St.ok
      else s
    | none => s

/-! ### Program and configuration images (R529) -/

/-- The first and second entries of a store pushed back by a new image. -/
def State.pushBank (s : State) (e : Nat) (ws : List U32) : State :=
  let old := s.entry 0xD0C0 e 16
  let s := (s.setWords (bankKey (e + 1) 0) old).setBit (bankKey (e + 1) 0) 25 false
  s.setWords (bankKey e 0) ws

/-- IMG_INSTALL (R529): `signed`: the signature verifies with the plant authority key; `pkg` and `words`: the program, or the
configuration's settings, that the image holds. -/
def execImgInstall (rq : Rq) (hash : List Byte) (signed : Bool) (pkg : Option Package) (words : List (Nat × U32)) (s : State) : Res :=
  .next <| s.cmd rq 0x0D09 [6] true (s.sys.mode == .hold || s.sys.mode == .service) fun s =>
    match s.object 1 hash with
    | none => s.respond rq 0x0D09 St.refused 0 []
    | some o => s.bg rq 0x0D09 [] fun s =>
      if !s.imageValid o signed [5, 6] || (o.cls == 6 && pkg.isNone) then
        (s.ev 6 "VERIFY_FAIL" [o.cls]).respond rq 0x0D09 St.verifyFail 0 []
      else
        let s := (s.dropObject hash).ev 6 "IMG_INSTALLED" [o.cls]
        match o.cls, pkg with
        | 6, some k =>
          let s := s.pushBank 12 (s.bankWords o true)
          let s := { s with
            sys.prgValid := true
            img.programs := k :: s.img.programs.take 1 }
          (s.loadTasks k).respond rq 0x0D09 St.ok 0 (leBytes 8 (s.time.tick + 1))
        | _, _ =>
          let s := s.pushBank 14 (s.bankWords o true)
          let s := { s with
            sys.cfgValid := true
            img.configs := words :: s.img.configs.take 1 }
          s.stage (some rq) 0x0D09 false [.config words]

/-! ### Identity and attestation (R538, R539) -/

/-- A word of `IMG_BANKS` as bytes. -/
def State.bankHash (s : State) (e : Nat) : List Byte :=
  (List.range 8).flatMap fun w => leBytes 4 (s.word (bankKey e (8 + w))).toNat

/-- The report of R539. -/
def State.report (s : State) (nonce : List Byte) : List Byte :=
  let hash32 := fun (e : Nat) => (List.range 8).flatMap fun w => leBytes 4 (s.hashWord e w).toNat
  let p := fun (id : Nat) => leBytes 4 (s.paramView id).toNat
  let chamber := (sortBy (fun (x : Nat × U32 × List Byte) => x.1) s.img.chamber).flatMap fun x => x.2.2
  leBytes 4 1 ++ p 0x0000 ++ p 0x0001 ++ p 0x0002 ++ leBytes 8 s.plant ++ leBytes 8 s.evTick ++ (nonce ++ List.replicate 32 0).take 32 ++
    (List.range 4).flatMap (fun c => s.bankHash (4 * s.runBank + c)) ++ hash32 0 ++ hash32 1 ++ hash32 2 ++
    (if chamber.isEmpty then List.replicate 32 0 else shake256 chamber 32) ++ hash32 3 ++ p 0x0010 ++ p 0x6001 ++ p 0x0007 ++
    p P.imgStatus ++ p P.imgActiveBank ++ p P.chkMismatchCnt ++ leBytes 8 0

/-- ATTEST (R539): `signature` is the identity key's over the report. (DESIGN CHOICE, log entry 44) -/
def execAttest (rq : Rq) (nonce signature : List Byte) (s : State) : Res :=
  .next <| s.cmd rq 0x0D10 [0, 2, 6] false true fun s =>
    if nonce.length ≠ 32 then s.respond rq 0x0D10 St.badLength 0 []
    else if (s.background 0x0D10).isSome then s.respond rq 0x0D10 St.busy 0 []
    else s.bg rq 0x0D10 [] fun s => (s.inc P.imgAttestCnt).respond rq 0x0D10 St.ok 0 (s.report nonce ++ signature)

/-- IDENTITY_READ (R538). -/
def execIdentityRead (rq : Rq) (s : State) : Res :=
  .next <| s.cmd rq 0x0D11 [0, 2, 6] false true fun s => s.respond rq 0x0D11 St.ok 0 s.img.identity

end Sys2Proof.Machine
end

