-- ==== Sys2Proof/Machine/StnOps.lean ====
section
/-!
DEFINITION. What a station on a trunk does (file 05): its clock and its claim learning, its outputs, the frames it may
launch, and how it handles a management request.
-/

namespace Sys2Proof.Machine

/-! ### Restart, search and cycles (R132 to R137) -/

/-- The firmware version and the trunk protocol level that a station runs (R145); by default its maker's. -/
def StnS.versionOf (t : StnS) (serial : U32) : U32 := t.version.getD (Config.stnVersion serial)
def StnS.levelOf (t : StnS) (serial : U32) : Nat := t.level.getD (Config.stnLevel serial).toNat

/-- The parts that a station has, by its configuration. -/
def StnCfg.parts (c : StnCfg) : List Nat := (c.entries.map (·.part)).eraseDups

def lookup64 (l : List (Nat × U64)) (k : Nat) : U64 := ((l.find? (·.1 == k)).map (·.2)).getD 0

/-- Every output at its configured safe value (R137, R149). -/
def StnS.safe (t : StnS) : List (Nat × U64) := t.cur.parts.map fun k => (k, lookup64 t.safeVals k)

/-- The hold or safe outputs of R140: the outputs configured as hold keep their value. -/
def StnS.holdOrSafe (t : StnS) : List (Nat × U64) :=
  t.cur.parts.map fun k =>
    let m := lookup64 t.holdMask k
    (k, lookup64 t.outputs k &&& m ||| lookup64 t.safeVals k &&& ~~~m)

/-- Power-up or restart: what R141 keeps stays, the rest begins afresh; H and `LEARNED` are cleared (R137) and the outputs
are safe. A station with an address then has a return notice to send. -/
def StnS.restart (t : StnS) (now : Nat) : StnS :=
  { StnS.fresh with
    addr := t.addr
    quarantined := t.quarantined
    cur := t.cur
    staged := t.staged
    holdMask := t.holdMask
    safeVals := t.safeVals
    version := t.version
    level := t.level
    upd := t.upd
    onTrial := t.onTrial
    oldVersion := t.oldVersion
    oldLevel := t.oldLevel
    outputs := t.safe
    noticeDue := t.addr != 0xFF
    restartAt := now }

/-- The rate search begins again (R132, R99). (DEDUCED, log entry 17) -/
def StnS.search (t : StnS) : StnS :=
  { t with searchRate := 0, rateCand := none, rateFound := false, beacons := 0, rotEq := 0, rotMask := 0 }

/-- A station's next cycle begins (R137, R140): the cycle just ended is counted for learning and for the output timeout. -/
def StnS.nextCycle (t : StnS) : StnS :=
  { t with
    seq := t.seq + 1
    gotBeacon := false
    taken := false
    pos := (t.pos + 1) % max 1 t.cur.hyper
    cycleStart := t.cycleStart + t.cur.period * 125000
    missedOutputs := if t.taken then 0 else t.missedOutputs + 1
    learnCycles := if t.learnNow then t.learnCycles + 1 else 0
    learnHeard := if t.learnNow then t.learnHeard else none
    learnNow := false }

/-- A claim heard while learning (R137). -/
def StnS.learn (t : StnS) (c : U32) : StnS :=
  if t.learned || !t.rateFound then t
  else { t with learnNow := true, learnHeard := some (match t.learnHeard with
    | some h => latest32 h c
    | none => c) }

/-- The configuration that a switch makes current (R127, R144): the comparison of digests begins afresh (R99). -/
def StnS.makeCurrent (t : StnS) : StnS :=
  match t.staged with
  | some c => { t with cur := c, staged := none, rotEq := 0 }
  | none => t

/-- One digest slice of a beacon (R99): kept, and compared with the station's own; the first that differs makes one return
notice due (R136, R144). -/
def StnS.slice (t : StnS) (b : Beacon) : StnS :=
  let i := b.seq.toNat % 8
  if 4 ≤ i then t
  else
    let t := { t with
      rotSeen := withField t.rotSeen (31 - 8 * i) (24 - 8 * i) b.rot
      rotMask := Sys2Proof.setBit t.rotMask i true }
    if b.rot = fieldOf t.cur.digest (31 - 8 * i) (24 - 8 * i) then { t with rotEq := Sys2Proof.setBit t.rotEq i true }
    else { t with rotEq := 0, noticeDue := t.noticeDue || (t.addr != 0xFF && t.rotEq == 15) }

/-- The schedule switch as the station sees it (R144): a beacon with `HC_START` after one with `SWITCH`. -/
def StnS.switchStep (t : StnS) (b : Beacon) : StnS :=
  let t := if b.hcStart && t.switchSeen && !b.switch then t.makeCurrent else t
  { t with switchSeen := b.switch, pos := if b.hcStart then 0 else t.pos }

/-- A beacon used for time (R41, R133): `PLANT` + h or + t at its first edge; the cycle start is `PLANT`, less 2,000 ns at the
Tail end (R98). -/
def StnS.discipline (t : StnS) (b : Beacon) (stamp : Nat) : StnS :=
  let d := if b.tail then t.cur.tailDelay else t.cur.headDelay
  if b.tail && t.gotBeacon then t
  else
    { t with
      clockOffset := (b.plant : Int) + d - stamp
      cycleStart := b.plant - 2000 * b.tail.toNat
      applyTicks := b.apply
      gotBeacon := true
      beacons := t.beacons + 1
      missed := 0
      silent := false }

/-- A valid beacon with a rate found: time, claim and digest (R133, R137, R138). -/
def StnS.beacon (t : StnS) (b : Beacon) (stamp : Nat) : StnS :=
  if !t.learned then
    let t := if b.seq = t.seq then t else { t.nextCycle with seq := b.seq }
    ((t.learn b.claim).discipline b stamp |>.switchStep b).slice b
  else if b.seq != t.seq && b.seq != t.seq + 1 then { t with seqMismatch := satNat 16 (t.seqMismatch + 1) }
  else if sdiff32 b.claim t.claimHigh < -1 then { t with refusedClaims := satNat 16 (t.refusedClaims + 1) }
  else
    let t := if b.seq = t.seq then t else t.nextCycle
    let t := { t with claimHigh := latest32 t.claimHigh b.claim }
    ((t.discipline b stamp).switchStep b).slice b

/-- The search of R132 on a valid beacon: found by one, confirmed by a second within the next two cycles. -/
def StnS.found (t : StnS) (b : Beacon) (stamp : Nat) : StnS :=
  let second : Bool := match t.rateCand with
    | some q => decide (1 ≤ sdiff8 b.seq q) && decide (sdiff8 b.seq q ≤ 2)
    | none => false
  if second then
    { t with rateFound := true, seq := b.seq, gotBeacon := false, taken := false, learnNow := false, learnCycles := 0,
             learnHeard := none }.beacon b stamp
  else { t with rateCand := some b.seq, seq := b.seq }

/-! ### Outputs (R138 to R140) -/

/-- The outputs of a broadcast for the station's parts, by `OUT_WORD` (R139). -/
def StnS.outputsOf (t : StnS) (b : Bcast) : List (Nat × U64) :=
  (t.cur.entries.filter fun e => e.pos == t.pos && e.outWord != 0xFF && decide (e.outWord < b.words.length)).map fun e =>
    (e.part, b.words.getD e.outWord 0)

/-- Sets staged in the order of their apply instants (R139). -/
def insertOut (x : Nat × List (Nat × U64)) : List (Nat × List (Nat × U64)) → List (Nat × List (Nat × U64))
  | [] => [x]
  | y :: ys => if y.1 ≤ x.1 then y :: insertOut x ys else x :: y :: ys

/-- A valid broadcast by R138; one for the cycle's `SEQ` is taken, a second is the duplicate. -/
def StnS.broadcast (t : StnS) (b : Bcast) : StnS :=
  if !t.learned then t.learn b.claim
  else if t.silent then t
  else if b.seq != t.seq then { t with seqMismatch := satNat 16 (t.seqMismatch + 1) }
  else if sdiff32 b.claim t.claimHigh < -1 then { t with refusedClaims := satNat 16 (t.refusedClaims + 1) }
  else
    let t := { t with claimHigh := latest32 t.claimHigh b.claim }
    if t.taken || t.quarantined then t
    else
      { t with
        taken := true
        missedOutputs := 0
        stagedOut := insertOut (t.cycleStart + t.applyTicks * 125000, t.outputsOf b) t.stagedOut }

/-- Outputs replaced part by part. -/
def mergeOut (old new : List (Nat × U64)) : List (Nat × U64) :=
  new ++ old.filter fun o => !(new.any (·.1 == o.1))

/-! ### Launching (R136) -/

/-- The driver may transmit: no jabber, and not in the silence of R135. (DEDUCED, log entry 18) -/
def StnS.mayDrive (t : StnS) : Bool := t.rateFound && !t.silent && !t.jabber

/-- The six conditions of R136 for a slot or an event frame, with quarantine (R149). -/
def StnS.mayLaunch (t : StnS) : Bool :=
  t.mayDrive && decide (2 ≤ t.beacons) && t.learned && decide (1 ≤ t.addr ∧ t.addr ≤ 0xC0) && t.rotEq == 15 &&
    !t.quarantined

/-- A station's return notice (R106): serial, level, `CFG_MISMATCH`. -/
def StnS.notice (t : StnS) (serial : U32) : List Byte :=
  frameBytes 4 t.cur.urgency t.addr t.seq
    ([0x05#8] ++ beBytes 4 serial.toNat ++ [BitVec.ofNat 8 (t.levelOf serial), BitVec.ofNat 8 (t.rotEq != 15).toNat, 0#8])

/-- A stranger's announcement (R106, R146). -/
def StnS.announcement (t : StnS) (serial : U32) : List Byte :=
  frameBytes 4 15 0xFF t.seq
    ([0x04#8] ++ beBytes 2 (Config.stnVendor serial).toNat ++ beBytes 2 (Config.stnProduct serial).toNat ++
      beBytes 4 serial.toNat ++ [BitVec.ofNat 8 (t.levelOf serial)] ++ List.replicate 6 0#8)

/-- The frame of a station that has won a round (R122, R136, R146): a return notice that is due, or an announcement. -/
def StnS.won (t : StnS) (serial : U32) : StnS :=
  if !t.mayDrive || t.quarantined then t
  else if t.addr = 0xFF then (if t.hushed.isSome then t else { t with lastLaunch := t.announcement serial })
  else if t.noticeDue && t.learned then { t with lastLaunch := t.notice serial, noticeDue := false }
  else t

/-- A change to every listed station of a trunk at an address. -/
def State.atAddr (s : State) (p addr : Nat) (f : U32 → StnS → StnS) : State :=
  s.each ((s.stns.filter fun x => x.1 / 2 ^ 32 == p && x.2.addr == addr).map (·.1)) fun s k =>
    s.modStn k (f (w32 (k % 2 ^ 32)))

/-! ### Management requests (R107, R142, R143, R149) -/

def MReq.mcmd (r : MReq) : Nat := (r.payload.getD 0 0).toNat
def MReq.mtag (r : MReq) : Nat := (r.payload.getD 1 0).toNat
def MReq.byte (r : MReq) (i : Nat) : Nat := (r.payload.getD i 0).toNat
/-- A big-endian field of a request. -/
def MReq.be (r : MReq) (i n : Nat) : Nat := ofBe ((r.payload.drop i).take n)

/-- A reply (R107): it is kept, and sent with the `ADDR` of the request. `b37` is bytes 3 to 7, `rest` the later words. (DEDUCED, log entry 18) -/
def StnS.answer (t : StnS) (r : MReq) (status : Nat) (b37 rest : List Byte) : StnS :=
  let pay := [BitVec.ofNat 8 r.mcmd, BitVec.ofNat 8 r.mtag, BitVec.ofNat 8 status] ++ b37 ++ rest
  let f := frameBytes 6 0 r.addr.toNat t.seq (padWords pay)
  { t with lastReq := some (r.addr.toNat, r.mtag), lastReply := f, lastLaunch := if t.mayDrive then f else t.lastLaunch }

def zero5 : List Byte := List.replicate 5 0#8

/-- Whether a request is a repeat of the one last answered (R143): at the station's address, or at its previous one after
`SET_ADDR` with its own serial. -/
def StnS.isRepeat (t : StnS) (serial : U32) (r : MReq) : Bool :=
  t.lastReq == some (r.addr.toNat, r.mtag) &&
    (r.addr.toNat == t.addr || (r.mcmd == 2 && t.prevAddr == some r.addr.toNat && r.be 3 4 == serial.toNat))

/-- A request handled by a station (R142, R143, R149): ignored when it is not for it, answered from the stored reply when it
is a repeat, else executed. `ownSerial`: the command carries a serial, which must be its own. `inQuar`: it is answered in
quarantine. -/
def State.stnRequest (s : State) (p : Nat) (serial : U32) (r : MReq) (ownSerial inQuar : Bool) (f : StnS → StnS) : State :=
  s.modStn (stnKey p serial) fun t =>
    if !t.rateFound then t
    else if t.isRepeat serial r then { t with lastLaunch := if t.mayDrive then t.lastReply else t.lastLaunch }
    else if r.addr.toNat != t.addr then t
    else if ownSerial && r.be 3 4 != serial.toNat then t
    else if t.quarantined && !inQuar then t
    else f t

/-- The entries of `CFG_SLOTS` (R142) with their indices. -/
def MReq.slots (r : MReq) : List (Nat × CfgEntry) :=
  (List.range (r.byte 2)).map fun i =>
    let o := 8 + 8 * i
    (r.byte 3 + i, ⟨r.byte o / 16, r.byte o % 4, r.byte (o + 1), hasBit (r.byte (o + 2)) 0, r.be (o + 4) 4⟩)

/-- No two entries for one part in one position (R144). -/
def noClash : List CfgEntry → Bool
  | [] => true
  | e :: es => !(es.any fun x => x.pos == e.pos && x.part == e.part) && noClash es

/-- `CFG_COMMIT` (R144). (DEDUCED, log entry 19) -/
def StnS.commit (t : StnS) (r : MReq) : StnS :=
  let es := (sortBy (·.1) t.slotsIn).map (·.2)
  if es.length != r.byte 2 || !noClash es then t.answer r 2 zero5 []
  else
    let d := w32 (r.be 3 4)
    let (ot, u, pp, hh, h, tt) := t.timingIn.getD
      (t.cur.outTimeout, t.cur.urgency, t.cur.period, t.cur.hyper, t.cur.headDelay, t.cur.tailDelay)
    let c : StnCfg := ⟨d, h, tt, pp, hh, ot, u, es⟩
    let t := { t with staged := some c, slotsIn := [], timingIn := none }
    let t := if t.rotMask == 15 && t.rotSeen == d then t.makeCurrent else t
    t.answer r 0 zero5 []

/-! ### Firmware updates (R534, R535) -/

/-- The output bytes of an update frame's commands; none when a command is unknown or cut short (R534). -/
def updLength : Nat → List Byte → Nat → Option Nat
  | 0, _, n => some n
  | fuel + 1, bs, n =>
    match bs with
    | [] => some n
    | c :: rest =>
      if c = 0x01#8 then
        if rest.length < 6 then none else updLength fuel (rest.drop 6) (n + ofBe ((rest.drop 4).take 2) + 1)
      else if c = 0x02#8 then
        let l := (rest.headD 0).toNat
        if l = 0 ∨ 53 < l ∨ rest.length < l + 1 then none else updLength fuel (rest.drop (l + 1)) (n + l)
      else if c = 0x03#8 then
        if rest.length < 3 then none else updLength fuel (rest.drop 3) (n + ofBe (rest.take 2) + 1)
      else none

def StnUpd.fillOf (u : StnUpd) (b : Nat) : Nat := ((u.fill.find? (·.1 == b)).map (·.2)).getD 0

def StnUpd.setFill (u : StnUpd) (b n : Nat) : StnUpd := { u with fill := (b, n) :: u.fill.filter (·.1 != b) }

/-- Consecutive target blocks complete and checked, from block 0 (R535). -/
def StnUpd.done (u : StnUpd) : Nat → Nat → Nat
  | 0, n => n
  | fuel + 1, n => if u.checked.contains n then StnUpd.done u fuel (n + 1) else n

/-- An update frame (R534): in order it is applied; lower it is only acknowledged; higher, or with an unknown command, it is
answered 0x02. `blockOk`: the check of a completed block against the manifest record. (DEDUCED, log entry 20) -/
def StnS.updateFrame (t : StnS) (r : MReq) (blockOk : Bool) : StnS :=
  let b := r.be 2 2
  let off := r.be 4 2
  let data := (r.payload.drop 8).take (r.byte 6)
  let reply (t : StnS) (st : Nat) : StnS :=
    t.answer ⟨r.addr, [0xA0#8, BitVec.ofNat 8 b]⟩ st zero5 []
  match t.upd with
  | none => reply t 4
  | some u =>
    if u.session != r.be 0 2 then reply t 4
    else
      let fill := u.fillOf b
      let out := if b = 0xFFFF then some data.length else updLength 256 data 0
      match out with
      | none => reply t 2
      | some n =>
        if off < fill then reply t 0
        else if fill < off then reply t 2
        else
          let u := u.setFill b (fill + n)
          let u := if b != 0xFFFF && 65536 ≤ fill + n && blockOk then { u with checked := b :: u.checked } else u
          reply { t with upd := some u } 0

end Sys2Proof.Machine
end

