-- ==== Sys2Proof/Machine/Trunk.lean ====
section
/-!
DEFINITION. The trunk events of the module (files 03 and 04, and the queues of file 05): what a port does with each frame it
receives, with calibration, rate search, breaks, reflectometry and event rounds.
-/

namespace Sys2Proof.Machine

/-! ### Beacons and rate detection (R81, R82, R98, R99) -/

/-- One `ROT` slice compared with the port's own digest (R99, R82). -/
def State.compareSlice (s : State) (p : Nat) (b : Beacon) : State :=
  s.withSched p fun c =>
    let i := b.seq.toNat % 8
    let st := P.trkStatus p
    if 4 ≤ i then s
    else
      let own := fieldOf c.digest (31 - 8 * i) (24 - 8 * i)
      if b.rot = own then
        let s := s.modPort p fun q => { q with rotEq := Sys2Proof.setBit q.rotEq i true }
        if (s.port p).rotEq = 15 then s.setBit st 12 false else s
      else
        let s := s.modPort p fun q => { q with rotEq := 0 }
        (s.setBit st 12 true).when (!s.bit st 12) fun s => s.ev 1 "DIGEST_MISMATCH" [p]

/-- The rate search of R81 on a valid beacon: a first beacon finds the rate, a second within the next two cycles confirms
it. -/
def State.foundBeacon (s : State) (p : Nat) (b : Beacon) : State :=
  let q := s.port p
  if s.sys.mode != .listen || s.bit (P.trkStatus p) 14 then s
  else
    let second : Bool := match q.rateCand with
      | some n => let d := sdiff8 b.seq (BitVec.ofNat 8 n); decide (1 ≤ d) && decide (d ≤ 2)
      | none => false
    if second then
      let s := (s.setBit (P.trkStatus p) 14 true).setWord (P.trkRateDet p) (w32 q.searchRate)
      let differs := (s.word (P.trkRate p)).toNat != q.searchRate
      (s.setBit (P.trkStatus p) 13 differs).when differs fun s => s.ev 1 "RATE_MISMATCH" [p, q.searchRate]
    else s.modPort p fun q => { q with rateCand := some b.seq.toNat }

/-- TRUNK_BEACON_RECEIVE (R98, R99, R81, R82, R101, R250, R252). -/
def execTrunkBeaconReceive (p : Fin 16) (f : RxFrame) (s : State) : Res :=
  .next <|
    if !s.receives p then s
    else if !f.codeOk then s.inc (P.trkCodeErr p)
    else match f.beacon with
      | none => s
      | some b =>
        if b.tail == !s.isHead p then s
        else
          let s := { s with sys := { s.sys with heardAt := s.plant } }
          let s := s.modPort p fun q => if b.tail then q else { q with headHeard := true }
          let s := (s.hearClaim b.claim).checkDeposed b.claim
          ((s.foundBeacon p b).compareSlice p b).refreshReady p

/-- RATE_DWELL_EXPIRE (R81): after 20 ms at one rate without a confirmed beacon the port tries the next rate. -/
def execRateDwellExpire (p : Fin 16) (s : State) : Res :=
  .next <|
    if s.sys.mode == .listen && s.used p && !s.bit (P.trkStatus p) 14 then
      s.modPort p fun q => { q with searchRate := (q.searchRate + 1) % 4, rateCand := none, rotEq := 0 }
    else s

/-! ### Input slots (R112, R72, R79, R84, R289) -/

/-- An RX record of a frame valid at this end, launched to the partner (R289, R290). -/
def State.launchRecord (s : State) (r : RxRecord) : State :=
  { s with sync := { s.sync with rxOut := s.sync.rxOut ++ [r] } }

/-- The echo of a frame of the nearest station during a break (R84), as the delay to the break from this end, in quarter
nanoseconds. -/
def State.noteEcho (s : State) (p addr : Nat) (echo : Option Nat) (atHead : Bool) : State :=
  match echo with
  | none => s
  | some d =>
    let neigh := s.word (P.trkBreakNeigh p)
    let q := s.port p
    let dl := match q.cur with | some c => c.loopDelay | none => 0
    let tap := (s.delay p addr).tap
    if !s.bit (P.trkStatus p) 10 then s
    else if atHead && addr == fieldOf neigh 15 8 then
      s.modPort p fun q => { q with echoHead := some (4 * tap + 2 * d) }
    else if !atHead && addr == fieldOf neigh 7 0 then
      s.modPort p fun q => { q with echoTail := some (4 * (dl - tap) + 2 * d) }
    else s

/-- SLOT_FRAME_RECEIVE (R112, R92, R72, R73, R74, R79, R80, R84, R289): a frame in the i-th input slot of the position. -/
def execSlotFrameReceive (p : Fin 16) (i : Nat) (f : RxFrame) (m : RxMeasure) (s : State) : Res :=
  .next <|
    if !s.receives p then s
    else if !f.codeOk then s.inc (P.trkCodeErr p)
    else s.withSched p fun c =>
      let q := s.port p
      match (c.slots (q.pos c))[i]? with
      | none => s
      | some (e, launch) =>
        let set := e.eqSet
        if !f.crcOk then s.eqBad p set
        else
          let s := (s.countSnr p (if s.setValid p set then set else 0) m.snr).eqFrame p set m
          let d := s.delay p e.addr
          let due := q.cycleStart + launch + (if s.isHead p then d.head else d.tail)
          let hdrOk := f.type == 2 && f.byte 1 == e.addr && f.byte 0 % 4 == e.part &&
            f.byte 2 == (seqOf q.cycle).toNat && f.bytes.length == 16
          if !hdrOk then s
          else if f.stamp + 250 < due ∨ due + 250 < f.stamp then s.inc (P.schedSlotTiming p)
          else
            let r : SlotRec := { slot := i, hdr := f.bytes.getD 0 0, word := BitVec.ofNat 64 (ofBe (f.payload.take 8)),
                                 heard := if s.isHead p then 1 else 2, disagree := false }
            let s := s.modPort p fun q => { q with own := q.own.filter (·.slot != i) ++ [r] }
            let s := s.noteEcho p e.addr m.echo (s.isHead p)
            s.launchRecord ⟨p, 1, e.idx, q.cycle, f.stamp, f.bytes.take 4, f.payload⟩

/-- TRAINING_FRAME_RECEIVE (R71, R103): the 32 training frames of a slot train its set from the open set. -/
def execTrainingFrameReceive (p : Fin 16) (i : Nat) (f : RxFrame) (m : RxMeasure) (s : State) : Res :=
  .next <|
    if s.sys.mode != .commission || !s.receives p then s
    else if !f.codeOk then s.inc (P.trkCodeErr p)
    else s.withSched p fun c =>
      match (c.slots ((s.port p).pos c))[i]? with
      | none => s
      | some (e, _) =>
        if !(f.crcOk && f.type == 9 && f.byte 1 == e.addr) then s
        else
          let n := (((s.port p).trainRuns.find? (·.1 == e.eqSet)).map (·.2)).getD 0
          let want := (List.range 8).map fun k => BitVec.ofNat 8 (37 * (8 * n + k) + 0x5B)
          if f.payload.take 8 != want then s
          else
            let s := s.setWords (eqKey p e.eqSet 1) (m.adapted.take 12)
            let s := s.modPort p fun q => { q with trainRuns := (e.eqSet, n + 1) :: q.trainRuns.filter (·.1 != e.eqSet) }
            if n + 1 < 32 then s
            else
              let s := (s.trained p e.eqSet 1 m.snr).when (decide (m.snr < 140)) fun s =>
                s.setBit (tkey (0x20C2 + 0x100 * p) (e.addr - 1) 0) 5 true
              let s := s.modPort p fun q =>
                { q with
                  trainRuns := q.trainRuns.filter (·.1 != e.eqSet)
                  comm := q.comm.map fun k =>
                    let k := { k with sets := k.sets.filter (· != e.eqSet) }
                    if m.snr < 140 then { k with refused := k.refused + 1 } else { k with trained := k.trained + 1 } }
              s.refreshReady p

/-- LINE_ACTIVITY_NO_START (R92, R163): counted as a collision in the frame phase of a won round, else, outside an expected
slot and an arbitration, as noise. -/
def execLineActivityNoStart (p : Fin 16) (inSlot inArbitration : Bool) (s : State) : Res :=
  .next <|
    if !s.used p then s
    else
      let won : Bool := match (s.port p).round with
        | some r => r.frame && r.winner.isSome
        | none => false
      if inSlot || inArbitration then s
      else if won then
        if (s.port p).noiseSeen then s
        else (s.inc (P.trkCollisions p)).modPort p fun q => { q with noiseSeen := true }
      else s.inc (P.trkNoise p)

/-! ### Calibration (R76 to R78) and retraining (R73) -/

/-- BACKGROUND_CALIBRATION (R77): in the longest interval of the cycle without a frame due, `idle` ns long; skipped when the
interval is shorter than 2 µs or a reflectometry run takes it. -/
def execBackgroundCalibration (p : Fin 16) (idle : Nat) (s : State) : Res :=
  .next <|
    if !s.used p || !(s.port p).calibrated then s
    else if idle < 2000 ∨ s.bit (P.trkStatus p) 7 then
      (s.inc (P.trkCalSkip p)).modPort p fun q => { q with calSkipRun := q.calSkipRun + 1 }
    else (s.setBit (P.trkStatus p) 11 false).modPort p fun q => { q with calSkipRun := 0 }

/-- CAL_STALE (R77): 10,000 consecutive skips. -/
def execCalStale (p : Fin 16) (s : State) : Res :=
  .next <|
    if 10000 ≤ (s.port p).calSkipRun ∧ s.bit (P.trkStatus p) 11 = false then
      (s.setBit (P.trkStatus p) 11 true).ev 1 "CAL_STALE" [p]
    else s

/-- EQ_RETRAIN_END (R73): after 64 cycles of RETRAIN the mode returns to TRACK by itself; a set so trained has no drift. -/
def execEqRetrainEnd (p : Fin 16) (s : State) : Res :=
  .next <|
    if s.word (P.trkEqmode p) = 2#32 ∧ (s.port p).retrainLeft = 0 then
      let s := (s.setWord (P.trkEqmode p) 1).modPort p fun q => { q with eqMode := 1 }
      s.each (s.setsInUse p) fun s i =>
        if s.setValid p i then s.trained p i 2 (s.fld (snrKey p i 0) 31 16) else s
    else s

/-! ### Breaks (R83 to R85) -/

/-- BREAK_DECLARE (R83): the pattern has stood in two consecutive cycles. -/
def execBreakDeclare (p : Fin 16) (s : State) : Res :=
  .next <|
    let q := s.port p
    if 2 ≤ q.brkRun ∧ s.bit (P.trkStatus p) 10 = false then
      let s := (s.setBit (P.trkStatus p) 10 true).setWord (P.trkBreakNeigh p) (w32 (q.brkPair.1 * 256 + q.brkPair.2))
      (s.modPort p fun q => { q with brkEst := [], echoHead := none, echoTail := none }).ev 1 "BREAK"
        [p, q.brkPair.1, q.brkPair.2]
    else s

/-- BREAK_CLEAR (R85): every scheduled station heard at both ends for 16 consecutive cycles. -/
def execBreakClear (p : Fin 16) (s : State) : Res :=
  .next <|
    if 16 ≤ (s.port p).brkClearRun ∧ s.bit (P.trkStatus p) 10 = true then
      let s := (s.setBit (P.trkStatus p) 10 false).setWord (P.trkBreakDelay p) 0xFFFFFFFF
      ((s.setWord (P.trkBreakDist p) 0xFFFFFFFF).setWord (P.trkBreakNeigh p) 0xFFFF).ev 1 "BREAK_CLEAR" [p]
    else s

/-- The break estimate of a cycle that gave an echo (R84), and the parameters that follow from it. -/
def State.breakEstimate (s : State) (p : Nat) (d : Nat) : State :=
  let q := s.port p
  let est : Option Nat := match q.echoHead, q.echoTail with
    | some h, some t => some ((h + 4 * d - t) / 2)
    | some h, none => some h
    | none, some t => some (4 * d - t)
    | none, none => none
  match est with
  | none => s
  | some e =>
    if !s.bit (P.trkStatus p) 10 then s
    else
      let l := (e :: q.brkEst).take 16
      let delay := l.foldl (· + ·) 0 / l.length / 4
      let len := (s.word (P.trkLoopLen p)).toNat
      let dist := if len = 0 ∨ d = 0 then 2 * delay else (2 * (delay * len * 10) + d) / (2 * d)
      let s := s.modPort p fun q => { q with brkEst := l, echoHead := none, echoTail := none }
      (s.setWord (P.trkBreakDelay p) (w32 delay)).setWord (P.trkBreakDist p) (w32 dist)

/-! ### Reflectometry (R86, R87) -/

/-- TDR_RUN (R86, R87): the pulse is sent and the reflections (delay in ns, amplitude in ‰) that reach `TRK_TDR_THR` are
reported, at most 16, in ascending delay. -/
def execTdrRun (p : Fin 16) (refl : List (Nat × Int)) (s : State) : Res :=
  .next <|
    match (s.port p).tdrPending with
    | none => s
    | some (mb, tag) =>
      if !s.gatePulse p then s
      else
        let thr : Int := (s.word (P.trkTdrThr p)).toNat
        let hits := (sortBy (·.1) (refl.filter fun r => decide (thr ≤ r.2) || decide (r.2 ≤ -thr))).take 16
        let tid := 0x20C3 + 0x100 * p.val
        let s := s.each (List.range 16) fun s e => s.clearEntry tid e 2
        let s := s.each hits.zipIdx fun s x =>
          (s.setWord (tkey tid x.2 0) (w32 x.1.1)).setWord (tkey tid x.2 1) (withField 0 31 16 (BitVec.ofInt 16 x.1.2).toNat)
        let s := (s.setBit (P.trkStatus p) 7 false).modPort p fun q => { q with tdrPending := none, tdrWait := 0 }
        s.finishTag mb tag 0x0301 St.ok 0 (leBytes 4 hits.length)

/-- TDR_WAIT_TIMEOUT (R87): no interval within 64 cycles; the request is refused. -/
def execTdrWaitTimeout (p : Fin 16) (s : State) : Res :=
  .next <|
    match (s.port p).tdrPending with
    | none => s
    | some (mb, tag) =>
      if (s.port p).tdrWait < 64 then s
      else
        let s := (s.setBit (P.trkStatus p) 7 false).modPort p fun q => { q with tdrPending := none, tdrWait := 0 }
        s.finishTag mb tag 0x0301 St.refused 0 []

/-! ### Tail-end launches (R101, R104, R110) -/

/-- TAIL_BEACON_LAUNCH (R101, R57): sent when the previous cycle brought neither a valid Head-end beacon nor a valid
Head-end broadcast. `dev` is the loopback stamp less `PLANT`. -/
def execTailBeaconLaunch (p : Fin 16) (dev : Int) (s : State) : Res :=
  .next <|
    let q := s.port p
    if q.running && s.gateOpen p && !s.isHead p && !q.headHeardPrev then
      (s.setBit (P.schedStatus p) 13 true).launchBeacon p true dev
    else s

/-- TAIL_BROADCAST_LAUNCH (R104, R105, R110, R255). `differs`: the frame heard back differs from the frame built. -/
def execTailBroadcastLaunch (p : Fin 16) (differs : Bool) (s : State) : Res :=
  .next <|
    if (s.port p).running && s.gateOpen p && !s.isHead p && s.sys.mode.run then s.launchBcast p true differs else s

/-! ### Event rounds (R119 to R123, R161) -/

/-- The first transmit entry to be sent: in the order in which the entries became QUEUED, not already in flight (R161). -/
def PortS.nextTxq (q : PortS) : Option Nat := q.txqOrder.find? fun e => !(q.txqFlight.any (·.1 == e))

/-- The Keeper request to be sent next: the first that waits while none to its address is out. -/
def PortS.nextKreq (q : PortS) : Option KReq :=
  q.kreqs.find? fun k => k.awaiting.isNone && !(q.kreqs.any fun x => x.awaiting.isSome && x.addr == k.addr)

/-- Whether a Keeper request, or a ranging request, waits (R161, R576). -/
def PortS.keeperWaits (q : PortS) : Bool := q.nextKreq.isSome
def PortS.rangingWaits (q : PortS) : Bool := match q.comm with
  | some k => k.running && k.ranging.isSome
  | none => false

/-- A served station has a frame or a command to be sent (R535, R536). -/
def Serve.ready (x : Serve) : Bool := x.awaiting.isNone && x.step != 2 && x.step != 5

/-- What this module would launch in a round it won: program entries first, but one round in every 8 cycles for waiting
Keeper requests, then ranging, then update frames in their share of the rounds (R161, R533). -/
def State.grantOf (s : State) (p m : Nat) : Option Grant :=
  let q := s.port p
  let share := (s.word (P.imgStnShare p)).toNat
  let upd : Bool := q.serves.any Serve.ready && decide ((q.cycle * (s.word (P.schedEventRounds p)).toNat + m) % 16 < share)
  let txq := if s.sys.mode == .commission then none else q.nextTxq
  if q.keeperWaits && decide (q.keeperCycle + 8 ≤ q.cycle) then some .keeper
  else match txq with
    | some e => some (.txq e)
    | none =>
      if q.keeperWaits then some .keeper
      else if q.rangingWaits then some .ranging
      else if upd then some .update
      else none

/-- The lowest identifier wins (R120): urgency × 256 + address. -/
def lowestId (l : List (Nat × Nat)) : Option (Nat × Nat) :=
  l.foldl (fun b x => match b with
    | none => some x
    | some y => if x.1 * 256 + x.2 < y.1 * 256 + y.2 then some x else some y) none

/-- EVENT_ROUND (R120 to R123): the arbitration of round m among the stations that contend (urgency, address) and this
module, which contends at urgency 0 with its end's address. -/
def execEventRound (p : Fin 16) (m : Fin 32) (others : List (Nat × Nat)) (s : State) : Res :=
  .next <|
    s.withSched p fun c =>
      if !s.receives p || c.rounds ≤ m.val then s
      else
        let grant := if s.sys.mode.contends && s.gateOpen p && (s.port p).running then s.grantOf p m else none
        let self : List (Nat × Nat) := if grant.isSome then [(0, if s.isHead p then 0xF0 else 0xF1)] else []
        let w := lowestId (self ++ others)
        let mine := match w with
          | some (_, a) => decide (0xF0 ≤ a ∧ a ≤ 0xF1)
          | none => false
        -- a station that lost the arbitration counts it (R142)
        let lost := others.filter fun x => some x != w
        let s := s.each lost fun s x => s.atAddr p x.2 fun _ t => { t with lostArbs := satNat 16 (t.lostArbs + 1) }
        s.modPort p fun q =>
          { q with noiseSeen := false, round := some ⟨m, w, if mine then grant else none, false⟩ }

/-- The instant at which the frame phase of the round in progress begins (R119). -/
def PortS.frameStart (q : PortS) (c : Sched) (m : Nat) : Nat := q.cycleStart + c.roundAt (q.pos c) m + 13 * c.arbBit

/-- A frame of this module in the frame phase that it has won: the tick whose exchange window agrees its reply (R157). -/
def PortS.replyAgree (q : PortS) (c : Sched) (m : Nat) : Nat := q.cycleTick + agreeTick (c.replyPhaseEnd (q.pos c) m)

/-- EVENT_ROUND_FRAME_PHASE (R122): the winner launches. A station that won sends its return notice or announcement, where
one is due. Of this module, a ranging request is launched here; program entries, Keeper requests and update frames by their
own commands. -/
def execEventRoundFramePhase (p : Fin 16) (s : State) : Res :=
  .next <|
    match (s.port p).round with
    | none => s
    | some r =>
      let s := s.modPort p fun q => { q with round := some { r with frame := true } }
      let s := match r.winner with
        | some (_, a) => s.atAddr p a fun serial t => t.won serial
        | none => s
      match r.grant, (s.port p).comm with
      | some .ranging, some k =>
        match k.ranging with
        | some g => s.withSched p fun c => s.modPort p fun q =>
            { q with
              lastRequest := frameBytes 7 0 g.addr (seqOf q.cycle) []
              comm := some { k with ranging := some { g with awaiting := some (q.replyAgree c r.index) } } }
        | none => s
      | _, _ => s

/-- Whether a request to an address must fail: its station is ABSENT, NOT_SCHEDULED or quarantined (R161). -/
def State.unreachable (s : State) (p addr : Nat) : Bool :=
  let t := s.stState p addr
  t == 3 || t == 0xF ||
    (List.range 32).any fun e => s.bit (strKey p e 2) 0 && s.bit (strKey p e 2) 1 &&
      s.word (strKey p e 0) == s.word (stKey p addr 1)

/-- A transmit entry ended: DONE or FAILED with a cause; it leaves the order (R160, R161). -/
def State.txqEnd (s : State) (p e state cause : Nat) : State :=
  let s := (s.setFld (txKey p e 0) 7 6 state).setFld (txKey p e 1) 23 16 cause
  s.modPort p fun q =>
    { q with txqOrder := q.txqOrder.filter (· != e), txqFlight := q.txqFlight.filter (·.1 != e) }

/-- TXQ_ENTRY_SEND (R160, R161): the entry granted in this round goes out as a management request, or fails. -/
def execTxqEntrySend (p : Fin 16) (s : State) : Res :=
  .next <|
    s.withSched p fun c =>
      match (s.port p).round with
      | some ⟨m, _, some (.txq e), true⟩ =>
        let q := s.port p
        let addr := s.fld (txKey p e 0) 31 24
        let s := s.modPort p fun q => { q with round := q.round.map fun r => { r with grant := none } }
        if s.unreachable p addr then s.txqEnd p e 3 3
        else
          let att := s.fld (txKey p e 1) 15 8
          let mtag := e * 8 + (q.txqSubs.getD e 0) % 8
          let len := s.fld (txKey p e 0) 11 8
          let mcmd := s.fld (txKey p e 0) 23 16
          let w4 := withField (withField (s.word (txKey p e 4)) 7 0 mcmd) 15 8 mtag
          let s := (s.setWord (txKey p e 4) w4).setFld (txKey p e 1) 15 8 (att + 1)
          let body := (wordBytes ((List.range 16).map fun w => s.word (txKey p e (4 + w)))).take (8 * len)
          s.modPort p fun q =>
            { q with
              txqFlight := q.txqFlight ++ [(e, q.replyAgree c m)]
              lastRequest := frameBytes 5 0 addr (seqOf q.cycle) body }
      | _ => s

/-- KEEPER_STATION_REQUEST (R576): the first waiting Keeper request goes out. A `HUSH` is sent once and never answered. -/
def execKeeperStationRequest (p : Fin 16) (s : State) : Res :=
  .next <|
    s.withSched p fun c =>
      match (s.port p).round with
      | some ⟨m, _, some .keeper, true⟩ =>
        let q := s.port p
        match q.nextKreq with
        | none => s
        | some k =>
          let hush := k.payload.getD 0 0 == 0x32#8
          let k' := { k with attempts := k.attempts + 1, awaiting := some (q.replyAgree c m) }
          s.modPort p fun q =>
            { q with
              round := q.round.map fun r => { r with grant := none }
              keeperCycle := q.cycle
              kreqs := if hush then q.kreqs.erase k else q.kreqs.map fun x => if x.tag = k.tag then k' else x
              lastRequest := frameBytes 5 0 k.addr (seqOf q.cycle) k.payload }
      | _ => s

/-! ### Event-window frames received (R106, R107, R157) -/

/-- A frame of an event round valid at this end: held for its agreement, and sent to the partner as a record (R157, R290). -/
def State.holdQ (s : State) (p : Fin 16) (kind : QKind) (agree m : Nat) (f : RxFrame) : State :=
  let r : QRec := { kind := kind, agree := agree, round := m, bytes := f.body, stamp := f.stamp }
  let s := s.modPort p fun q => { q with ownQ := q.ownQ ++ [r] }
  s.launchRecord ⟨p, 2, m, (s.port p).cycle, f.stamp, f.bytes.take 4, f.payload⟩

/-- A frame of a won round's frame phase that fails (R92, R163): a code error, and the frame phase's collision. -/
def State.badPhase (s : State) (p : Nat) (code : Bool) : State :=
  let s := if code then s.inc (P.trkCodeErr p) else s
  if (s.port p).noiseSeen then s
  else (s.inc (P.trkCollisions p)).modPort p fun q => { q with noiseSeen := true }

/-- EVENT_FRAME_RECEIVE (R106, R157, R163). -/
def execEventFrameReceive (p : Fin 16) (m : Fin 32) (f : RxFrame) (s : State) : Res :=
  .next <|
    if !s.receives p then s
    else s.withSched p fun c =>
      if !f.codeOk then s.badPhase p true
      else if !f.crcOk then s.badPhase p false
      else if f.type != 4 then s
      else
        let q := s.port p
        let stranger := f.byte 4 == 0x04
        let s := if stranger then s.inc (P.trkStrangerCnt p) else s
        s.holdQ p .event (q.cycleTick + agreeTick (c.framePhaseEnd (q.pos c) m)) m f

/-- MGMT_REPLY_RECEIVE (R107, R157). (DEDUCED, log entry 58) -/
def execMgmtReplyReceive (p : Fin 16) (m : Fin 32) (f : RxFrame) (s : State) : Res :=
  .next <|
    if !s.receives p then s
    else s.withSched p fun c =>
      if !f.codeOk then s.inc (P.trkCodeErr p)
      else if !(f.crcOk && f.type == 6) then s
      else s.holdQ p .reply ((s.port p).replyAgree c m) m f

/-! ### Ranging (R60 to R66) -/

/-- T_R of R60. -/
def turnaround (rate : Nat) : Nat := 25 * byteTime rate

/-- The median of doubled delays, rounded to 1 ns, and whether their spread exceeds 8 ns (R61). -/
def median2 (l : List Int) : Int × Bool :=
  let o := sortBy (fun x : Int => (x + 2 ^ 40).toNat) l
  let m := (o.getD ((o.length - 1) / 2) 0 + o.getD (o.length / 2) 0 + 2) / 4
  (m, decide (16 < o.getLast?.getD 0 - o.headD 0))

/-- The two words of a `TRK_DELAYS` entry (R67) from the delays measured (R63, R64, R66). -/
def delayWords (head : Bool) (own : Nat) (other : Option Nat) (d : Nat) (spread : Bool) : U32 × U32 :=
  let h := if head then own else other.getD 0
  let t := if head then other.getD 0 else own
  let est := other.isNone
  let tap : Int := if est then (if head then (own : Int) - 1 else (d : Int) - own + 1) else ((h : Int) - t + d) / 2
  let exc : Int := (h : Int) + t - d
  let inc := !est && (decide (exc < -4) || decide (8 < exc))
  let flags := (if head || !est then 1 else 0) + (if !head || !est then 2 else 0) + (if spread then 4 else 0) +
    (if inc then 8 else 0) + (if est then 16 else 0)
  (w32 (tap.toNat % 65536 * 65536 + flags), w32 (h % 65536 * 65536 + t % 65536))

/-- The end of one station's ranging: its entry is written, at once in COMMISSION and as pair configuration at the effect
tick of R445 in the run modes; the next address follows (R61 to R66). -/
def State.rangedStation (s : State) (p : Nat) (k : Commission) (g : Ranging) : State :=
  s.withSched p fun c =>
    let (m, sp) := median2 g.own
    let other : Option Nat := if 16 ≤ g.other.length then some (median2 g.other).1.toNat else none
    let spread := sp || (16 ≤ g.other.length && (median2 g.other).2)
    let tid := 0x20C2 + 0x100 * p
    if spread && g.repeats < 3 then
      s.modPort p fun q =>
        { q with comm := some { k with ranging := some { g with own := [], other := [], repeats := g.repeats + 1 } } }
    else
      let s := s.modPort p fun q =>
        { q with comm := some { k with
            ranged := k.ranged + 1
            todo := k.todo.drop 1
            ranging := (k.todo.drop 1).head?.map fun a => ⟨a, [], [], 0, 0, none⟩ } }
      if 0xF0 ≤ g.addr then
        -- the loop delay of R62: the mean of the two ends' medians; more than 4 ns apart stops commissioning
        match other with
        | some o =>
          if o + 4 < m.toNat ∨ m.toNat + 4 < o then
            (s.modPort p fun q => { q with comm := q.comm.map fun k => { k with todo := [], ranging := none } }).ev 1
              "LOOP_DELAY_DIFFERS" [p]
          else
            let d := (m.toNat + o) / 2
            if 6500 < d then (s.modPort p fun q => { q with comm := q.comm.map fun k =>
                { k with todo := [], ranging := none } }).ev 1 "LOOP_TOO_LONG" [p, d]
            else s.setWord (P.trkLoopDelay p) (w32 d)
        | none => s
      else
        let (w0, w1) := delayWords (s.isHead p) m.toNat other c.loopDelay spread
        let w0 := withField w0 5 5 (s.fld (tkey tid (g.addr - 1) 0) 5 5)
        if s.sys.mode == .commission then
          let s := (s.setWord (tkey tid (g.addr - 1) 0) w0).setWord (tkey tid (g.addr - 1) 1) w1
          if other.isNone then
            -- D is estimated from the largest h (R64)
            let h := (List.range 192).foldl (fun b i => max b (s.delay p (i + 1)).head) 0
            let d := (h * 102 + 9999) / 10000 * 100
            let s := s.setBit (P.trkStatus p) 4 true
            if 6500 < d then (s.clearEntry tid (g.addr - 1) 2).ev 1 "LOOP_TOO_LONG" [p, d]
            else s.setWord (P.trkLoopDelay p) (w32 d)
          else s
        else s.stage none 0x0300 true [.table tid (g.addr - 1) 0 w0, .table tid (g.addr - 1) 1 w1]

/-- One exchange of ranging at this module's end, and at the other end when that end stamped the same reply (R61, R66). -/
def State.rangeResult (s : State) (p : Nat) (own : Int) (other : Option Int) : State :=
  match (s.port p).comm with
  | some k =>
    match k.ranging with
    | some g =>
      let g := { g with own := g.own ++ [own], other := g.other ++ other.toList, tries := 0, awaiting := none }
      let s := s.modPort p fun q => { q with comm := some { k with ranging := some g } }
      if 16 ≤ g.own.length then s.rangedStation p { k with ranging := some g } g else s
    | none => s
  | none => s

/-- RANGING_REPLY_RECEIVE (R60, R61, R66): the reply of the station or end ranged in this round; `other` is the stamp of
the same reply at the other end, when that end's record of it has come. -/
def execRangingReplyReceive (p : Fin 16) (m : Fin 32) (f : RxFrame) (other : Option Nat) (s : State) : Res :=
  .next <|
    if !s.receives p then s
    else s.withSched p fun c =>
      if !f.codeOk then s.inc (P.trkCodeErr p)
      else if !(f.crcOk && f.type == 8) then s
      else
        let q := s.port p
        let s := s.holdQ p .ranging (q.replyAgree c m) m f
        match q.comm with
        | some k =>
          match k.ranging with
          | some g =>
            if f.byte 1 != g.addr || !s.sys.mode.contends then s
            else
              let l : Int := q.frameStart c m
              let tr : Int := turnaround c.rate
              let own2 : Int := (f.stamp : Int) - l - tr
              let oth2 : Option Int := other.map fun r => 2 * ((r : Int) - l - tr) - own2
              s.rangeResult p own2 oth2
          | none => s
        | none => s

/-! ### Schedule switch (R127, R155) -/

/-- A schedule becomes current: status, budget and digest words, the stations' states (R127, R130, R131, R155), and the
digest comparison begins afresh (R99). -/
def State.makeCurrent (s : State) (p : Nat) (c : Sched) : State :=
  let old := match (s.port p).cur with
    | some o => o.addrs
    | none => []
  let s := s.modPort p fun q =>
    { q with cur := some c, staged := none, rotEq := 0, own := [], partner := [], partnerVec := false }
  let s := (s.setWord (P.schedArbBit p) (w32 c.arbBit)).setWord (P.schedDigest p) c.digest
  let s := (s.setWord (P.schedBudgetEnd p) (w32 c.budgetEnd)).setWord (P.schedInputEnd p) (w32 c.inputEnd)
  let s := (s.setBit (P.schedStatus p) 15 true).setBit (P.schedStatus p) 12 false
  let s := s.each (List.range 192) fun s i =>
    let a := i + 1
    let now := c.addrs.contains a
    let allOut := (c.entries.filter (·.addr == a)).all (·.noInput)
    if now && allOut then s.setFld (stKey p a 0) 31 28 1
    else if now && !old.contains a then (s.setFld (stKey p a 0) 31 28 3).setFld (stKey p a 0) 23 20 0
    else if !now && old.contains a then s.setFld (stKey p a 0) 31 28 0xF
    else s
  s.countStations p

/-- The staged schedule of port p becomes current at the first hypercycle start at or after its named tick; the commit is answered. (DESIGN CHOICE, log entry 8) -/
def State.schedSwitch (s : State) (p : Fin 16) : State :=
  match (s.port p).staged with
  | none => s
  | some (c, t) =>
    let due : Bool := match (s.port p).cur with
      | some o => decide (t ≤ s.time.tick) && o.startsAt s.time.tick && o.posOf s.time.tick == 0
      | none => decide (t ≤ s.time.tick)
    if !due then s
    else
      let rq := (s.port p).commitRq
      let s := s.makeCurrent p c
      let k := s.time.tick
      let s := { s with kpr.staged := s.kpr.staged.filter fun (x : StagedChange) => !x.items.contains (.schedule p t) }
      let s := s.modPort p fun q => { q with commitRq := none, cycle := c.cycleOf k, cycleTick := k - c.offsetOf k }
      let s := (s.ev 1 "SCHED_SWITCH" [p]).gaugeRec 0x09 12 [] [] (leBytes 4 p ++ leBytes 8 t)
      match rq with
      | some (mb, tag) => s.finishTag mb tag 0x0304 St.ok 0 (leBytes 8 s.time.tick)
      | none => s

/-- SCHED_SWITCH (R127). -/
def execSchedSwitch (p : Fin 16) (s : State) : Res := .next (s.schedSwitch p)

/-- INTAKE_MISS (R116): the partner's reception data for the cycle were missing at the Intake. -/
def execIntakeMiss (p : Fin 16) (s : State) : Res :=
  .next <|
    match (s.port p).missedAt with
    | none => s
    | some _ =>
      let first := !s.bit (P.schedStatus p) 11
      let s := (s.setBit (P.schedStatus p) 11 true).inc (P.schedIntakeMiss p)
      let s := s.modPort p fun q => { q with missedAt := none, publishDue := false, own := [], partner := [],
                                             partnerVec := false }
      -- the header of the image shows the miss (R173); the image itself stays as published
      let s := s.setPmByte (0x4000 * p + 0x1BC0 + 24) (s.pmByte (0x4000 * p + 0x1BC0 + 24) &&& 0xFE#8 ||| 0x02#8)
      s.when first fun s => s.ev 1 "INTAKE_LATE" [p]

end Sys2Proof.Machine
end

