-- ==== Sys2Proof/Machine/StnUpd.lean ====
section
/-!
DEFINITION. Station updates on the module's side (R532 to R536, R540, R543, R545): staging a package, serving stations one by
one, the frames and commands sent, their replies, and how each station ends.
-/

namespace Sys2Proof.Machine

abbrev upKey (p addr w : Nat) : Nat := tkey (0xD0C1 + 0x100 * p) (addr - 1) w

/-- `STATE` of a station's entry (R545). -/
def State.upState (s : State) (p addr : Nat) : Nat := s.fld (upKey p addr 0) 31 28

/-- The package distributed on a port: that of its journal. -/
def State.stnPkg (s : State) (p : Nat) : Option StnPkg :=
  (s.img.journals.find? fun (j : StnJournal) => j.port == p).bind fun (j : StnJournal) =>
    (s.img.stnPkgs.find? fun (x : List Byte × StnPkg) => x.1 == j.hash).map (·.2)

/-- Bit i of word w of a map of six words stands for address 32w + i + 1 (R541). -/
def State.setMap (s : State) (base addr : Nat) : State := s.setBit (base + (addr - 1) / 32) ((addr - 1) % 32) true
def State.inMap (s : State) (base addr : Nat) : Bool := s.bit (base + (addr - 1) / 32) ((addr - 1) % 32)

/-- The estimate of R541 has no stated method: a free value while a distribution runs. (DESIGN CHOICE, log entry 5) -/
def State.drawEta (s : State) (p : Nat) : State :=
  if s.stnRunning p then let r := s.drawWord; r.2.setWord (P.imgStnEtaS p) r.1 else s.setWord (P.imgStnEtaS p) 0

/-- The stations that wait are served, up to `IMG_STN_PARALLEL` at a time, in ascending `TAP_POS` (R533). -/
def State.fillServes (s : State) (p : Nat) : State :=
  let waiting := (List.range 192).filterMap fun i => if s.upState p (i + 1) = 1 then some (i + 1) else none
  let ordered := sortBy (fun a => (s.delay p a).tap) waiting
  let free := (s.word (P.imgStnParallel p)).toNat - (s.port p).serves.length
  let s := s.each (ordered.take free) fun s a =>
    (s.setFld (upKey p a 0) 31 28 2).modPort p fun q =>
      { q with serves := q.serves ++ [⟨a, 0, 0, 0, none, 0, s.time.tick, 0, 0, 0⟩] }
  s.setWord (P.imgStnActive p) (w32 (s.port p).serves.length)

/-- The counts of the final response of `STN_START` (R540). -/
def State.stnCounts (s : State) (p : Nat) : List Byte :=
  leBytes 2 (s.word (P.imgStnDone p)).toNat ++ leBytes 2 (s.word (P.imgStnFellBack p)).toNat ++
    leBytes 2 (s.word (P.imgStnFailed p)).toNat

/-- The distribution on a port ends, in a state of R543; its requester is answered. -/
def State.stnFinish (s : State) (p state : Nat) : State :=
  let rq : Option Rq := (s.img.journals.find? fun (j : StnJournal) => j.port == p).bind (·.rq)
  let s := (s.setFld (P.imgStnStatus p) 31 29 state).setWord (P.imgStnEtaS p) 0
  let s : State := { s with img.journals := s.img.journals.filter fun (j : StnJournal) => j.port != p }
  match rq with
  | some rq => s.respond rq 0x0D19 St.ok 0 (s.stnCounts p)
  | none => s

/-- One station ends: DONE (5), FAILED (6) or FELL_BACK (7), with its cause (R536); the next one starts. -/
def State.stnEnd (s : State) (p addr state cause : Nat) : State :=
  let s := (s.setFld (upKey p addr 0) 31 28 state).setFld (upKey p addr 0) 27 24 cause
  let s := s.modPort p fun q => { q with serves := q.serves.filter fun x => x.addr != addr }
  let s := if state = 5 then (s.inc (P.imgStnDone p)).setMap (P.imgStnDoneMap p 0) addr
    else (s.inc (if state = 6 then P.imgStnFailed p else P.imgStnFellBack p)).setMap (P.imgStnFailMap p 0) addr
  let s := ((s.setWord (P.imgStnLastAddr p) (w32 addr)).setWord (P.imgStnLastCause p) (w32 cause)).ev 6 "STN_END"
    [p, addr, state, cause]
  let s := (s.fillServes p).drawEta p
  if (s.port p).serves.isEmpty && s.stnRunning p then s.stnFinish p 4 else s

/-- What the station at an address answers to `IDENTIFY`: vendor, product and version (R142). The exchanges of `STN_START` are
taken as answered at once (log entry 15). (DESIGN CHOICE, log entry 15) -/
def State.identOf (s : State) (p addr : Nat) : Option (U16 × U16 × U32) :=
  (s.stns.find? fun (x : Nat × StnS) => x.1 / 2 ^ 32 == p && x.2.addr == addr && x.2.rateFound).map fun x =>
    let serial := w32 x.1
    (Config.stnVendor serial, Config.stnProduct serial, x.2.versionOf serial)

/-! ### Staging (R532) -/

/-- A package held: it is the one that `STN_START` distributes next; a distribution that waited for it goes on (R536). -/
def State.holdPkg (s : State) (hash : List Byte) (k : StnPkg) : State :=
  let s := { s with img.stnPkgs := (s.img.stnPkgs.filter fun (x : List Byte × StnPkg) => x.1 != hash) ++ [(hash, k)] }
  s.each (List.range 16) fun s p =>
    let st := s.fld (P.imgStnStatus p) 31 29
    let s := (s.setBit (P.imgStnStatus p) 28 true).setWord (P.imgStnPkgLevel p) (w32 k.level)
    if st = 0 ∨ st = 3 ∨ st = 4 then s.setFld (P.imgStnStatus p) 31 29 1 else s

/-- The stations of a journal taken up again (R427, R536): from `UPD_BEGIN`, which tells the blocks held; a station already sent
its activate command is waited for. -/
def State.stnTakeUp (s : State) (j : StnJournal) : State :=
  let p := j.port
  let s := s.each j.progress fun s x => s.setWords (upKey p x.1 0) [x.2.1, x.2.2]
  let busy := (List.range 192).filterMap fun i =>
    let st := s.upState p (i + 1)
    if 2 ≤ st ∧ st ≤ 4 then some (i + 1) else none
  let s := s.each busy fun s a =>
    let act := s.upState p a == 4
    (if act then s else s.setFld (upKey p a 0) 31 28 2).modPort p fun q =>
      { q with serves := q.serves ++ [⟨a, 0, 0, 0, none, if act then 5 else 0, s.time.tick, 0, 0, 0⟩] }
  let s := (s.setFld (P.imgStnStatus p) 31 29 2).setBit (P.imgStnStatus p) 27 true
  ((s.setWord (P.imgStnSession p) (w32 j.session)).fillServes p).ev 6 "STN_RESUMED" [p]

/-- The distributions of the journals resumed by the module that now holds LEAD or STANDALONE (R427, R536): its own journal of a
port, or else the partner's copy. Without the package a port shows SUSPENDED. -/
def State.stnResume (s : State) : State :=
  s.each (List.range 16) fun s p =>
    if s.stnRunning p then s
    else
      let own : Option StnJournal := s.img.journals.find? fun (j : StnJournal) => j.port == p
      match (own <|> s.img.journalIn.find? fun (j : StnJournal) => j.port == p : Option StnJournal) with
      | none => s
      | some j =>
        let j := if own.isSome then { j with progress := [] } else j
        let s := { s with
          img.journals := (s.img.journals.filter fun (x : StnJournal) => x.port != p) ++ [j]
          img.journalIn := s.img.journalIn.filter fun (x : StnJournal) => x.port != p }
        if s.img.stnPkgs.any fun (x : List Byte × StnPkg) => x.1 == j.hash then s.stnTakeUp j
        else (s.setFld (P.imgStnStatus p) 31 29 5).setBit (P.imgStnStatus p) 28 false

/-- STN_STAGE (R532): `signed`: the signature verifies with the plant authority key; `pkg` is what the image holds. A lead sends
the package to its trail. -/
def execStnStage (rq : Rq) (hash : List Byte) (signed : Bool) (pkg : StnPkg) (s : State) : Res :=
  .next <| s.cmd rq 0x0D18 [6] true (s.sys.mode == .standalone || s.sys.mode == .lead) fun s =>
    match s.object 3 hash with
    | none => s.respond rq 0x0D18 St.refused 0 []
    | some o => s.bg rq 0x0D18 [] fun s =>
      let lo := fieldOf (s.tplRange) 15 8
      let hi := fieldOf (s.tplRange) 7 0
      if !s.imageValid o signed [7] then (s.ev 6 "VERIFY_FAIL" [7]).respond rq 0x0D18 St.verifyFail 0 []
      else if pkg.level < lo ∨ hi < pkg.level then s.respond rq 0x0D18 St.refused 6 []
      else
        let s := ((s.dropObject hash).holdPkg hash pkg).ev 6 "STN_STAGED" [pkg.level]
        let s := s.when s.paired fun s => (s.message 9 hash).2
        s.stnResume.respond rq 0x0D18 St.ok 0 []

/-! ### Starting and stopping (R533, R536) -/

/-- STN_START (R533, R546): the stations of `IMG_STN_SEL` that match the package are selected, the others fail with cause 0x7. (DESIGN CHOICE, log entry 15; DEDUCED, log entry 43) -/
def execStnStart (rq : Rq) (p : Fin 16) (s : State) : Res :=
  .next <| s.cmd rq 0x0D19 [6] true s.sys.mode.run fun s =>
    if s.sys.mode == .trail then s.relay rq 0x0D19 (leBytes 4 p)
    else match s.img.stnPkgs.getLast? with
    | none => s.respond rq 0x0D19 St.refused 0 []
    | some (hash, k) => s.starting rq 0x0D19 3 0 (some p.val) fun s =>
      if s.bgFull rq.mb then s.respond rq 0x0D19 St.busy 0 []
      else
        let known : Option Nat := (s.img.sessions.find? fun (x : List Byte × Nat) => x.1 == hash).map (·.2)
        let session : Nat := known.getD s.img.nextSession
        let s := if known.isSome then s
          else { s with
            img.sessions := s.img.sessions ++ [(hash, session)]
            img.nextSession := (session + 1) % 65536 }
        let named := (List.range 192).filterMap fun i => if s.inMap (P.imgStnSel p 0) (i + 1) then some (i + 1) else none
        let fits := fun (a : Nat) => s.identOf p a == some (k.vendor, k.product, k.base)
        let s := s.each (List.range 192) fun s i => s.setWords (upKey p (i + 1) 0) [0, 0]
        let s := s.each (List.range 6) fun s w => (s.setWord (P.imgStnDoneMap p w) 0).setWord (P.imgStnFailMap p w) 0
        let s := s.setWords (P.imgStnTargets p) [w32 (named.filter fits).length, 0, 0, 0, 0, 0, 0, 0]
        let s := (s.setWord (P.imgStnSession p) (w32 session)).set64 (P.imgStnStartLo p) s.time.tick
        let s := (s.setFld (P.imgStnStatus p) 31 29 2).setBit (P.imgStnStatus p) 27 false
        let s := { s with img.journals := (s.img.journals.filter fun (j : StnJournal) => j.port != p.val) ++
            [(⟨p.val, hash, session, s.time.tick, some rq, []⟩ : StnJournal)] }
        let s := s.each (named.filter fits) fun s a =>
          s.setWords (upKey p a 0) [w32 (2 ^ 28 + s.fld (stKey p a 0) 19 12 * 2 ^ 16), w32 k.blocks.length]
        let s := s.accept rq 0x0D19 (leBytes 2 (named.filter fits).length)
        let s := s.ev 6 "STN_STARTED" [p, (named.filter fits).length]
        let s := s.each (named.filter fun a => !fits a) fun s a =>
          let s := (s.setWord (upKey p a 0) (w32 (6 * 2 ^ 28 + 7 * 2 ^ 24))).inc (P.imgStnFailed p)
          ((s.setMap (P.imgStnFailMap p 0) a).setWord (P.imgStnLastAddr p) (w32 a)).setWord (P.imgStnLastCause p) 7
        let s := (s.fillServes p).drawEta p
        if (s.port p).serves.isEmpty then s.stnFinish p 4 else s

/-- STN_STOP (R536): the distribution ends after the frame in flight. -/
def execStnStop (rq : Rq) (p : Fin 16) (s : State) : Res :=
  .next <| s.cmd rq 0x0D1A [6] true s.sys.mode.run fun s =>
    if s.sys.mode == .trail then s.relay rq 0x0D1A (leBytes 4 p)
    else if !s.stnRunning p then s.respond rq 0x0D1A St.refused 0 []
    else
      let s := (s.stnFinish p 3).modPort p fun q => { q with serves := q.serves.filter fun x => x.awaiting.isSome }
      (s.setWord (P.imgStnActive p) 0).respond rq 0x0D1A St.ok 0 []

/-- STN_DISCARD (R540): a staged package is removed, unless it is being distributed. -/
def execStnDiscard (rq : Rq) (hash : List Byte) (s : State) : Res :=
  .next <| s.cmd rq 0x0D1B [6] false (s.sys.mode.run || s.sys.mode == .hold) fun s =>
    if !(s.img.stnPkgs.any fun (x : List Byte × StnPkg) => x.1 == hash) ||
        (s.img.journals.any fun (j : StnJournal) => j.hash == hash && s.stnRunning j.port) then
      s.respond rq 0x0D1B St.refused 0 []
    else
      let s := { s with img.stnPkgs := s.img.stnPkgs.filter fun (x : List Byte × StnPkg) => x.1 != hash }
      let s := if s.img.stnPkgs.isEmpty then
          s.each (List.range 16) fun s p =>
            let s := (s.setBit (P.imgStnStatus p) 28 false).setWord (P.imgStnPkgLevel p) 0
            if s.fld (P.imgStnStatus p) 31 29 = 1 then s.setFld (P.imgStnStatus p) 31 29 0 else s
        else s
      s.respond rq 0x0D1B St.ok 0 []

/-! ### Frames and commands (R533 to R535) -/

/-- The commands of a target block whose output begins at `offset`, as many as fit `room` bytes, and the output they give. -/
def takeCmds : List (List Byte × Nat) → Nat → Nat → Nat → List Byte × Nat
  | [], _, _, _ => ([], 0)
  | c :: cs, at_, offset, room =>
    if at_ < offset then takeCmds cs (at_ + c.2) offset room
    else if room < c.1.length then ([], 0)
    else
      let r := takeCmds cs (at_ + c.2) (at_ + c.2) (room - c.1.length)
      (c.1 ++ r.1, c.2 + r.2)

/-- The data of the next frame of a served station, and the output that they give (R534). -/
def StnPkg.chunk (k : StnPkg) (x : Serve) (room : Nat) : List Byte × Nat :=
  if x.block = 0 then let d := (k.manifest.drop x.offset).take room; (d, d.length)
  else takeCmds (k.blocks.getD (x.block - 1) []) 0 x.offset room

/-- The payload of the frame that a served station gets next, and whether it is an update frame. -/
def State.updPayload (s : State) (p : Nat) (k : StnPkg) (x : Serve) (room tag : Nat) : Bool × List Byte :=
  let session := (s.word (P.imgStnSession p)).toNat
  let ctl := fun (mcmd : Nat) => [BitVec.ofNat 8 mcmd, BitVec.ofNat 8 tag] ++ beBytes 2 session
  match x.step with
  | 0 => (false, ctl 0xA1 ++ beBytes 2 k.blocks.length ++ [BitVec.ofNat 8 k.level, 0] ++ beBytes 4 k.base.toNat ++
      beBytes 4 k.target.toNat)
  | 1 =>
    let d := (k.chunk x room).1
    let b := if x.block = 0 then 0xFFFF else x.block - 1
    (true, padWords (beBytes 2 session ++ beBytes 2 b ++ beBytes 2 x.offset ++ [BitVec.ofNat 8 d.length, 0] ++ d))
  | 3 => (false, ctl 0xA2 ++ [0, 0, 0, 0])
  | _ => (false, ctl 0xA3 ++ [0, 0, 0, 0])

/-- STATION_DISTRIBUTION_FRAME (R533, R534, R536): in a round won for updates, the next station in turn is sent its frame or
command. -/
def execStationDistributionFrame (p : Fin 16) (s : State) : Res :=
  .next <| s.withSched p fun c =>
    match (s.port p).round, s.stnPkg p with
    | some ⟨m, _, some .update, true⟩, some k =>
      let q := s.port p
      match q.serves.find? Serve.ready with
      | none => s
      | some x =>
        let tag := 128 + q.tagCount
        let f := s.updPayload p k x (8 * (c.evLen - 1)) tag
        let y := { x with attempts := x.attempts + 1, awaiting := some (q.replyAgree c m), tag := tag }
        let s := (s.inc (P.imgStnFrames p)).when (x.attempts != 0) fun s => s.inc (P.imgStnRetries p)
        let s := s.setFld (upKey p x.addr 0) 7 0 y.attempts
        s.modPort p fun q =>
          { q with
            tagCount := (q.tagCount + 1) % 128
            round := q.round.map fun r => { r with grant := none }
            serves := (q.serves.filter fun z => z.addr != x.addr) ++ [y]
            lastRequest := frameBytes (if f.1 then 0xA else 5) 0 x.addr (seqOf q.cycle) f.2 }
    | _, _ => s

/-- A served station as its step changes. -/
def State.setServe (s : State) (p : Nat) (y : Serve) : State :=
  s.modPort p fun q => { q with serves := q.serves.map fun z => if z.addr = y.addr then y else z }

/-- The agreed reply of a served station (R534 to R536): `payload` is the reply's. -/
def State.updReply (s : State) (p : Nat) (x : Serve) (payload : List Byte) : State :=
  let b := fun (i : Nat) => (payload.getD i 0).toNat
  let y := { x with attempts := 0, awaiting := none }
  match s.stnPkg p with
  | none => s.modPort p fun q => { q with serves := q.serves.filter fun z => z.addr != x.addr }
  | some k =>
    if b 2 ≠ 0 then s.stnEnd p x.addr 6 3
    else
      let verify := fun (s : State) =>
        (s.setFld (upKey p x.addr 0) 31 28 3).setServe p
          { y with block := k.blocks.length + 1, step := 3, since := s.time.tick, polled := (s.port p).cycle }
      match x.step with
      | 0 =>
        let d := b 4 * 256 + b 5
        let s := s.setFld (upKey p x.addr 1) 31 16 d
        if k.blocks.length ≤ d then verify s
        else s.setServe p { y with step := 1, block := if d = 0 then 0 else d + 1, offset := 0 }
      | 1 =>
        let room := match (s.port p).cur with
          | some c => 8 * (c.evLen - 1)
          | none => 0
        let r := k.chunk x room
        let s := s.incBy (P.imgStnBytes p) r.1.length
        let size := if x.block = 0 then k.manifest.length
          else ((k.blocks.getD (x.block - 1) []).map (·.2)).foldl (· + ·) 0
        if x.offset + r.2 < size then s.setServe p { y with offset := x.offset + r.2 }
        else
          let s := s.when (x.block != 0) fun s => s.setFld (upKey p x.addr 1) 31 16 x.block
          if k.blocks.length ≤ x.block then verify s
          else s.setServe p { y with block := x.block + 1, offset := 0 }
      | 3 =>
        if b 3 = 0 then (s.setFld (upKey p x.addr 0) 31 28 4).setServe p { y with step := 4 }
        else if b 3 = 1 then s.setServe p { y with step := 2, polled := (s.port p).cycle }
        else s.stnEnd p x.addr 6 4
      | 4 => s.setServe p { y with step := 5, since := s.time.tick }
      | _ => s

/-- Whether a reply frame answers what a served station was sent (R107). -/
def Serve.answeredBy (x : Serve) (addr : Nat) (payload : List Byte) : Bool :=
  let mcmd := (payload.getD 0 0).toNat
  let tag := (payload.getD 1 0).toNat
  x.addr == addr && match x.step with
    | 0 => mcmd == 0xA1 && tag == x.tag
    | 1 => mcmd == 0xA0 && tag == (if x.block = 0 then 0xFF else (x.block - 1) % 256)
    | 3 => mcmd == 0xA2 && tag == x.tag
    | 4 => mcmd == 0xA3 && tag == x.tag
    | _ => false

/-- The agreement of tick k for what served stations were sent: the replies agreed, and those that drew none (R536). -/
def State.updAgree (s : State) (p k : Nat) (replies : List (Nat × List Byte)) : State :=
  s.each ((s.port p).serves.filter fun x => x.awaiting == some k) fun s x =>
    if !s.stnRunning p then s.modPort p fun q => { q with serves := q.serves.filter fun z => z.addr != x.addr }
    else match replies.find? fun r => x.answeredBy r.1 r.2 with
      | some r => s.updReply p x r.2
      | none =>
        if 4 ≤ x.attempts then s.stnEnd p x.addr 6 1
        else s.setServe p { x with awaiting := none }

/-- The agreed return notice of an activated station (R145, R536). -/
def State.updNotice (s : State) (p addr level : Nat) : State :=
  match (s.port p).serves.find? fun x => x.addr == addr && x.step == 5, s.stnPkg p with
  | some _, some k =>
    let s := s.setFld (upKey p addr 0) 15 8 level
    if level = k.level then s.stnEnd p addr 5 0 else s.stnEnd p addr 7 0
  | _, _ => s

/-- The cycles that each served station has been ABSENT before its activation (R536). -/
def State.updAbsent (s : State) (p : Nat) : State :=
  s.modPort p fun q => { q with serves := q.serves.map fun x =>
    { x with absent := if s.stState p x.addr = 3 ∧ x.step < 5 then x.absent + 1 else 0 } }

/-- UPD_VERIFY_POLL (R535): once every 8 cycles while a station verifies. -/
def execUpdVerifyPoll (p : Fin 16) (s : State) : Res :=
  .next <| s.modPort p fun q => { q with serves := q.serves.map fun x =>
    if x.step = 2 ∧ x.polled + 8 ≤ q.cycle then { x with step := 3 } else x }

/-- STN_ABSENT_TIMEOUT (R536): ABSENT for 64 cycles before `UPD_ACTIVATE`. -/
def execStnAbsentTimeout (p : Fin 16) (s : State) : Res :=
  .next <| s.each ((s.port p).serves.filter fun x => decide (64 ≤ x.absent)) fun s x => s.stnEnd p x.addr 6 2

/-- STN_VERIFY_TIMEOUT (R536): not verified within `IMG_STN_VERIFY_TO`. -/
def execStnVerifyTimeout (p : Fin 16) (s : State) : Res :=
  .next <|
    let limit := (s.word (P.imgStnVerifyTo p)).toNat * 8000
    s.each ((s.port p).serves.filter fun x => (x.step == 2 || x.step == 3) && decide (x.since + limit ≤ s.time.tick)) fun s x =>
      s.stnEnd p x.addr 6 5

/-- STN_ACTIVATE_TIMEOUT (R536): no return notice within `IMG_STN_ACTIVATE_TO` of the activation. -/
def execStnActivateTimeout (p : Fin 16) (s : State) : Res :=
  .next <|
    let limit := (s.word (P.imgStnActivateTo p)).toNat * 8000
    s.each ((s.port p).serves.filter fun x => x.step == 5 && decide (x.since + limit ≤ s.time.tick)) fun s x =>
      s.stnEnd p x.addr 6 6

/-! ### The journal (R536) -/

/-- The progress entries of the stations that a port's distribution has selected. -/
def State.stnProgress (s : State) (p : Nat) : List (Nat × U32 × U32) :=
  (List.range 192).filterMap fun i =>
    if s.upState p (i + 1) = 0 then none else some (i + 1, s.word (upKey p (i + 1) 0), s.word (upKey p (i + 1) 1))

def StnJournal.bytes (j : StnJournal) : List Byte :=
  leBytes 1 j.port ++ j.hash ++ leBytes 2 j.session ++ leBytes 8 j.start ++
    j.progress.flatMap fun x => leBytes 1 x.1 ++ leBytes 4 x.2.1.toNat ++ leBytes 4 x.2.2.toNat

/-- The journal that a message carries. -/
def StnJournal.ofBytes (b : List Byte) : StnJournal :=
  let n := (b.length - 43) / 9
  { port := (b.headD 0).toNat % 16, hash := (b.drop 1).take 32, session := ofLe ((b.drop 33).take 2),
    start := ofLe ((b.drop 35).take 8), rq := none,
    progress := (List.range n).map fun i =>
      let e := b.drop (43 + 9 * i)
      ((e.headD 0).toNat, w32 (ofLe ((e.drop 1).take 4)), w32 (ofLe ((e.drop 5).take 4))) }

/-- Every housekeeping period the lead journals its distributions and copies them to the trail (R536). -/
def State.stnJournals (s : State) : State :=
  s.each s.img.journals fun s j =>
    if !s.stnRunning j.port then s
    else
      let j' := { j with progress := s.stnProgress j.port }
      if j'.progress == j.progress then s
      else
        let s := { s with img.journals := s.img.journals.map fun (x : StnJournal) => if x.port = j.port then j' else x }
        s.when s.paired fun s => (s.message 10 j'.bytes).2

end Sys2Proof.Machine
end

