-- ==== Sys2Proof/Machine/PairFlow.lean ====
section
/-!
DEFINITION. What pair transitions share (file 09): the handover's start and end, the loss of a partner, the takeover, the entry
to STANDALONE, and the digests and wire comparison that find a divergence.
-/

namespace Sys2Proof.Machine

/-! ### The partner -/

/-- The partner runs beside this module: in TRAIL behind this lead, or the lead of this trail. -/
def State.inPair (s : State) : Bool :=
  (s.sys.mode == .lead && s.pair.partner == .trail) || (s.sys.mode == .trail && s.pair.partner == .lead)

/-- A handover given up (R257, R267): a request is refused, and an update or a lever that waited for it waits no more. -/
def State.abandonHandover (s : State) : State :=
  match s.pair.handover with
  | none => s
  | some h =>
    let s := { s.setBit P.pairStatus 22 false with
      pair := { s.pair with handover := none, afterHandover := none } }
    let s := if h.oldLead then s.finish 0x0600 St.refused 0 [] else s
    match s.sys.pending with
    | some (_, .withdrawal _) => { s with sys.pending := none }.refusePending
    | _ => s

/-- The partner is shown ABSENT (R262, R263): `SOLO` clears, a change that waited for the trail goes on alone or is abandoned,
and a handover ends. -/
def State.partnerGone (s : State) : State :=
  if s.pair.partner == .absent then s
  else
    let s := (s.setBit P.pairStatus 25 false).setBit P.pairStatus 23 false
    let s := { s with pair := { s.pair with
        partner := .absent, resolution := none, waitLead := none, partnerSole := false } }
    let s := (s.abandonHandover).chgTrailLost
    s.ev 3 "PARTNER_ABSENT" []

/-! ### Handover (R266, R267) -/

/-- The requester of a handover whose answer waits (R443). -/
def State.handoverRq (s : State) : Option (Fin 8 × U16) := (s.background 0x0600).map fun r => (r.mb, r.tag)

/-- The old module of a converted transfer may hand over: its partner has sent READY (R266). -/
def State.convertedReady (s : State) : Bool :=
  s.sys.mode == .standalone && (match s.sync.resync with
    | some r => r.lead && r.converted && r.readySent
    | none => false)

/-- A handover proposed: X is `PAIR_HANDOVER_LEAD` ticks away (R267). While a change stands in PROPOSED to SAVING it waits (R223). -/
def State.startHandover (s : State) (byLever : Bool) : State :=
  if 3 ≤ s.chgPhase ∧ s.chgPhase ≤ 6 then { s with pair.waitHandover := some byLever }
  else
    let x := s.time.tick + (s.word P.pairHandoverLead).toNat
    let h : Handover := ⟨x, .proposed, true, s.handoverRq⟩
    ({ s with pair := { s.pair with handover := some h, waitHandover := none } }.setBit P.pairStatus 22 true).control 0x18 0 0 x

/-- Whether a handover may be requested (R266): neither `RESOLVING` nor `SOLO`, none in progress, and the partner in TRAIL. -/
def State.mayHandover (s : State) : Bool :=
  !s.bit P.pairStatus 23 && !s.bit P.pairStatus 25 && s.pair.handover.isNone && s.pair.waitHandover.isNone &&
    s.sys.mode == .lead && s.pair.partner == .trail

/-! ### Takeover (R260, R261) -/

/-- The takeover at a tick boundary (R261); a mode request that waits is refused (R413). (DEDUCED, log entry 54) -/
def State.takeOver (s : State) : State :=
  let s := s.dropPending.gaugeAuto 4
  let s := (s.takeClaim (s.highest + 2)).clearPairWork
  let s := { s with pair := { s.pair with partner := .absent, partnerSole := false } }
  let s := (((s.enterMode .lead 4).inc P.pairTakeoverCnt).setBit P.pairStatus 15 true).chgTakeover
  (s.ev 3 "TAKEOVER" [s.pair.claim.toNat]).stnResume

/-- No valid heartbeat for 8 consecutive ticks, this one included (R263). -/
def State.heartbeatLost (s : State) : State :=
  if s.pair.hbSeen || decide (s.pair.hbMissed < 7) || s.bit P.pairStatus 24 then s
  else
    let s := (s.setBit P.pairStatus 24 true).ev 3 "HEARTBEAT_LOST" []
    s.when s.inPair fun s => s.setBit P.pairStatus 25 true

/-! ### STANDALONE from LISTEN (R248) -/

/-- A port is ready for a module alone (R248): `READY`, or its only fault is that no beacon is heard. -/
def State.aloneReady (s : State) (p : Nat) : Bool :=
  s.bit (P.trkStatus p) 15 || (!s.bit (P.trkStatus p) 14 && (s.port p).calibrated && s.bit (P.schedStatus p) 15 &&
    (match (s.port p).cur with
      | some c => (c.entries.filter fun e => !e.noInput && !e.optional).all fun e => s.setValid p e.eqSet
      | none => false))

/-- Silence since the last heartbeat, beacon or broadcast heard, or the end of BOOT (R248, R410), in ns of plant time. -/
def State.silence (s : State) : Nat := s.plant - max s.sys.heardAt s.sys.bootEndAt

/-- A heartbeat, beacon or broadcast of another end is heard, in whatever mode (R410). -/
def State.heard (s : State) : State := { s with sys.heardAt := s.plant }

/-- Silence has lasted `PAIR_LISTEN_ALONE`. -/
def State.alone (s : State) : Bool := decide ((s.word P.pairListenAlone).toNat * 1000000 ≤ s.silence)

/-! ### Comparison (R254, R255, R280) -/

abbrev ptKey (p w : Nat) : Nat := tkey 0x60C1 p w

/-- What the wire comparison covers of a broadcast (R254): bits 2:0 of byte 3, `SEQ` and the width, and every word; not `END` and
`CLAIM`. -/
def wirePart (b : List Byte) : List Byte :=
  match b with
  | [] => []
  | h :: rest => (h &&& 0x07#8) :: ((rest.drop 1).take 2 ++ ((rest.drop 7).dropLast.dropLast.dropLast.dropLast))

/-- The tick from the cycle start at whose end the partner's broadcast should have reached this module's connector (R260). -/
def State.partnerDue (s : State) (p : Nat) (c : Sched) (j : Nat) : Nat :=
  let len := bcastLen (c.width j) c.rate
  let t := if s.isHead p then c.tailStart j + len + c.loopDelay else c.bcastStart + len + c.loopDelay
  t / 125000

/-- The wire comparisons of the current tick: the mask of the trunks that differ (R254), with the counts of R280. -/
def State.compareWires (s : State) : State :=
  let s := { s with pair.wireDiff := 0 }
  s.each (List.range 16) fun s p =>
    match (s.port p).cur with
    | none => s
    | some c =>
      let q := s.port p
      if !s.runningTrunk p || q.cycleTick + c.wireTick (q.pos c) != s.time.tick || !s.inPair then s
      else match q.partnerBcast with
        | none => s
        | some b =>
          if wirePart b == wirePart q.lastBcast then s.setWord (ptKey p 3) (s.word (ptKey p 3) + 1)
          else { s.inc (ptKey p 1) with pair.wireDiff := Sys2Proof.setBit s.pair.wireDiff p true }

/-- A cycle whose partner broadcast should have arrived by now, and did not (R254, R280). (DEDUCED, log entry 60) -/
def State.countSilence (s : State) : State :=
  s.each (List.range 16) fun s p =>
    match (s.port p).cur with
    | none => s
    | some c =>
      let q := s.port p
      if !s.runningTrunk p || q.cycleTick + s.partnerDue p c (q.pos c) != s.time.tick || q.partnerBcast.isSome then s
      else ((s.inc (ptKey p 2)).incFld (ptKey p 0) 23 16).setBit (ptKey p 0) 0 false

/-- The silence condition of R260 on the trunks: every running trunk has missed two cycles. -/
def State.trunksSilent (s : State) : Bool :=
  (List.range 16).all fun p => !s.runningTrunk p || decide (2 ≤ s.fld (ptKey p 0) 23 16)

/-- A divergence decided in this tick (R254, R257, R263). (DEDUCED, log entry 68) -/
def State.diverge (s : State) : State :=
  let s := (s.inc P.pairDivergeCnt).setBit P.pairStatus 14 true
  let s := s.ev 3 "DIVERGENCE" [s.pair.wireDiff, s.pair.partnerWireDiff, s.pair.digestDiff.toNat]
  if s.bit P.pairStatus 25 || s.pair.resolution.isSome then s
  else
    let s := (s.gaugeAuto 2).setBit P.pairStatus 23 true
    let s := { s with pair.resolution := some ⟨s.time.tick, none, none⟩ }
    match s.pair.handover with
    | some h => if h.phase == .confirmed then s else s.abandonHandover
    | none => s

/-- The module's own verdict, in the exchange of tick k + 1 (R256). -/
def State.ownVerdict (s : State) : State :=
  match s.pair.resolution with
  | some r =>
    if r.ownFault.isSome || s.time.tick != r.tick + 1 then s
    else
      let f := s.pair.faultSeen || (List.range 16).any fun p => s.bit (ptKey p 0) 1
      { s with pair.resolution := some { r with ownFault := some f } }.control 0x02 f.toNat 0 r.tick
  | none => s

end Sys2Proof.Machine
end

