-- ==== Sys2Proof/Machine/RecOps.lean ====
section
/-!
DEFINITION. The event recorder's shared operations (file 17): the record and its safety word, where a record stands, token
buckets, how a raised event becomes a record, a repeat or a count, and the writing of the queue.
-/

namespace Sys2Proof.Machine

/-- Whether the unit that holds a parameter is released (R468): groups SYS, REC, IMG, KPR and SENS are the Keeper's. (DEDUCED, log entry 47) -/
def State.available (s : State) (id : Nat) : Bool := [0, 0xB, 0xD, 0xE, 0xF].contains (id / 0x1000) || s.coreUp

/-! ### Records (R482 to R485) -/

/-- The words of a record, W0 first, with the safety word given (R484). -/
def Rec.words (r : Rec) (safety : U32) : List U32 :=
  let w0 := w32 (r.code.toNat * 65536 + r.check.toNat * 32768 + r.partialBit.toNat * 16384 + r.tick / 2 ^ 32 % 8192)
  [w0, lo32 r.tick, w32 (r.repeats % 8192 * 2 ^ 19 + r.last % 2 ^ 19), safety] ++ (r.snaps ++ List.replicate 12 0).take 12

def Rec.bytes (r : Rec) : List Byte := (r.words r.safety).flatMap fun w => leBytes 4 w.toNat

/-- `SAFETY` for a sequence number (R485). -/
def Rec.safetyFor (r : Rec) (seq : Nat) : U32 :=
  if r.check then
    let b := (r.words 0).flatMap fun w => leBytes 4 w.toNat
    crc32c (leBytes 8 seq ++ b.take 12 ++ b.drop 16)
  else w32 (0xA5C30000 + seq % 65536)

/-- A record is valid for a sequence number when its `SAFETY` matches (R485); an empty slot holds none. -/
def Rec.validFor (r : Rec) (seq : Nat) : Bool := r != Rec.empty && r.safety == r.safetyFor seq

/-- A channel's Headwater is open (R502). -/
def State.hwOpen (s : State) (c : Nat) : Bool := s.bit (P.recStatus c) 7

/-- `NEXT` of a channel; before the Headwaters open, numbering is from 512 (R482, R483). -/
def State.recNext (s : State) (c : Nat) : Nat :=
  if s.hwOpen c then s.get64 (P.recNextLo c) else max 512 (s.get64 (P.recNextLo c))

/-- The slot of sequence number n (R482). -/
def recSlot (c n : Nat) : Nat := c * 16384 + (if n < 512 then n else 512 + (n - 512) % 8192)

def State.recAt (s : State) (c n : Nat) : Rec := Cmap.get (fun _ => Rec.empty) s.recorder.slots (recSlot c n)

def State.putRec (s : State) (c n : Nat) (r : Rec) : State :=
  { s with recorder.slots := Cmap.put (fun _ => Rec.empty) s.recorder.slots (recSlot c n) r }

/-- The oldest number of the Tailwater (R483). -/
def recOldest (next : Nat) : Nat := max 512 (next - 8192)

/-- Whether record n of a channel is still held. -/
def State.recHeld (s : State) (c n : Nat) : Bool :=
  let next := s.recNext c
  decide (n < next) && (if n < 512 then s.hwOpen c else decide (recOldest next ≤ n)) && s.recAt c n != Rec.empty

/-! ### Codes and buckets (R489, R494, R495) -/

/-- The code of a raised event (R494). -/
def Raised.codeWord (r : Raised) : U16 :=
  match r.code with
  | .mod name => BitVec.ofNat 16 (r.chan * 4096 + (Config.evCode name).toNat)
  | .fixed c => c

/-- The `REC_CODES` entry of a code (R495). -/
def State.recEntry (s : State) (code : U16) : Option Nat :=
  (List.range 1024).find? fun e => code != 0 && s.fld (tkey 0xB8C0 e 0) 31 16 == code.toNat

/-- The slots that a code's entry names, in order (R486, R495). -/
def State.recSlots (s : State) (e : Nat) : List Nat :=
  (List.range (min 12 (s.fld (tkey 0xB8C0 e 0) 15 12))).map fun j =>
    s.fld (tkey 0xB8C0 e (2 + j / 2)) (if j % 2 = 0 then 15 else 31) (if j % 2 = 0 then 0 else 16)

/-- The snapshots of an event: parameters as they are read now, and the source's values in order; whether one was unavailable
(R486). -/
def State.snapshots (s : State) : List Nat → List U32 → List U32 × Bool
  | [], _ => ([], false)
  | 0xFFFF :: ids, vals =>
    let r := s.snapshots ids (vals.drop 1)
    (vals.headD 0 :: r.1, r.2)
  | id :: ids, vals =>
    let r := s.snapshots ids vals
    if s.available id then (s.paramView id :: r.1, r.2) else (0 :: r.1, true)

abbrev bucketKey (c : Nat) (code : U16) : Nat := c * 65536 + code.toNat

/-- A user code takes the channel's values (R489). -/
def isUser (code : U16) : Bool := decide (0x7100 ≤ code.toNat ∧ code.toNat ≤ 0x7FFF)

/-- `RATE` and `BURST` in force for a code of a channel (R489). -/
def State.codeRate (s : State) (c : Nat) (code : U16) : Nat :=
  match (if isUser code then none else s.recEntry code) with
  | some e => if s.fld (tkey 0xB8C0 e 1) 31 20 = 0 then (s.word (P.recRate c)).toNat else s.fld (tkey 0xB8C0 e 1) 31 20
  | none => (s.word (P.recRate c)).toNat

def State.codeBurst (s : State) (c : Nat) (code : U16) : Nat :=
  match (if isUser code then none else s.recEntry code) with
  | some e => if s.fld (tkey 0xB8C0 e 1) 19 8 = 0 then (s.word (P.recBurst c)).toNat else s.fld (tkey 0xB8C0 e 1) 19 8
  | none => (s.word (P.recBurst c)).toNat

/-- The refill instants in d ms: the multiples of 60,000 / `RATE` ms, each rounded down to 1 ms (R489). -/
def refills (rate d : Nat) : Nat := ((d + 1) * rate - 1) / 60000

/-- A bucket as it stands now: tokens, the instant its refills count from, the refills counted. -/
def State.bucket (s : State) (c : Nat) (code : U16) : Nat × Nat × Nat :=
  let burst := s.codeBurst c code
  let rate := s.codeRate c code
  match s.recorder.buckets.find? fun (b : Nat × Nat × Nat × Nat) => b.1 == bucketKey c code with
  | none => (burst, s.recorder.keeperStart, refills rate (s.kpr.now - s.recorder.keeperStart))
  | some (_, t, ref, done) =>
    let n := refills rate (s.kpr.now - ref)
    (min burst (t + (n - done)), ref, n)

def State.setBucket (s : State) (c : Nat) (code : U16) (b : Nat × Nat × Nat) : State :=
  { s with recorder.buckets :=
      (s.recorder.buckets.filter fun (x : Nat × Nat × Nat × Nat) => x.1 != bucketKey c code) ++ [(bucketKey c code, b)] }

/-- The listed buckets of a channel that are empty now. -/
def State.emptyBuckets (s : State) (c : Nat) : Nat :=
  (s.recorder.buckets.filter fun (b : Nat × Nat × Nat × Nat) =>
    decide (b.1 / 65536 = c) && (s.bucket c (BitVec.ofNat 16 b.1)).1 == 0).length

/-- `FLOODING` and `REC_FLOOD_CODES` (R489, R501). -/
def State.floodSums (s : State) : State :=
  let s := s.each (List.range 8) fun s c => s.setBit (P.recStatus c) 4 (s.emptyBuckets c != 0)
  s.setWord P.recFloodCodes (w32 (((List.range 8).map s.emptyBuckets).foldl (· + ·) 0))

/-- The codes of a channel whose buckets follow its own `REC_RATE`, or one entry's (R489). -/
def State.codesOf (s : State) (c : Nat) : List U16 :=
  let es := (List.range 1024).filterMap fun e =>
    let w := s.fld (tkey 0xB8C0 e 0) 31 16
    if w ≠ 0 ∧ w / 4096 = c then some (BitVec.ofNat 16 w) else none
  let fixed := [2, 3, 4].map fun k => BitVec.ofNat 16 (c * 4096 + k)
  es ++ fixed ++ (if c = 7 then (List.range 0xF00).map fun k => BitVec.ofNat 16 (0x7100 + k) else [])

/-- A write that may change rates: where a code's `RATE` in force changes, its refills are counted afresh from now, with the
tokens that it holds (R489). -/
def State.rateChange (s : State) (c : Nat) (f : State → State) : State :=
  let s' := f s
  s'.each ((s.codesOf c).filter fun code => s.codeRate c code != s'.codeRate c code) fun t code =>
    t.setBucket c code ((s.bucket c code).1, s.kpr.now, 0)

/-! ### From an event to a record (R487 to R489) -/

/-- The last record of a channel, queued or written. -/
def State.lastRec (s : State) (c : Nat) : Option Rec :=
  match (s.recorder.queue.filter fun (x : Nat × Rec) => x.1 == c).getLast? with
  | some x => some x.2
  | none => if s.recNext c = 0 then none
      else
        let r := s.recAt c (s.recNext c - 1)
        if r.validFor (s.recNext c - 1) then some r else none

/-- The last queued record of a channel replaced. -/
def setLastQueued (c : Nat) (r : Rec) (q : List (Nat × Rec)) : List (Nat × Rec) :=
  match q.reverse.findIdx? fun (x : Nat × Rec) => x.1 == c with
  | some i => q.set (q.length - 1 - i) (c, r)
  | none => q

/-- The last record of a channel replaced: in the queue, or in its slot with its check made anew (R491). -/
def State.setLastRec (s : State) (c : Nat) (r : Rec) : State :=
  if s.recorder.queue.any fun (x : Nat × Rec) => x.1 == c then
    { s with recorder.queue := setLastQueued c r s.recorder.queue }
  else
    let n := s.recNext c - 1
    s.putRec c n { r with safety := r.safetyFor n }

/-- Two events agree in every slot that `KEY` selects (R488). -/
def keyEqual (key : Nat) (a b : List U32) : Bool :=
  (List.range 12).all fun j => !hasBit key j || a.getD j 0 == b.getD j 0

/-- A record put into the queue (R487). -/
def State.queueRec (s : State) (c : Nat) (r : Rec) : State :=
  let s := { s with recorder.queue := s.recorder.queue ++ [(c, r)] }
  let s := (s.setWord (P.recLastCode c) (w32 r.code.toNat)).set64 (P.recLastTickLo c) r.tick
  s.maxWord P.recQueueMax s.recorder.queue.length

/-- The severity of a code: its entry's, or what is left open for a code without one. (DESIGN CHOICE, log entry 42) -/
def State.codeSev (s : State) (code : U16) : Nat :=
  match s.recEntry code with
  | some e => s.fld (tkey 0xB8C0 e 1) 7 6
  | none => Config.fixedSev code

/-- One raised event taken in (R486 to R489). (DEDUCED, log entry 41) -/
def State.takeRaised (s : State) (r : Raised) : State :=
  let c := r.chan
  let code := r.codeWord
  let s := s.set64 (P.recEventsLo c) (s.get64 (P.recEventsLo c) + 1)
  let e := if r.user.isSome then none else s.recEntry code
  let sn : List U32 × Bool := match e with
    | some e => s.snapshots (s.recSlots e) r.vals
    | none => (r.vals.take 12, false)
  let key : Nat := match r.user, e with
    | some u, _ => u.2
    | none, some e => s.fld (tkey 0xB8C0 e 0) 11 0
    | none, none => 0
  let sev : Nat := match r.user with
    | some u => u.1
    | none => s.codeSev code
  let same : Option Rec := match s.lastRec c with
    | some l => if l.code == code && keyEqual key l.snaps sn.1 then some l else none
    | none => none
  let split := same.isSome
  let fold : Option Rec := match same with
    | some l =>
      let last := (r.tick - l.tick) / 8
      if l.repeats < 8191 ∧ last ≤ 524287 then some { l with repeats := l.repeats + 1, last := last } else none
    | none => none
  match fold with
  | some l => (s.setLastRec c l).inc (P.recRepeats c)
  | none =>
    let k := bucketKey c code
    let held : Nat := ((s.recorder.suppressed.find? fun (x : Nat × Nat) => x.1 == k).map (·.2)).getD 0
    let need := if held = 0 then 1 else 2
    let b := s.bucket c code
    if 1024 < s.recorder.queue.length + need then
      ((s.inc (P.recLost c)).setBit (P.recStatus c) 3 true).inc P.recLostTotal
    else if b.1 = 0 then
      let s := (s.inc (P.recSuppressed c)).setBit (P.recStatus c) 1 true
      (({ s with recorder.suppressed :=
          (s.recorder.suppressed.filter fun (x : Nat × Nat) => x.1 != k) ++ [(k, held + 1)] }).setBucket c code b).floodSums
    else
      let s := s.setBucket c code (b.1 - 1, b.2)
      let check := s.bit (P.recStatus c) 5
      let mk := fun (code : U16) (sn : List U32) (part : Bool) (sev : Nat) =>
        ({ code := code, check := check, partialBit := part, tick := r.tick, snaps := sn, last := 0, repeats := 0,
           sev := sev, safety := 0 } : Rec)
      let s := if held = 0 then s
        else
          let sc := BitVec.ofNat 16 (c * 4096 + 1)
          { s with recorder.suppressed := s.recorder.suppressed.filter fun (x : Nat × Nat) => x.1 != k }.queueRec c
            (mk sc [code.setWidth 32, w32 held] false (s.codeSev sc))
      let s := if split then s.inc P.recRepeatSplit else s
      (s.queueRec c (mk code sn.1 sn.2 sev)).floodSums

/-- Every event raised since the last boundary, in the order of ticks and of raising (R486, R487). (DEDUCED, log entry 9) -/
def State.admitAll (s : State) : State :=
  let l := sortBy (fun (r : Raised) => r.tick) s.recorder.raised
  ({ s with recorder.raised := [] }).each l State.takeRaised

/-! ### Writing (R482, R483, R487, R491, R497) -/

/-- The notice of a record to each mailbox that has subscribed to its channel (R446, R497). -/
def State.notify (s : State) (c n : Nat) (r : Rec) : State :=
  if r.sev < (s.word (P.recNotifySev c)).toNat then s
  else
    s.each (List.finRange 3) fun s m =>
      if !hasBit (s.recorder.subs.getD m 0) c then s
      else
        let mb : Fin 8 := ⟨m.val, by omega⟩
        if 16 ≤ (s.kpr.resps.filter fun x => x.mb == mb).length then (s.inc P.kprDropped).setBit P.kprStatus 9 true
        else (s.unsolicited mb 0x0B02 (leBytes 4 c ++ leBytes 8 n ++ r.bytes)).inc (P.recNotices c)

/-- The counts that follow from `NEXT` (R483, R500). -/
def State.recSums (s : State) (c : Nat) : State :=
  let next := s.get64 (P.recNextLo c)
  (s.set64 (P.recOldestLo c) (recOldest next)).setWord (P.recTwLaps c) (w32 ((next - 512) / 8192))

/-- The oldest queued record written (R487, R491). -/
def State.writeRec (s : State) : State :=
  match s.recorder.queue with
  | [] => s
  | (c, r) :: rest =>
    let n := s.recNext c
    let r := { r with safety := r.safetyFor n }
    let s := { s with recorder.queue := rest }.putRec c n r
    let s := (s.set64 (P.recNextLo c) (n + 1)).recSums c
    let s := s.maxWord (P.recWriteLat c) (satNat 32 ((s.evTick - r.tick) * 125))
    let s := s.when r.partialBit fun s => s.inc P.recPartialCnt
    let s := s.when (r.code.toNat % 4096 == 1) fun s => s.inc (P.recSummaries c)
    let s := if n < 512 then
        let s := s.setWord (P.recHwUsed c) (w32 (n + 1))
        if n = 511 then (s.setBit (P.recStatus c) 6 true).evFixed c (c * 4096 + 4) [] else s
      else s
    s.notify c n r

/-- `n` records written, as far as the queue goes. -/
def State.writeRecs (s : State) : Nat → State
  | 0 => s
  | n + 1 => s.writeRec.writeRecs n

/-- Step 7 of a housekeeping period, with what its time allows: of 256 or more queued records it writes at least 256 (R487). -/
def State.recStep (s : State) (time us : Nat) : State :=
  let n := if 256 ≤ s.recorder.queue.length then max 256 time else time
  (s.writeRecs n).maxWord P.recWriteMax us

/-! ### Opening, starting and checking (R482, R492, R493) -/

/-- The Headwaters open (R482). -/
def State.openHeadwater (s : State) : State :=
  let s := { s with recorder.slots := s.recorder.slots.filter fun (x : Nat × Rec) => decide (x.1 % 16384 < 512) }
  let s := s.each (List.range 8) fun s c =>
    let s := ((s.setBit (P.recStatus c) 7 true).set64 (P.recNextLo c) 0).set64 (P.recOldestLo c) 512
    s.setWord (P.recTwLaps c) 0
  s.set64 P.recHwOpenLo s.plant

/-- The recorder at a Keeper start (R487, R489, R492): what was queued is lost, buckets are full, and a record that was finished
before the reset is taken in. -/
def State.recStart (s : State) : State :=
  let s := { s with recorder := { s.recorder with
      raised := [], queue := [], buckets := [], suppressed := [], keeperStart := s.kpr.now, subs := [0, 0, 0] } }
  (s.each (List.range 8) fun s c =>
    let s := (s.setWord (P.recSubscribers c) 0)
    let n := s.recNext c
    if (s.recAt c n).validFor n then ((s.set64 (P.recNextLo c) (n + 1)).recSums c).inc P.recRecovered else s).floodSums

/-- The sequence numbers that a channel holds. -/
def State.heldSeqs (s : State) (c : Nat) : List Nat :=
  let next := s.recNext c
  let hw := if s.hwOpen c then List.range (min next 512) else []
  let lo := recOldest next
  hw ++ (List.range (next - lo)).map (lo + ·)

/-- Every record of every channel checked (R493). -/
def State.recScan (s : State) : State :=
  let s := s.each (List.range 8) fun s c =>
    s.each ((s.heldSeqs c).filter fun n => s.recHeld c n && !(s.recAt c n).validFor n) fun s n =>
      (((s.inc (P.recCheckFail c)).inc P.recScanFail).setBit (P.recStatus c) 2 true).evFixed c (c * 4096 + 2) [n]
  s.setWord P.recScanLast (s.word P.sysHours)

/-- A record whose stored words have changed in MRAM. -/
def State.recUpset (s : State) (c n : Nat) : State :=
  if s.recHeld c n then s.putRec c n { s.recAt c n with safety := ~~~ (s.recAt c n).safety } else s

end Sys2Proof.Machine
end

