-- ==== Sys2Proof/Machine/ResetOps.lean ====
section
/-!
DEFINITION. The shared operations of resets (R13 to R15, R350, R416 to R427): which reset is kept and recorded, and what a reset
of each scope leaves.
-/

namespace Sys2Proof.Machine

/-! ### The reset kept (R417, R418) -/

def ResetScope.code : ResetScope → Nat
  | .module => 1 | .mainDomain => 2 | .die _ => 3 | .package _ => 4 | .region _ => 5

def ResetScope.unit : ResetScope → Nat
  | .module | .mainDomain => 0
  | .die d => d.num
  | .package p => p.num
  | .region r => r

/-- Width of a scope: a smaller number is wider. -/
def ResetScope.width : ResetScope → Nat
  | .module => 0 | .mainDomain => 1 | .package _ => 2 | .die _ => 3 | .region _ => 4

/-- The order of R417 between sources of equal scope. -/
def ResetSrc.rank : ResetSrc → Nat
  | .por => 0 | .bor => 1 | .pin => 2 | .clkf => 3 | .lockup => 4 | .wdt => 5 | .dbg => 6 | .swr => 7

/-- A reset of the Keeper's die or package is one of the whole module (R416). -/
def ResetScope.norm : ResetScope → ResetScope
  | .die .keeper => .module
  | .package .keeper => .module
  | x => x

/-- Whether a scope includes the core die. -/
def ResetScope.core : ResetScope → Bool
  | .module | .mainDomain | .die .core | .package .main => true
  | _ => false

/-- The kept cause of the sources that assert within one reset (R417). -/
def keptReset (l : List (ResetSrc × ResetScope)) (d : ResetSrc × ResetScope) : ResetSrc × ResetScope :=
  l.foldl (fun a b => if b.2.width * 8 + b.1.rank < a.2.width * 8 + a.1.rank then b else a) d

/-- `SYS_RESET_CAUSE` (R418). -/
def causeWord (k : ResetSrc × ResetScope) (l : List (ResetSrc × ResetScope)) : U32 :=
  let srcs := l.foldl (fun m x => Nat.lor m (2 ^ (x.1.code - 1))) (2 ^ (k.1.code - 1))
  w32 (k.1.code * 2 ^ 28 + k.2.code * 2 ^ 24 + k.2.unit * 2 ^ 16 + srcs * 2 ^ 8)

/-- A reset's record on RC0 (R417), from `SYS_RESET_CAUSE`. -/
def State.resetRecord (s : State) : State :=
  let w := s.word P.sysResetCause
  s.ev 0 "RESET" [fieldOf w 31 28, fieldOf w 27 24, fieldOf w 23 16, fieldOf w 15 8]

/-! ### What each scope leaves -/

/-- Dies down, with the deferrals and failures of their clocks forgotten. -/
def State.diesDown (s : State) (ds : List Nat) : State :=
  let s := s.each ds fun s d => (s.setBit P.sysClock (8 + d) false)
  { s with sys := { s.sys with
      diesUp := ds.foldl (fun m d => Sys2Proof.setBit m d false) s.sys.diesUp
      deferred := s.sys.deferred.filter fun x => !ds.contains x.1 } }

/-- Release steps put back into the sequence (R424), each once and in order. -/
def State.addBoot (s : State) (steps : List Nat) : State :=
  { s with sys.boot := [1, 2, 3, 4, 5, 6].filter fun k => s.sys.boot.contains k || steps.contains k }

/-- A trunk port loses its calibration and what it had in progress (R14, R76, R425). (DEDUCED, log entry 38) -/
def State.portDown (s : State) (p : Nat) : State :=
  ((s.tdrAbort p).cuPortLost p).modPort p fun q => { q with calibrated := false, round := none }

/-- Region resets that a wider reset takes over (R426). -/
def SysS.openRegions (y : SysS) (rs : List Nat) : SysS :=
  { y with
    sluices := rs.foldl (fun m r => Sys2Proof.setBit m r false) y.sluices
    inits := rs.foldl (fun m r => Sys2Proof.setBit m r false) y.inits }

/-- The line die in reset: every port with it. (DEDUCED, log entry 38) -/
def State.lineReset (s : State) : State :=
  let s := s.each (List.range 16) State.portDown
  { s with sys := s.sys.openRegions [4, 5, 6, 7] }

/-- A field die in reset: its groups, with outputs off (R350). -/
def State.fieldReset (s : State) (d : Nat) : State :=
  let s := s.each ((List.range 6).filter fun g => groupDie g == d) State.groupReset
  { s with sys := s.sys.openRegions [2 * d + 4, 2 * d + 5] }

/-- Requests that the main domain was carrying out end as aborted (R443, R452). -/
def State.abortMain (s : State) : State :=
  let s := s.each (s.kpr.reqs.filter fun r => r.background && decide (0x300 ≤ r.opcode ∧ r.opcode < 0xB00)) fun s r =>
    s.respond r.rq r.opcode St.aborted 0 []
  let s := s.each s.kpr.staged fun s c => match c.rq with
    | some rq => s.respond rq c.opcode St.aborted 0 []
    | none => s
  let s := s.each s.kpr.relays fun s r => s.respond r.rq r.opcode St.aborted 0 []
  { s with kpr := { s.kpr with staged := [], relays := [] } }

/-- Words that a reset of the core die puts back to their defaults: the status words that it holds, the staged and current force
tables, the trunk queues. Configuration, counters and flags that software clears are kept (log entry 16). (DEDUCED, log entry 16) -/
def State.coreWords (s : State) : State :=
  let s := s.keepWords fun k =>
    if k < 2 ^ 16 then
      !([0x1005, 0x1009, P.replayStatus, P.prgForceCount, P.prgStatus, P.prgLateVector].contains k ||
        (decide (0x2000 ≤ k ∧ k < 0x3000) && [0x03, 0x18, 0x19, 0x1A, 0x29, 0x2A].contains (k % 0x100)))
    else
      let tid := (k - 2 ^ 32) / 2 ^ 20
      !([0x40C2, 0x40C5].contains tid || (decide (0xC0C0 ≤ tid) && decide (tid < 0xD000) && tid % 0x100 = 0xC0) ||
        (decide (0x20C0 ≤ tid ∧ tid < 0x3000) && [0xC6, 0xC7].contains (tid % 0x100)))
  let s := s.each (List.range 16) fun s n => (s.setBit (P.guardStatus n) 15 false).setWord (P.guardGen n) 0
  let s := s.setFld P.timeStatus 31 2 0
  let s := (((s.setFld P.syncStatus 31 28 0).setFld P.syncStatus 14 13 0).setBit P.syncStatus 16 false).setFld P.syncStatus 10 8 0
  let s := (s.setFld P.pairStatus 25 22 0).setBit P.pairStatus 18 false
  s.each (List.range 16) fun s p =>
    let st := s.word (P.schedStatus p)
    let s := s.setWord (P.schedStatus p) (st &&& 0x81E0#32)
    let tr := s.word (P.trkStatus p)
    let s := s.setWord (P.trkStatus p) (tr &&& 0x10#32)
    let s := s.setWord (tkey 0x60C1 p 0) 0
    s.each (match (s.port p).cur with
      | some c => c.addrs
      | none => []) fun s a => s.setFld (stKey p a 0) 31 20 0x300

/-- The journal entries that a reset leaves for the next restart to record (R427), by their row of that table. -/
def State.journalOf (s : State) : List (Nat × Nat) :=
  let put (c : Bool) (k : Nat) : List (Nat × Nat) := if c then [(k, 0)] else []
  put (s.bit P.imgStatus 10) 2 ++ put (s.bit P.imgStatus 15) 3 ++ put s.sync.resync.isSome 4 ++
    put (decide (3 ≤ s.chgPhase ∧ s.chgPhase ≤ 6)) 5 ++ put ((List.range 16).any s.stnRunning) 6 ++
    put s.prog.retainBusy.isSome 7 ++ put s.gauge.copying.isSome 8 ++ put (s.bit P.sysParamStatus 15) 9

/-- What the core die holds, as it begins afresh; `held` forces were in force. -/
def State.coreFresh (s : State) (held : Nat) : State :=
  let g := s.prog
  { s with
    pm := []
    prog := { ProgS.fresh with
      package := g.package, hash := g.hash, retainMark := g.retainMark, retainGen := g.retainGen, heldForces := held }
    loop := LoopS.fresh
    replay := ReplayS.fresh
    eps := List.replicate 4 EpS.fresh
    ports := s.ports.map fun q => { PortS.fresh with cur := q.cur }
    sync := { SyncS.fresh with abandons := s.sync.abandons, retryAt := s.sync.retryAt }
    pair := { PairS.fresh with saved := s.pair.saved, high := s.pair.saved, withdrawn03 := s.pair.withdrawn03 }
    time := { s.time with
      offset := 0, anchor := 0, rate := 0, rateReq := none, stepReq := none, gm := none, alignRun := 0 }
    sys := { s.sys.openRegions [0, 1, 2, 3, 4, 5, 6, 7, 12, 13] with uptimeMs := 0, leverTook := false, bootFail := false } }

/-- The core die in reset (R223, R309, R391, R427): everything that it holds begins afresh. (DEDUCED, log entry 16) -/
def State.coreReset (s : State) : State :=
  let held := if s.sys.mode.run then (s.word P.prgForceCount).toNat else s.prog.heldForces
  let s := { s with kpr.journal := s.kpr.journal ++ s.journalOf }
  let s := (s.inc P.sysResetCnt).cuDropAll 7
  let s := { s with sys.pending := none }.refusePending
  let s := (s.enterMode .boot 0).clearPairWork.chgReset.gaugeLose.resyncDrop 8
  let s := s.abortMain.freshTasks.stopLoops.coreWords
  let s := s.each (List.range 16) fun s p => s.stnHalt p
  s.coreFresh held

/-- What the Keeper holds, as it begins afresh. -/
def State.keeperFresh (s : State) : State :=
  let k := s.kpr
  { s with
    kpr := { KprS.fresh with
      now := k.now, ownerKey := k.ownerKey, revoked := k.revoked, hourMs := k.hourMs, journal := k.journal, life := k.lifeSaved,
      lifeSaved := k.lifeSaved }
    img := { s.img with xfers := [], cleanSince := none }
    recorder := { s.recorder with raised := [], queue := [], subs := [0, 0, 0] }
    sys := { s.sys with keeperUp := false, lamps := Lamps.off } }

/-- The Keeper in reset (R415, R447, R487, R523): sessions, requests, open transfers and its timers end. The keys and revocations
of its store stay. -/
def State.keeperReset (s : State) : State :=
  (s.each (List.range 32) fun s i => s.setWord (0xF020 + i) (dfltWord (0xF020 + i))).keeperFresh

/-- The effect of a reset of one scope. Those whose scope includes the core die come through BOOT (R416, R424). -/
def State.scopeReset (s : State) (sc : ResetScope) : State :=
  let fields := fun (s : State) => ((s.fieldReset 2).fieldReset 3)
  match sc with
  | .region _ => s
  | .die .core => (s.coreReset.lineReset.diesDown [0]).addBoot [1, 2, 3, 4]
  | .die .line => (s.lineReset.diesDown [1]).addBoot [5]
  | .die .fd0 => ((s.fieldReset 2).diesDown [2]).addBoot [6]
  | .die .fd1 => ((s.fieldReset 3).diesDown [3]).addBoot [6]
  | .package .main => (s.coreReset.lineReset.diesDown [0, 1]).addBoot [1, 2, 3, 4, 5]
  | .package .field => ((fields s).diesDown [2, 3]).addBoot [6]
  | .mainDomain => ((fields s.coreReset.lineReset).diesDown [0, 1, 2, 3]).addBoot [1, 2, 3, 4, 5, 6]
  | .module | .die .keeper | .package .keeper =>
    ((fields s.coreReset.lineReset).keeperReset.diesDown [0, 1, 2, 3]).addBoot [1, 2, 3, 4, 5, 6]

/-- A reset with every source that asserts in it (R416, R417). -/
def State.reset1 (s : State) (src : ResetSrc) (sc : ResetScope) (others : List (ResetSrc × ResetScope)) : State :=
  let l := (others.map fun x => (x.1, x.2.norm))
  let me : ResetSrc × ResetScope := (src, sc.norm)
  let kept := keptReset l me
  let s := s.setWord P.sysResetCause (causeWord kept (me :: l))
  let all := sortBy (fun (x : ResetSrc × ResetScope) => x.2.width) (me :: l)
  let scopes := (all.map (·.2)).eraseDups
  if scopes.any (· == ResetScope.module) then s.scopeReset .module
  else (s.each scopes State.scopeReset).resetRecord

end Sys2Proof.Machine
end

