-- ==== Sys2Proof/Machine/Resets.lean ====
section
/-!
DEFINITION. Resets and BOOT (files 01, 14 and 21): the eight sources, clocks, the Keeper's release, the release order, the end of
BOOT, and regions reset alone.
-/

namespace Sys2Proof.Machine

/-! ### Regions reset alone (R15, R425, R426) -/

/-- Whether a region's die is released. -/
def State.regionUp (s : State) (r : Nat) : Bool :=
  hasBit s.sys.diesUp (if r < 4 then 0 else if r < 8 then 1 else if r < 10 then 2 else if r < 12 then 3 else 0)

/-- The ports of a trunk quad's region. -/
def quadPorts (r : Nat) : List Nat := (List.range 4).map (4 * (r - 4) + ·)

/-- A region's reset is accepted (R425): its Sluice closes, and what it held is lost. A second request is absorbed (R426). -/
def State.regionClose (s : State) (r : Fin 14) (src : ResetSrc) : State :=
  if hasBit s.sys.sluices r || !s.regionUp r then s
  else
    let k : ResetSrc × ResetScope := (src, .region r)
    let s := (s.setWord P.sysResetCause (causeWord k [k])).resetRecord
    let s := { s with sys.sluices := Sys2Proof.setBit s.sys.sluices r true }
    if r.val < 4 then
      let s := { s with eps := s.eps.set r EpS.fresh, prog.running := s.prog.running.set r none }
      if s.sys.mode.run then s.decideWithdraw 0x0A else s
    else if r.val < 8 then s.each (quadPorts r) State.portDown
    else if r.val < 12 then s.each ((List.range 6).filter fun g => groupRegion g == r.val) State.groupReset
    else if r.val = 12 then (if s.sys.mode.run then s.decideWithdraw 0x0A else s)
    else s.cuDropAll 7

/-- REGION_RESET (R425): by the region's own watchdog, by command, or by the debugger. -/
def execRegionReset (r : Fin 14) (src : ResetSrc) (s : State) : Res :=
  .next <| match src with
    | .wdt => s.regionClose r .wdt
    | .swr => s.regionClose r .swr
    | .dbg => s.regionClose r .dbg
    | _ => s

/-- REGION_RELEASE (R421, R425): after 64 cycles of the region's clock its initialisation starts. -/
def execRegionRelease (r : Fin 14) (s : State) : Res :=
  .next <|
    if hasBit s.sys.sluices r then { s with sys.inits := Sys2Proof.setBit s.sys.inits r true } else s

/-- The comparator test failed (R325): `PROOF_PENDING` clears (R327). -/
def State.testFailed (s : State) (eps : Nat) : State :=
  let s := ((s.setBit P.chkStatus 15 false).setBit P.chkStatus 14 true).setFld P.chkStatus 23 20 eps
  { s.ev 0 "COMPARATOR_TEST_FAIL" [eps] with sys.proofPending := false }

/-- A port calibrated in full, or not (R76). -/
def State.calibrate (s : State) (p : Nat) (fail : Bool) : State :=
  let s := (s.setBit (P.trkStatus p) 3 fail).modPort p fun q => { q with calibrated := !fail }
  if fail then (s.ev 1 "CAL_FAIL" [p]).cuPortLost p else s

/-- REGION_INIT_DONE (R425): `fail`: an EP's comparator test failed, or the ports of a quad, by their bits, whose calibration failed;
`volts`: the supply of each group, in 10 mV. (DEDUCED, log entry 52) -/
def execRegionInitDone (r : Fin 14) (fail : Fin 16) (volts : List Nat) (s : State) : Res :=
  .next <|
    if !hasBit s.sys.inits r then s
    else
      let s :=
        if r.val < 4 then
          (if fail = 0 ∨ hasBit s.sys.split r then s
           else ((s.testFailed (2 ^ r.val)).dropPending).enterMode .faultSafe 1)
        else if r.val < 8 then s.each (quadPorts r) fun s p => s.calibrate p (hasBit fail (p % 4))
        else if r.val < 12 then
          s.each ((List.range 6).filter fun g => groupRegion g == r.val) fun s g => s.groupStart g (volts.getD g 0)
        else if r.val = 12 then s.stopLoops
        else s
      { s with sys := s.sys.openRegions [r] }.ev 0 "SLUICE_OPENED" [r]

/-! ### Reset sources (R416 to R418) -/

/-- RESET_POR (R416). `others` are the sources that assert within the same reset. -/
def execResetPor (others : List (ResetSrc × ResetScope)) (s : State) : Res :=
  .next <| (s.reset1 .por .module others).inc P.sysPowerCycles

/-- RESET_BOR (R14, R416, R562). -/
def execResetBor (p : Pkg) (others : List (ResetSrc × ResetScope)) (s : State) : Res :=
  .next <| s.reset1 .bor (.package p) others

/-- RESET_PIN (R416): `RESET_N` low for `lowNs`. Of 1 to 10 µs it is open whether the pulse is taken. -/
def execResetPin (lowNs : Nat) (others : List (ResetSrc × ResetScope)) (s : State) : Res :=
  .next <|
    if lowNs < 1000 then s
    else if 10000 ≤ lowNs then s.reset1 .pin .module others
    else
      let s' := { s with free := s.free + 1 }
      if Config.freeBit s.free 0 then s'.reset1 .pin .module others else s'

/-- RESET_WDT (R416, R435): the whole module, the main domain, or one region. -/
def execResetWdt (sc : ResetScope) (others : List (ResetSrc × ResetScope)) (s : State) : Res :=
  .next <| match sc with
    | .module => s.reset1 .wdt .module others
    | .mainDomain => s.reset1 .wdt .mainDomain others
    | .region r => s.regionClose r .wdt
    | _ => s

/-- RESET_SWR (R416): the restart that waits, once the module has withdrawn from any role. -/
def execResetSwr (others : List (ResetSrc × ResetScope)) (s : State) : Res :=
  .next <| match s.kpr.restart with
    | none => s
    | some k =>
      if s.pair.withdrawing.isSome then s
      else { s with kpr.restart := none }.reset1 .swr (if k = 0 then .mainDomain else .module) others

/-- RESET_CLKF (R416, R422): the die is held in reset. -/
def execResetClkf (d : Die) (others : List (ResetSrc × ResetScope)) (s : State) : Res :=
  .next <| (s.reset1 .clkf (.die d) others).setBit P.sysClock d.num true

/-- RESET_LOCKUP (R416): an EP's cores, or the Keeper's processor. -/
def execResetLockup (ep : Option (Fin 4)) (others : List (ResetSrc × ResetScope)) (s : State) : Res :=
  .next <| s.reset1 .lockup (if ep.isSome then .mainDomain else .module) others

/-! ### The release order (R421 to R424) -/

/-- The dies that a step of R424 releases and that are still down. -/
def State.stepDies (s : State) (k : Nat) : List Nat :=
  let ds := match k with
    | 2 => [0] | 5 => [1] | 6 => [2, 3] | _ => []
  ds.filter fun d => !hasBit s.sys.diesUp d

/-- A release held pending for clock stability (R422). -/
def State.defer (s : State) (d : Nat) : State :=
  { s.setBit P.sysClock (8 + d) true with
    sys.deferred := (s.sys.deferred.filter fun x => x.1 != d) ++ [(d, s.kpr.now)] }

/-- A die's deferral, and its clock failure, over. -/
def State.undefer (s : State) (d : Nat) : State :=
  { (s.setBit P.sysClock (8 + d) false).setBit P.sysClock d false with sys.deferred := s.sys.deferred.filter fun x => x.1 != d }

/-- The comparator test of step 4 (R324, R325); with every EP split, none is tested. -/
def State.comparatorTest (s : State) (r : StepRes) : State :=
  let failed := (List.range 4).foldl (fun m n => if hasBit r.epFail n && !hasBit s.sys.split n then m + 2 ^ n else m) 0
  let s := ((s.setBit P.chkStatus 15 false).setBit P.chkStatus 14 false).setFld P.chkStatus 23 20 0
  if s.sys.split = 15 then s
  else if failed = 0 then
    let s := (s.setBit P.chkStatus 15 true).setBit P.chkStatus 13 false
    ((s.set64 P.chkTestTimeLo s.plant).setWord P.chkTestDuration (w32 r.duration)).setWord P.chkProofAge 0
  else { (s.setWord P.chkTestDuration (w32 r.duration)).testFailed failed with sys.bootFail := true }

/-- The core die released: its time unit is loaded from the Keeper's copy (R30, R35), and its memories are new. -/
def State.coreRelease (s : State) (raw : Nat) : State :=
  let s := s.keepDram fun a => decide (0x1380000000 ≤ a)
  { s with
    sys.diesUp := Sys2Proof.setBit s.sys.diesUp 0 true
    acq.segs := []
    time := { s.time with
      raw := raw, anchor := raw, offset := (s.time.keeper : Int) - raw, rate := 0, tick := s.time.keeper / 125000 } }

/-- What the completion of a step brings. (DEDUCED, log entry 52) -/
def State.stepDone (s : State) (k : Nat) (r : StepRes) : State :=
  match k with
  | 1 =>
    let s := (s.setFld P.sysClock 7 6 (strapCode s.sys.clksel)).setBit P.sysClock 5 false
    if s.bit P.imgStatus 15 && !r.convertOk then s.planFallBack 4 else s
  | 2 => s.coreRelease r.raw
  | 3 =>
    let s := s.applyRestart
    { s with sys.split := s.fld P.chkSplitCfg 3 0 }.guardLoad
  | 4 => s.comparatorTest r
  | 5 =>
    let s := { s with sys.diesUp := Sys2Proof.setBit s.sys.diesUp 1 true }
    s.each (List.range 16) fun s p => s.calibrate p (hasBit r.calFail p)
  | _ =>
    let ds := s.stepDies 6
    let s := { s with sys.diesUp := ds.foldl (fun m d => Sys2Proof.setBit m d true) s.sys.diesUp }
    s.each ((List.range 6).filter fun g => ds.contains (groupDie g)) fun s g => s.groupStart g (r.volts.getD g 0)

/-- One step of the release order, with what it brought (R422, R424): a step of a die whose clock is not stable is held pending, and
a step that fails stops the sequence. -/
def State.bootStep (s : State) (r : StepRes) : State :=
  match s.sys.boot with
  | [] => s
  | k :: rest =>
    if !s.sys.keeperUp || !s.sys.mains || s.sys.bootFail || s.bit P.imgStatus 10 then s
    else
      let wait := (s.stepDies k).filter fun d => s.bit P.sysClock d || (r.unstable.map Die.num).contains d
      if wait ≠ [] then s.each wait State.defer
      else if !r.ok then
        { s.ev 0 "BOOT_STEP_FAIL" [k] with sys.bootFail := s.sys.mode == .boot, sys.boot := [] }
      else
        let s := s.stepDone k r
        { s with sys.boot := if s.sys.bootFail then [] else rest }

/-- BOOT_RELEASE_STEP (R424). -/
def execBootReleaseStep (r : StepRes) (s : State) : Res := .next <| s.bootStep r

/-- DEFERRED_RELEASE (R422): the clock has been stable for 1 ms; the step that waited goes on. -/
def execDeferredRelease (d : Die) (r : StepRes) (s : State) : Res :=
  .next <| if s.sys.deferred.any fun x => x.1 == d.num then (s.undefer d.num).bootStep r else s

/-- DEFERRED_RELEASE_TIMEOUT (R422): after 100 ms the deferral becomes a clock failure of the die, which stays in reset. (DEDUCED, log entry 52) -/
def execDeferredReleaseTimeout (d : Die) (s : State) : Res :=
  .next <|
    if s.sys.deferred.any fun x => x.1 == d.num && decide (x.2 + 100 ≤ s.kpr.now) then
      let k : ResetSrc × ResetScope := (.clkf, .die d)
      (((s.undefer d.num).setBit P.sysClock d.num true).setWord P.sysResetCause (causeWord k [k])).resetRecord
    else s

/-- CLKF_RELEASE_RETRY (R422): the release is requested again; it waits where the clock is not stable. -/
def execClkfReleaseRetry (d : Die) (r : StepRes) (s : State) : Res :=
  .next <|
    if !s.bit P.sysClock d.num then s
    else if r.unstable.contains d then s.defer d.num
    else (s.undefer d.num).bootStep r

/-- CLK_FALLBACK (R420). -/
def execClkFallback (s : State) : Res :=
  .next <|
    if s.fld P.sysClock 7 6 = 0 || s.sys.boot.contains 1 then s
    else ((s.setBit P.sysClock 5 true).setFld P.sysClock 7 6 0).ev 0 "CLK_FALLBACK" [strapCode s.sys.clksel]

/-! ### The Keeper's release, and the end of BOOT (R411, R415, R419, R427, R564) -/

/-- KEEPER_DOMAIN_RELEASE (R35, R415, R417, R419, R526, R564). Straps and the slot pin are latched after POR or PIN alone. (DEDUCED, log entry 99) -/
def execKeeperDomainRelease (k : KeeperStart) (s : State) : Res :=
  .next <|
    if s.sys.keeperUp then s
    else
      let src := s.fld P.sysResetCause 31 28
      let latch := src == 1 || src == 3
      let y := { s.sys with
        keeperUp := true, mateOpen := false, leverOut := k.leverOut, bootselPin := k.bootsel, clkselPin := k.clksel }
      let y := if latch then
          { y with bootsel := k.bootsel, clksel := k.clksel, posB := k.posB, carrier := k.carrier, lampTestUntil := s.kpr.now + 500 }
        else y
      let s := { s with sys := y, time.keeper := s.time.saved }
      let s := s.recStart.resetRecord
      let s := s.when (k.journalCut && s.restartList != []) fun s =>
        ((s.setRestart s.restartList.dropLast).setBit P.sysParamStatus 13 true).ev 0 "JOURNAL_FAIL" []
      if s.bit P.imgStatus 10 then s else s.chooseBank k.bankOk false

/-- The channel of a row of R427, beside RC0. -/
def journalChan (row : Nat) : Nat :=
  match row with
  | 4 => 3 | 5 => 2 | 7 => 2 | 8 => 0 | 9 => 0 | _ => 6

/-- The outcomes of operations that a reset interrupted, written at the restart that finds them (R427). -/
def State.writeJournal (s : State) : State :=
  let s := s.each s.kpr.journal fun s x =>
    let s := s.ev 0 "INTERRUPTED" [x.1]
    if journalChan x.1 = 0 then s else s.ev (journalChan x.1) "INTERRUPTED" [x.1]
  { s with kpr.journal := [] }

/-- BOOT_END (R325, R411, R564). -/
def execBootEnd (s : State) : Res :=
  .next <|
    if s.sys.mode != .boot || !s.sys.keeperUp || s.sys.boot != [] then s
    else
      let s := { s with sys.bootEndAt := s.plant }.writeJournal
      let wanted := s.sys.proofPending || s.word P.sysBootTarget == 1#32
      let able := s.sys.prgValid && s.sys.cfgValid && s.sys.split == 0
      if s.sys.bootFail then s.enterMode .faultSafe 0
      else if s.sys.toUpdate then s.enterMode .update 0
      else if s.sys.leverOut then { s with sys.leverTook := true }.enterMode .hold 0
      else if wanted && able then s.enterMode .listen 0
      else if wanted then ({ s with sys.proofPending := false }.ev 0 "BOOT_TARGET_MISSED" []).enterMode .hold 0
      else s.enterMode .hold 0

/-! ### Mating, mains and the lever (R268, R562, R566) -/

/-- MATE_BREAK (R566). -/
def execMateBreak (s : State) : Res :=
  .next <|
    let s := { s with sys.mateOpen := true }
    match s.sys.mode with
    | .hold | .faultSafe | .boot => s
    | _ => s.hardWithdraw 9 .hold

/-- MAINS_LOSS (R562): the brown-outs that follow are RESET_BOR. -/
def execMainsLoss (s : State) : Res := .next { s with sys.mains := false }

/-- MAINS_RETURN (R562): the main domain restarts through BOOT. -/
def execMainsReturn (s : State) : Res := .next { s with sys.mains := true }

/-- The lever takes the module to HOLD (R268). (DEDUCED, log entry 53) -/
def State.leverHold (s : State) : State := { s with sys.leverTook := true }.pend .hold .lever

/-- SWAP_LEVER_OUT (R268). (DEDUCED, log entry 53) -/
def execSwapLeverOut (s : State) : Res :=
  .next <|
    if s.sys.leverOut || !s.sys.keeperUp then s
    else
    let s := { s with sys.leverOut := true, kpr.life.leverOuts := s.kpr.life.leverOuts + 1 }
    let alone := fun (s : State) => (s.setBit P.pairStatus 20 true).ev 3 "SWAP_REFUSED" []
    if !s.sys.mains then s
    else match s.sys.mode with
      | .lead =>
        if s.pair.partner != .trail then alone s
        else
          let s := { s with sys.leverTook := true, pair.afterHandover := some 9 }
          if s.pair.handover.isSome then s
          else if s.mayHandover then { s.startHandover true with pair.afterHandover := some 9 }
          else { s with pair.waitHandover := some true }
      | .standalone => alone s
      | .trail =>
        let s := { s with sys.leverTook := true }
        match s.pair.withdrawing with
        | some c => ({ s with pair.withdrawing := some 9 }.control 0x01 9 0 (s.time.tick + 1)).ev 0 "MODE_CAUSE_DROPPED" [c]
        | none => s.decideWithdraw 9
      | .listen | .resync | .commission | .service | .replay => s.leverHold
      | .update => if s.img.activating then s else s.leverHold
      | .hold => s.dropPending
      | .boot | .faultSafe => s

/-- SWAP_LEVER_IN (R268, R411): the refusal clears, and a module that the lever took to HOLD rejoins where it can. (DEDUCED, log entry 53) -/
def execSwapLeverIn (s : State) : Res :=
  .next <|
    if !s.sys.leverOut || !s.sys.keeperUp then s
    else
    let s := { s.setBit P.pairStatus 20 false with sys.leverOut := false, sys.leverInAt := some s.kpr.now }
    if s.sys.mode == .hold && s.sys.leverTook then
      let s := { s with sys.leverTook := false }
      if s.sys.prgValid && s.sys.cfgValid && s.kpr.ownerKey.isSome && s.sys.split == 0 then s.pend .listen .lever else s
    else s

end Sys2Proof.Machine
end

