-- ==== Sys2Proof/Machine/Modes.lean ====
section
/-!
DEFINITION. Mode requests, transitions and restarts by command (file 14).
-/

namespace Sys2Proof.Machine

/-- A request from MB1 while a session on MB0 is open is limited (R438). -/
def State.mb1Limited (s : State) (rq : Rq) : Bool := rq.mb == 1 && s.kpr.sessions.any fun x => x.mb == 0

/-- A request accepted: the transition is pending, and answered when it takes effect (R412, R443). -/
def State.pendRequest (s : State) (rq : Rq) (op : Nat) (m : Mode) : State :=
  { s with sys := { s.sys with pending := some (m, .request), pendingRq := some (rq, op) } }

/-- A request that withdraws a running module with cause 0x0B (R249, R411). -/
def State.withdrawFor (s : State) (rq : Rq) (m : Mode) : State :=
  { s with sys := { s.sys with pending := some (m, .withdrawal 0x0B), pendingRq := some (rq, 0x0201) } }

/-- MODE_TRANSITION (R412, R413): a pending transition takes effect at the tick boundary. One that a withdrawal carries waits for it;
a lever prevails over a withdrawal, and a withdrawal over a request. (DEDUCED, log entry 37) -/
def execModeTransition (s : State) : Res :=
  .next <| match s.sys.pending with
    | none => s
    | some (_, .withdrawal _) => s
    | some (m, c) =>
      if s.pair.withdrawing.isSome && decide (4 < c.rank) then s.dropPending
      else
        let s := match s.pair.withdrawing with
          | some w => { s with pair.withdrawing := none }.ev 0 "MODE_CAUSE_DROPPED" [w]
          | none => s
        let rq := s.sys.pendingRq
        let s := { s with sys := { s.sys with pending := none, pendingRq := none } }
        let s := if m == .commission then s.takeClaim (s.highest + 2) else s
        let s := s.enterMode m c.code
        match rq with
        | some (rq, op) => s.respond rq op St.ok 0 (leBytes 8 s.time.tick)
        | none => s

/-- Whether the module may run: a program and a configuration that are valid, and no EP split (R411). -/
def State.mayRun (s : State) : Bool := s.sys.prgValid && s.sys.cfgValid && s.sys.split == 0

/-- A module in another carrier does not run (R556): refused, with an event. (DEDUCED, log entry 93) -/
def State.wrongCarrier (s : State) (rq : Rq) (op : Nat) : State :=
  (s.ev 0 "WRONG_CARRIER" [s.sys.carrier]).respond rq op St.wrongMode 0 []

/-- MODE_RUN (R248, R411, R412, R438, R556): to LISTEN, or in LISTEN the leave to enter STANDALONE. (DEDUCED, log entry 93) -/
def execModeRun (rq : Rq) (s : State) : Res :=
  .next <| s.cmd rq 0x0200 [0, 1] false (s.sys.mode == .hold || s.sys.mode == .service || s.sys.mode == .listen) fun s =>
    if s.mb1Limited rq then s.respond rq 0x0200 St.notPermitted 0 []
    else if s.sys.pending.isSome then s.respond rq 0x0200 St.busy 0 []
    else if s.sys.carrier != 0x12 then s.wrongCarrier rq 0x0200
    else if !s.mayRun then s.respond rq 0x0200 St.refused 0 []
    else if s.sys.mode == .listen then
      { s with sys.runStanding := true }.respond rq 0x0200 St.ok 0 (leBytes 8 (s.time.tick + 1))
    else s.pendRequest rq 0x0200 .listen

/-- The transitions of R411 that `MODE_REQUEST` names, from the current mode; those that are listed but whose condition fails
are in it. -/
def Mode.listed (o m : Mode) : Bool :=
  match o, m with
  | .hold, .commission | .hold, .service | .hold, .replay | .hold, .update | .service, .replay | .service, .update => true
  | .commission, .hold | .service, .hold | .replay, .hold | .listen, .hold | .resync, .hold | .update, .hold => true
  | .resync, .update => true
  | .standalone, .service | .standalone, .replay | .standalone, .update => true
  | .lead, .service | .lead, .replay | .lead, .update | .trail, .service | .trail, .replay | .trail, .update => true
  | _, _ => false

/-- The module emits alone (R530). -/
def State.soleEmitter (s : State) : Bool :=
  (s.sys.mode == .standalone && !s.convertedReady) || (s.sys.mode == .lead && s.pair.partner != .trail)

/-- The condition of a listed transition (R410, R411). (DEDUCED, log entry 46) -/
def State.modeCondition (s : State) (m : Mode) : Bool :=
  match s.sys.mode, m with
  | .hold, .commission => s.alone && s.sys.cfgValid && s.sys.split == 0
  | .update, .hold => !s.img.activating
  | .lead, .update => s.mayHandover
  | _, _ => true

/-- `MODE_REQUEST` UPDATE accepted (R266, R412, R530): UPD is in progress from now. (DEDUCED, log entry 46) -/
def State.acceptUpdate (s : State) (rq : Rq) : State :=
  let s := { s with maint.upd := true }
  match s.sys.mode with
  | .lead | .standalone => { (s.withdrawFor rq .update).startHandover false with pair.afterHandover := some 0x0B }
  | .trail => (s.withdrawFor rq .update).decideWithdraw 0x0B
  | _ => s.pendRequest rq 0x0201 .update

/-- MODE_REQUEST (R410 to R413, R438, R530, R547). A trail asks its lead before it leaves for UPDATE. (DEDUCED, log entry 93) -/
def execModeRequest (rq : Rq) (n : U8) (s : State) : Res :=
  .next <| s.cmd rq 0x0201 (if n = 10 then [0, 1, 6] else [0, 1]) false true fun s =>
    match Mode.ofNum n.toNat with
    | none => s.respond rq 0x0201 St.outOfRange 0 []
    | some m =>
      if s.mb1Limited rq then s.respond rq 0x0201 St.notPermitted 0 []
      else if s.sys.pending.isSome then s.respond rq 0x0201 St.busy 0 []
      else if !s.sys.mode.listed m || (m == .update && s.soleEmitter) then s.respond rq 0x0201 St.wrongMode 0 []
      else if m == .commission && s.sys.carrier != 0x12 then s.wrongCarrier rq 0x0201
      else if !s.modeCondition m || s.pair.withdrawing.isSome then s.respond rq 0x0201 St.refused 0 []
      else if m == .update then
        if hasBit s.maint.partner 15 then s.refuseConflict rq 0x0201 0 2
        else s.starting rq 0x0201 2 0 none fun s =>
          if s.sys.mode == .trail then s.relay rq 0x0201 [10, 0, 0, 0] else s.acceptUpdate rq
      else if s.sys.mode.run then (s.withdrawFor rq m).decideWithdraw 0x0B
      else
        let s := if s.sys.mode == .update then { s with maint.upd := s.bit P.imgStatus 15 } else s
        s.pendRequest rq 0x0201 m

/-- SYS_RESTART (R416, R453): the reset follows the response. -/
def execSysRestart (rq : Rq) (scope : U32) (s : State) : Res :=
  .next <| s.cmd rq 0x0202 [0, 1] false
    (match s.sys.mode with
      | .hold | .service | .update | .faultSafe | .listen => true
      | _ => false) fun s =>
      if 1 < scope.toNat then s.respond rq 0x0202 St.outOfRange 0 []
      else (s.respond rq 0x0202 St.ok 0 []).planRestart scope.toNat

/-- SYS_REGION_RESET (R425, R453). -/
def execSysRegionReset (rq : Rq) (r : U8) (s : State) : Res :=
  .next <| s.cmd rq 0x0203 [0, 1] true (s.sys.mode != .boot && s.sys.mode != .update) fun s =>
    if h : r.toNat < 14 then (s.respond rq 0x0203 St.ok 0 []).regionClose ⟨r.toNat, h⟩ .swr
    else s.respond rq 0x0203 St.outOfRange 0 []

end Sys2Proof.Machine
end

