-- ==== Sys2Proof/Machine/Lockstep.lean ====
section
/-!
DEFINITION. Lockstep checking, proof restarts and debug (file 11): mismatches and tick-end digests, the fault record, and the debugger's
access to the EPs.
-/

namespace Sys2Proof.Machine

/-! ### Mismatches (R316 to R322, R335) -/

/-- One mismatch as the comparators report it (R315, R335): EP, lane, address of the access, and main value XOR checker value. -/
abbrev Mismatch : Type := Fin 4 × Fin 8 × U64 × U64

/-- An entry of `CHK_FAULT` (R335). -/
def State.faultEntry (s : State) (m : Mismatch) : List U32 :=
  let addr := if m.2.1.val < 5 then m.2.2.1.toNat else 0
  let dbg := s.kpr.sessions.any fun x => x.mb == 5
  let w0 := withField (withField (withField 0 31 30 m.1) 29 27 m.2.1) 26 26 1
  let w0 := withField (withField (withField w0 25 25 dbg.toNat) 24 21 s.sys.mode.num) 15 0 (addr / 2 ^ 32)
  [w0, w32 addr, lo32 m.2.2.2.toNat, hi32 m.2.2.2.toNat, lo32 s.tickStart, hi32 s.tickStart, lo32 s.time.tick, hi32 s.time.tick]

/-- The mismatch that the record holds: the lowest EP, and within it the lowest lane (R322). -/
def firstMismatch (l : List Mismatch) : Option Mismatch := (sortBy (fun m : Mismatch => 8 * m.1.val + m.2.1.val) l).head?

/-- Mismatches of one cycle (R320, R322): one record, one withdrawal, all counted. What a split EP's cores report withdraws nothing
(R329). -/
def State.mismatch (s : State) (l : List Mismatch) : State :=
  let split := l.filter fun m => hasBit s.sys.split m.1
  let s := s.each split fun s m => s.ev 0 "SPLIT_CORE_ERROR" [m.1, m.2.1]
  let l := l.filter fun m => !hasBit s.sys.split m.1
  match firstMismatch l with
  | none => s
  | some m =>
    let e := s.faultEntry m
    let key (i : Nat) : Nat := tkey 0x70C0 i 0
    let s := if s.bit (key 0) 26 then s else s.setWords (key 0) e
    let s := ((s.setWords (key 1) e).setBit P.chkStatus 9 true).incBy P.chkMismatchCnt l.length
    (s.ev 0 "LOCKSTEP_MISMATCH" [m.1, m.2.1]).hardWithdraw 1 .faultSafe

/-- LOCKSTEP_MISMATCH (R316, R320): the comparators of the EPs report a difference. -/
def execLockstepMismatch (l : List (Fin 4 × Fin 8 × U64 × U64)) (s : State) : Res := .next <| if s.coreUp then s.mismatch l else s

/-- TICK_END_DIGEST (R317, R319): 120 µs. The digests of the two cores of each EP are compared on lane 7; `diff` holds the EPs whose
digests differ, with the first eight bytes of the difference. Each EP that reaches its digest point advances its liveness count. -/
def execTickEndDigest (reached : Nat) (diff : List (Fin 4 × U64)) (s : State) : Res :=
  .next <|
    if !s.coreUp then s
    else
      let live (x : EpS × Nat) : EpS := if hasBit reached x.2 then { x.1 with liveness := x.1.liveness + 1 } else x.1
      let s := { s with eps := s.eps.zipIdx.map live }
      s.mismatch ((diff.filter fun d => !hasBit s.sys.split d.1).map fun d => (d.1, 7, 0, d.2))

/-! ### Proof restart and the fault record (R326, R327, R335) -/

/-- A proof restart accepted (R327). -/
def State.acceptProof (s : State) (rq : Rq) : State :=
  let s := { s with sys.proofPending := true }.decideWithdraw 0x0C
  (s.respond rq 0x0700 St.ok 0 (leBytes 8 (s.time.tick + 1))).planRestart 0

/-- CHK_PROOF_RESTART (R326, R327, R547): a trail asks its lead, then withdraws and is restarted. (DEDUCED, log entry 70) -/
def execChkProofRestart (rq : Rq) (s : State) : Res :=
  .next <| s.cmd rq 0x0700 [0, 1] true (s.sys.mode == .trail) fun s =>
    if s.pair.partner != .lead || s.bit P.pairStatus 23 || s.bit P.pairStatus 22 || s.sys.split != 0 ||
        s.pair.withdrawing.isSome || s.bit P.pairStatus 25 then
      s.respond rq 0x0700 St.refused 0 []
    else s.starting rq 0x0700 5 0 none fun s => s.relay rq 0x0700 []

/-- CHK_FAULT_CLEAR (R335). -/
def execChkFaultClear (rq : Rq) (s : State) : Res :=
  .next <| s.cmd rq 0x0701 [0] false true fun s =>
    ((s.clearEntry 0x70C0 0 8).clearEntry 0x70C0 1 8).respond rq 0x0701 St.ok 0 []

/-! ### Debug (R331 to R334) -/

/-- The modes that admit halting debug (R332). -/
def Mode.debug (m : Mode) : Bool := m == .hold || m == .service || m == .replay

def State.ep (s : State) (n : Nat) : EpS := s.eps.getD n EpS.fresh

def State.modEp (s : State) (n : Nat) (f : EpS → EpS) : State := { s with eps := s.eps.modify n f }

/-- A debug command on an EP (R331, R332, R453), with the EP number of its request. -/
def State.dbg (s : State) (rq : Rq) (op : Nat) (n : U8) (f : State → State) : State :=
  s.cmd rq op [5] true s.sys.mode.debug fun s => if 4 ≤ n.toNat then s.respond rq op St.outOfRange 0 [] else f s

/-- A 64-bit value that the program's code determines, which this model does not hold: a free value. (DESIGN CHOICE, log entry 5) -/
def State.draw64 (s : State) : U64 × State :=
  let (a, s) := s.drawWord
  let (b, s) := s.drawWord
  (a ++ b, s)

/-- DBG_HALT (R332, R333): both cores halt at the same boundary. -/
def execDbgHalt (rq : Rq) (n : U8) (s : State) : Res :=
  .next <| s.dbg rq 0x0710 n fun s =>
    let (pc, s) := if (s.ep n.toNat).halted then ((s.ep n.toNat).pc, s) else s.draw64
    (s.modEp n.toNat fun e => { e with halted := true, pc := pc }).respond rq 0x0710 St.ok 0 (leBytes 8 pc.toNat)

/-- DBG_RESUME (R333). (DEDUCED, log entry 69) -/
def execDbgResume (rq : Rq) (n : U8) (s : State) : Res :=
  .next <| s.dbg rq 0x0711 n fun s =>
    if !(s.ep n.toNat).halted then s.respond rq 0x0711 St.refused 0 []
    else (s.modEp n.toNat fun e => { e with halted := false, regs := [] }).respond rq 0x0711 St.ok 0 []

/-- DBG_STEP (R333): a halted EP executes instructions; where it then stands and what its registers hold is the program's. (DEDUCED, log entry 69) -/
def execDbgStep (rq : Rq) (n : U8) (count : U16) (s : State) : Res :=
  .next <| s.dbg rq 0x0712 n fun s =>
    if !(s.ep n.toNat).halted then s.respond rq 0x0712 St.refused 0 []
    else if count = 0 then s.respond rq 0x0712 St.ok 0 (leBytes 8 (s.ep n.toNat).pc.toNat)
    else
      let (pc, s) := s.draw64
      (s.modEp n.toNat fun e => { e with pc := pc, regs := [] }).respond rq 0x0712 St.ok 0 (leBytes 8 pc.toNat)

/-- A register of a halted EP: the value last written or read, else one drawn, which it then keeps. -/
def State.regValue (s : State) (n r : Nat) : U64 × State :=
  match (s.ep n).regs.find? fun (x : Nat × U64) => x.1 == r with
  | some x => (x.2, s)
  | none =>
    let (v, s) := s.draw64
    (v, s.modEp n fun e => { e with regs := (r, v) :: e.regs })

/-- DBG_REG_READ (R331, R333): registers of the main core. (DEDUCED, log entry 69) -/
def execDbgRegRead (rq : Rq) (n : U8) (first count : U16) (s : State) : Res :=
  .next <| s.dbg rq 0x0713 n fun s =>
    if !(s.ep n.toNat).halted then s.respond rq 0x0713 St.refused 0 []
    else
      let r := (List.range count.toNat).foldl (fun (acc : List Byte × State) i =>
        let x := acc.2.regValue n.toNat (first.toNat + i)
        (acc.1 ++ leBytes 8 x.1.toNat, x.2)) ([], s)
      r.2.respond rq 0x0713 St.ok 0 r.1

/-- DBG_REG_WRITE (R333): both cores see the write at the same boundary. -/
def execDbgRegWrite (rq : Rq) (n : U8) (r : U16) (value : U64) (s : State) : Res :=
  .next <| s.dbg rq 0x0714 n fun s =>
    if !(s.ep n.toNat).halted then s.respond rq 0x0714 St.refused 0 []
    else
      (s.modEp n.toNat fun e => { e with regs := (r.toNat, value) :: e.regs.filter fun x => x.1 != r.toNat }).respond rq 0x0714
        St.ok 0 []

/-- A debugger's access to memory (R332, R503, R515): through the debug port's guard and the arrival guard. -/
def State.dbgAccess (s : State) (rq : Rq) (op kind a len : Nat) (f : State → State) : State :=
  if 4072 < len then s.respond rq op St.badLength 0 []
  else match s.guardFinds (.debug rq op) kind a len false with
    | some (g, x) => s.refuseAt g (.debug rq op) kind a len x
    | none => f s

/-- DBG_MEM_READ (R332). (DEDUCED, log entry 69) -/
def execDbgMemRead (rq : Rq) (n : U8) (addr : U64) (len : U32) (s : State) : Res :=
  .next <| s.dbg rq 0x0715 n fun s => s.dbgAccess rq 0x0715 0 addr.toNat len.toNat fun s =>
    s.respond rq 0x0715 St.ok 0 (s.memBytes addr.toNat len.toNat)

/-- DBG_MEM_WRITE (R332, R333): written once, to the single copy. -/
def execDbgMemWrite (rq : Rq) (n : U8) (addr : U64) (data : List Byte) (s : State) : Res :=
  .next <| s.dbg rq 0x0716 n fun s => s.dbgAccess rq 0x0716 1 addr.toNat data.length fun s =>
    (s.putCells (data.zipIdx.map fun x => (addr.toNat + x.2, x.1))).respond rq 0x0716 St.ok 0 []

/-- DBG_BREAK (R333): kind 0 clears a slot, 1 execute, 2 watch write, 3 watch read. -/
def execDbgBreak (rq : Rq) (n kind : U8) (slot : U16) (addr : U64) (s : State) : Res :=
  .next <| s.dbg rq 0x0717 n fun s =>
    if 3 < kind.toNat then s.respond rq 0x0717 St.outOfRange 0 []
    else
      let new : List (Nat × Nat × U64) := if kind = 0 then [] else [(slot.toNat, kind.toNat, addr)]
      (s.modEp n.toNat fun e => { e with breaks := e.breaks.filter (fun x => x.1 != slot.toNat) ++ new }).respond rq 0x0717 St.ok 0 []

/-- DBG_RESET (R332, R416): of the main domain, or of one EP's region, with source DBG; the answer goes first. -/
def execDbgReset (rq : Rq) (scope : U32) (s : State) : Res :=
  .next <| s.cmd rq 0x0718 [5] false (!(s.sys.mode.emits || s.sys.mode == .resync)) fun s =>
    if h : scope.toNat < 5 then
      let s := s.respond rq 0x0718 St.ok 0 []
      if scope = 0 then s.reset1 .dbg .mainDomain []
      else s.regionClose ⟨scope.toNat - 1, by omega⟩ .dbg
    else s.respond rq 0x0718 St.outOfRange 0 []

/-- The size of the trace buffer (R334). -/
def traceSize : Nat := 64 * 2 ^ 20

/-- DBG_TRACE_READ (R334, R453), in every mode: what the buffer holds is the program flow, which this model does not hold: free values. (DEDUCED, log entry 69) -/
def execDbgTraceRead (rq : Rq) (offset : U64) (len : U32) (s : State) : Res :=
  .next <| s.cmd rq 0x0719 [5] true true fun s =>
    if 4072 < len.toNat ∨ traceSize < offset.toNat + len.toNat then s.respond rq 0x0719 St.outOfRange 0 []
    else
      let (bytes, s) := s.drawBytes len.toNat
      s.respond rq 0x0719 St.ok 0 bytes

end Sys2Proof.Machine
end

