-- ==== Sys2Proof/Machine/AgreeOps.lean ====
section
/-!
DEFINITION. What the pair agrees of its trunks (file 05 with R115, R157): the slots of a cycle and the stations' states, the
publication of an input image, and the frames of event rounds with what the Keeper does on them.
-/

namespace Sys2Proof.Machine

/-- The frame agreed of the Head end's and the Tail end's (R115): the ends that heard it, and whether their versions differ. -/
def agree2 {α : Type} (head tail : Option α) (same : α → α → Bool) : Option (α × Nat × Bool) :=
  match head, tail with
  | some h, some t => some (h, 3, !same h t)
  | some h, none => some (h, 1, false)
  | none, some t => some (t, 2, false)
  | none, none => none

/-! ### Stations (R151 to R153) -/

/-- A change of a station's state that the change list of the next publication shows (R174): 1 absent, 2 return. -/
def State.noteChange (s : State) (p addr cause : Nat) : State :=
  let old := ((s.prog.changes.find? fun (x : Nat × List (Nat × Nat)) => x.1 == p).map (·.2)).getD []
  let new := old.filter (fun x => x.1 != addr) ++ [(addr, cause)]
  { s with prog.changes := (s.prog.changes.filter fun (x : Nat × List (Nat × Nat)) => x.1 != p) ++ [(p, new)] }

/-- One agreement of a station whose cycle was valid, or missing (R151). (DEDUCED, log entry 57) -/
def State.stationCycle (s : State) (p addr : Nat) (valid : Bool) : State :=
  let key := stKey p addr 0
  let st := s.stState p addr
  let present := st == 1 || st == 2
  if valid then
    let s := s.setFld key 27 24 0
    if present then s.setFld key 31 28 1
    else
      let s := s.incFld key 23 20
      if (s.port p).returnM ≤ s.fld key 23 20 then (s.setFld key 31 28 1).noteChange p addr 2
      else s.setFld key 31 28 4
  else
    let s := (s.setFld key 23 20 0).incFld key 27 24
    if !present then s.setFld key 31 28 3
    else if (s.port p).absentK ≤ s.fld key 27 24 then (s.setFld key 31 28 3).noteChange p addr 1
    else s.setFld key 31 28 2

/-- The agreement as a station sees it, with the frames agreed of its slots (R151, R153, R156). A station without a slot in the
position is not judged. (DEDUCED, log entry 57) -/
def State.stationAgree (s : State) (p addr : Nat) (frames : List (Option SlotRec)) : State :=
  let key := stKey p addr 0
  let s := match (frames.filterMap id).getLast? with
    | some r => (s.setBit key 7 (r.hdr.getLsbD 3)).setBit key 6 (r.hdr.getLsbD 2)
    | none => s
  if s.stState p addr = 5 then
    if (s.port p).configured.contains addr then (s.setFld key 31 28 4).setFld key 23 20 0 else s
  else s.stationCycle p addr (frames.all (·.isSome))

/-- A station enters UNCONFIGURED (R153). -/
def State.unconfigured (s : State) (p addr : Nat) : State :=
  let st := s.stState p addr
  let s := s.when (st == 1 || st == 2) fun s => s.noteChange p addr 1
  let s := ((s.setFld (stKey p addr 0) 31 28 5).setFld (stKey p addr 0) 27 24 0).setFld (stKey p addr 0) 23 20 0
  (s.modPort p fun q => { q with configured := q.configured.filter (· != addr) }).countStations p

/-! ### The slots of a cycle (R114, R115) -/

/-- The pattern of R83 in the frames heard at each end: the pair of neighbours between which it shows a break. -/
def breakPattern (order : List (Nat × Nat)) : Option (Nat × Nat) :=
  let heads := order.takeWhile fun x => x.2 == 1
  let tails := order.drop heads.length
  match heads.getLast?, tails.head? with
  | some a, some b => if tails.all fun x => x.2 == 2 then some (a.1, b.1) else none
  | _, _ => none

/-- The stations with slots in a position, each with the ends that heard all or some of its frames, in cable order; those heard
at neither end are left out. -/
def State.heardOrder (s : State) (p : Nat) (addrs : List Nat) (heard : Nat → Nat) : List (Nat × Nat) :=
  let order := sortBy (fun a => (s.delay p a).tap * 256 + a) addrs
  (order.map fun a => (a, heard a)).filter fun x => x.2 != 0

/-- The runs that declare and clear a break (R83, R85). -/
def State.breakRuns (s : State) (p : Nat) (addrs : List Nat) (heard : Nat → Nat) : State :=
  let pat := breakPattern (s.heardOrder p addrs heard)
  let both := !addrs.isEmpty && addrs.all fun a => heard a == 3
  s.modPort p fun q =>
    { q with
      brkRun := (match pat with
        | some x => if q.brkPair = x then q.brkRun + 1 else 1
        | none => 0)
      brkPair := pat.getD q.brkPair
      brkClearRun := if both then q.brkClearRun + 1 else 0 }

/-- What the claims that stations have seen may show (R253): the cycles in which every PRESENT station sent `OUT_HOLD`. -/
def State.holdRun (s : State) (p : Nat) (addrs : List Nat) : State :=
  let present := addrs.filter fun a => s.stState p a == 1
  let hold := !present.isEmpty && present.all fun a => s.bit (stKey p a 0) 7
  let emits := (s.sys.mode == .standalone || s.sys.mode == .lead) && (s.port p).running && !(s.port p).firstCycle
  let s := s.modPort p fun q => { q with outHoldRun := if hold && emits then q.outHoldRun + 1 else 0 }
  if hasBit s.pair.suspect p && !present.isEmpty && !hold then
    let s := { s with pair.suspect := Sys2Proof.setBit s.pair.suspect p false }
    if s.pair.suspect = 0 then s.setBit P.pairStatus 18 false else s
  else s

/-- The agreement of the cycle in progress on port p (R115), from both ends' frames or from this module's own alone. -/
def State.agreeTrunk (s : State) (p : Nat) (pair : Bool) : State :=
  s.withSched p fun c =>
    let q := s.port p
    let partner := if pair then q.partner else []
    let head := if s.isHead p then q.own else partner
    let tail := if s.isHead p then partner else q.own
    let slots := c.slots (q.pos c)
    let at_ (l : List SlotRec) (i : Nat) : Option SlotRec := l.find? fun r => r.slot == i
    let frames : List (Option SlotRec) := (List.range slots.length).map fun i =>
      (agree2 (at_ head i) (at_ tail i) fun a b => a.hdr == b.hdr && a.word == b.word).map fun x =>
        { x.1 with heard := x.2.1, disagree := x.2.2 }
    let got := frames.filterMap id
    let s := s.incBy (P.schedEndDisagree p) (got.filter (·.disagree)).length
    let s := s.modPort p fun q =>
      { q with agreed := got, agreedBreak := s.bit (P.trkStatus p) 10, publishDue := true }
    let addrs := (slots.map fun x => x.1.addr).eraseDups
    let of_ (a : Nat) : List (Option SlotRec) := ((slots.zip frames).filter fun x => x.1.1.addr == a).map (·.2)
    let s := s.each addrs fun s a => s.stationAgree p a (of_ a)
    let s := s.modPort p fun q => { q with configured := q.configured.filter fun a => !addrs.contains a }
    let heard (a : Nat) : Nat := (of_ a).foldl (fun b r => b ||| (r.map (·.heard)).getD 0) 0
    (((s.breakRuns p addrs heard).holdRun p addrs).countStations p).updAbsent p

/-! ### Publication (R152, R171 to R174, R195 to R197) -/

/-- The substitute word of a part (R195). -/
def State.substWord (s : State) (p idx : Nat) : U64 :=
  let e (w : Nat) : Nat := tkey (0x40C4 + 0x100 * p) idx w
  let value := BitVec.ofNat 64 (s.get64 (e 2))
  if s.bit (e 0) 0 then
    ((s.prog.lastValid.find? fun (x : Nat × U64) => x.1 == inImage p + 8 * idx).map (·.2)).getD value
  else value

/-- The word and the quality byte that a part is published with (R152, R172). A missing part of a STALE station of which nothing
valid has been received is a free value. -/
def State.partPublished (s : State) (p addr idx : Nat) (r : Option SlotRec) : U64 × Nat :=
  let st := s.stState p addr
  let heard := (r.map fun r => 8 * (r.heard % 2) + 4 * (r.heard / 2) + 2 * r.disagree.toNat).getD 0
  match st, r with
  | 1, some r => (r.word, 0x81 + heard)
  | 2, some r => (r.word, 0x81 + heard)
  | 1, none | 2, none =>
    let last := (s.prog.lastValid.find? fun (x : Nat × U64) => x.1 == inImage p + 8 * idx).map (·.2)
    (last.getD ((Config.freeWord s.free (2 * idx)) ++ (Config.freeWord s.free (2 * idx + 1))), 0x41)
  | _, _ => (s.substWord p idx, 0x21 + heard)

/-- The bytes of a range of the process memory that differ between two of its contents. -/
def pmDiff (old new : List Host.Cell) (lo hi : Nat) : List (Nat × Byte) :=
  let inRange (m : List Host.Cell) : List Nat :=
    (m.filter fun (x : Host.Cell) => decide (lo ≤ x.1) && decide (x.1 < hi)).map (·.1)
  ((inRange old ++ inRange new).eraseDups.filter fun a => Cmap.get byteDflt old a != Cmap.get byteDflt new a).map fun a =>
    (a, Cmap.get byteDflt new a)

/-- The change list of port p's next publication (R174, R183), in ascending address. (DEDUCED, log entry 59) -/
def State.changeList (s : State) (p : Nat) : List (Nat × Nat) :=
  let of_ (l : List (Nat × List (Nat × Nat))) : List (Nat × Nat) := ((l.find? fun x => x.1 == p).map (·.2)).getD []
  let new := of_ s.prog.changes
  sortBy (·.1) ((of_ s.prog.changeKept).filter (fun x => !new.any fun y => y.1 == x.1) ++ new)

/-- The trunk input image of port p published at the Intake of tick k (R171 to R174). (DEDUCED, log entry 64) -/
def State.publish (s : State) (p k : Nat) : State :=
  s.withSched p fun c =>
    let q := s.port p
    let j := q.pos c
    let lo := inImage p
    let before := s.pm
    let slots := (c.slots j).zipIdx.map fun x => (x.1.1, q.agreed.find? fun r => r.slot == x.2)
    let parts := slots.map fun x =>
      let idx := partIdx x.1.addr x.1.part
      (idx, x.1.addr, x.2, s.partPublished p x.1.addr idx x.2)
    let changes := s.changeList p
    let s := { s.keepPm fun a => decide (a < lo) || decide (lo + 0x1D84 ≤ a) with free := s.free + 1 }
    let s := s.each parts fun s x =>
      (s.pmPut (lo + 8 * x.1) 8 x.2.2.2.1.toNat).setPmByte (lo + 0x1800 + x.1) (BitVec.ofNat 8 x.2.2.2.2)
    let s := s.setPm (lo + 0x1B00) ((List.range 192).map fun i => BitVec.ofNat 8 (s.stState p (i + 1)))
    let w6 := 16 * j + 4 * q.agreedBreak.toNat + 1
    let w7 := 256 * (s.word (P.trkAbsentCnt p)).toNat + (s.word (P.trkPresentCnt p)).toNat
    let s := s.setPm (lo + 0x1BC0) (leBytes 8 q.cycle ++ leBytes 8 k ++ leBytes 8 q.cycleStart ++ leBytes 4 w6 ++ leBytes 4 w7)
    let s := s.setPm (lo + 0x1C00) (leBytes 4 changes.length ++
      changes.flatMap fun x => [BitVec.ofNat 8 x.1, BitVec.ofNat 8 x.2])
    let valid := parts.filterMap fun x =>
      match x.2.2.1 with
      | some r => if s.stState p x.2.1 = 1 ∨ s.stState p x.2.1 = 2 then some (lo + 8 * x.1, r.word) else none
      | none => none
    let drop (l : List (Nat × List (Nat × Nat))) : List (Nat × List (Nat × Nat)) := l.filter fun x => x.1 != p
    let s := { s with
      prog.lastValid := (s.prog.lastValid.filter fun (x : Nat × U64) => !valid.any fun v => v.1 == x.1) ++ valid
      prog.changes := drop s.prog.changes
      prog.changeKept := drop s.prog.changeKept }
    let s := (s.setBit (P.schedStatus p) 11 false).modPort p fun q => { q with publishDue := false }
    let d := pmDiff before s.pm lo (lo + 0x2000)
    let n := ((d.filter fun x => decide (x.1 < lo + 0x1B00)).map fun x =>
      if x.1 < lo + 0x1800 then (x.1 - lo) / 8 else x.1 - lo - 0x1800).eraseDups.length
    s.gaugeRec 0x02 (76 + 16 * n) d [] (leBytes 4 p ++ leBytes 8 q.cycle)

/-! ### The queues (R157 to R162) -/

/-- An agreed event frame written into the receive queue, or dropped (R158, R159). -/
def State.rxqWrite (s : State) (p : Nat) (x : RxqIn) : State :=
  let q := s.port p
  let e := q.rxqPos
  if s.bit (rxKey p e 0) 0 then (s.inc (P.trkRxqOvf p)).modPort p fun q => { q with rxqDropped := q.rxqDropped + 1 }
  else
    let b (i : Nat) : Nat := (x.bytes.getD i 0).toNat
    let pay := (x.bytes.drop 4).take 64
    let w0 := b 1 * 2 ^ 24 + b 4 * 2 ^ 16 + (b 0 % 16) * 2 ^ 12 + ((x.bytes.length - 4) / 8 % 16) * 2 ^ 8 + (x.heard % 4) * 64 +
      32 * x.disagree.toNat + 1
    let w1 := satNat 16 q.rxqDropped * 65536 + x.cycle % 65536
    let ws := [w32 w0, w32 w1, lo32 x.time, hi32 x.time] ++
      (List.range 16).map fun i => w32 (ofLe ((pay.drop (4 * i)).take 4))
    let s := (s.setWords (rxKey p e 0) ws).modPort p fun q => { q with rxqPos := (q.rxqPos + 1) % 64, rxqDropped := 0 }
    s.gaugeRec 0x04 92 [] (ws.zipIdx.map fun y => (rxKey p e 0 + y.2, y.1)) (leBytes 4 p ++ leBytes 4 0 ++ leBytes 4 e)

/-- The reply agreed to a transmit entry written into it (R161, R162), or its failure after 3 attempts (`none`). A trail, which does
not send, counts the attempt that the reply shows. -/
def State.txqDone (s : State) (p e : Nat) (x : Option RxqIn) : State :=
  if s.fld (txKey p e 0) 7 6 != 1 then s
  else
    let s := match x with
      | none => s.txqEnd p e 3 1
      | some x =>
        let pay := (x.bytes.drop 4).take 64
        let s := if s.sys.mode.contends then s else s.incFld (txKey p e 1) 15 8
        let s := (s.setFld (txKey p e 1) 31 24 (pay.getD 2 0).toNat).setFld (txKey p e 1) 7 4 (pay.length / 8)
        let s := s.set64 (txKey p e 2) x.time
        let s := s.setWords (txKey p e 20) ((List.range 16).map fun i => w32 (ofLe ((pay.drop (4 * i)).take 4)))
        s.txqEnd p e 2 0
    s.gaugeRec 0x04 156 [] ((List.range 36).map fun i => (txKey p e i, s.word (txKey p e i)))
      (leBytes 4 p ++ leBytes 4 1 ++ leBytes 4 e)

/-- The agreed frames written into the queues at an Intake (R157). -/
def State.queueIntake (s : State) (p : Nat) : State :=
  let q := s.port p
  let s := s.modPort p fun q => { q with rxqDue := [], txqDue := [] }
  (s.each q.rxqDue fun s x => s.rxqWrite p x).each q.txqDue fun s x => s.txqDone p x.1 x.2

/-! ### What the Keeper does on agreed frames (R147, R148, R153, R576) -/

def QRec.addr (r : QRec) : Nat := (r.bytes.getD 1 0).toNat
def QRec.pay (r : QRec) (i : Nat) : Nat := (r.bytes.getD (4 + i) 0).toNat
def QRec.be (r : QRec) (i n : Nat) : Nat := ofBe (((r.bytes.drop 4).drop i).take n)

/-- A serial heard at an address in a return notice or an `IDENTIFY` reply (R148): stored where none was expected; else a foreign
one, or one of two heard within 64 cycles, is a duplicate. Whether the frame is of the address's own station. -/
def State.serialHeard (s : State) (p addr : Nat) (serial : U32) (level : Nat) : State × Bool :=
  let expected := s.word (stKey p addr 1)
  let now := (s.port p).cycle
  let both := (s.port p).heardSerials.any fun x =>
    x.1 == addr && x.2.1 != serial.toNat && decide (now < x.2.2 + 64)
  let s := s.modPort p fun q => { q with heardSerials :=
    (q.heardSerials.filter fun x => !(x.1 == addr && x.2.1 == serial.toNat) &&
      (decide (now < x.2.2 + 64) || s.strangerKnown p (w32 x.2.1))) ++
      [(addr, serial.toNat, now)] }
  if expected = 0#32 ∧ !both then (s.setWord (stKey p addr 1) serial, true)
  else if expected = serial then (s, true)
  else (s.declareDuplicate p addr serial level, false)

/-- A stranger's announcement (R147). -/
def State.strangerHeard (s : State) (p : Nat) (r : QRec) : State :=
  let serial := w32 (r.be 5 4)
  match s.sys.mode, s.addrOf p serial with
  | .commission, some a => s.keeperRequest p 0xFF 0x02 (serialBody a serial) .stranger
  | _, _ =>
    let new := !s.strangerKnown p serial
    let s := s.enterStranger p serial (r.be 1 2) (r.be 3 2) (r.pay 9) false
    let s := s.when (new && s.sys.mode.run) fun s => s.ev 1 "STRANGER" [p, serial.toNat]
    s.when s.sys.mode.contends fun s => s.keeperRequest p 0xFF 0x32 (serialBody 0 serial) .stranger

/-- A return notice (R106, R148, R153). -/
def State.noticeHeard (s : State) (p : Nat) (r : QRec) : State :=
  let addr := r.addr
  if addr = 0 ∨ 0xC0 < addr then s
  else
    let (s, own) := s.serialHeard p addr (w32 (r.be 1 4)) (r.pay 5)
    if !own then s
    else
      let s := (s.setFld (stKey p addr 0) 19 12 (r.pay 5)).updNotice p addr (r.pay 5)
      if r.pay 6 % 2 = 0 ∨ s.stState p addr = 0xF then s
      else
        let s := s.unconfigured p addr
        if s.sys.mode.contends && !((s.port p).kreqs.any fun k => k.addr == addr && k.origin == KOrigin.config) then
          s.withSched p fun c => s.sendConfig p addr c .config
        else s

/-- A Keeper request leaves the queue; with it, where it fails, the rest of what it was part of (R576). -/
def State.kreqDrop (s : State) (p : Nat) (k : KReq) (rest : Bool) : State :=
  s.modPort p fun q => { q with kreqs := q.kreqs.filter fun x =>
    x.tag != k.tag && !(rest && x.addr == k.addr && x.origin == k.origin && k.origin != KOrigin.stranger && k.origin != KOrigin.duplicate) }

def KReq.mcmd (k : KReq) : Nat := (k.payload.getD 0 0).toNat

/-- The mailbox command that a Keeper request was made for ends (R576). `TRK_ASSIGN` goes on with the station's configuration. -/
def State.kreqAnswer (s : State) (p : Nat) (k : KReq) (status detail : Nat) : State :=
  match k.origin with
  | .mailbox mb tag =>
    if status = 0 ∧ k.mcmd = 0x02 then
      let a := (k.payload.getD 2 0).toNat
      match (s.port p).cur with
      | some c => s.sendConfig p a c (.mailbox mb tag)
      | none => s.finishTag mb tag 0x0302 St.ok 0 []
    else if status = 0 ∧ (k.mcmd = 0x10 ∨ k.mcmd = 0x11) then s
    else s.finishTag mb tag (if k.mcmd = 0x31 then 0x0303 else 0x0302) status detail []
  | .commission =>
    s.modPort p fun q => { q with comm := q.comm.map fun c =>
      if status ≠ 0 then { c with refused := c.refused + 1 }
      else if k.mcmd = 0x01 then { c with found := c.found + 1 } else c }
  | _ => s

/-- The reply to a Keeper request (R148, R153, R576). -/
def State.kreqReply (s : State) (p : Nat) (k : KReq) (r : QRec) : State :=
  let status := r.pay 2
  if status ≠ 0 then ((s.kreqDrop p k true).kreqAnswer p k St.refused status)
  else
    let s := s.kreqDrop p k false
    let s := match k.mcmd with
      | 0x01 =>
        let (s, own) := s.serialHeard p k.addr (w32 (r.be 4 4)) (r.pay 3)
        if own then s.setFld (stKey p k.addr 0) 19 12 (r.pay 3) else s
      | 0x12 =>
        let same : Bool := match (s.port p).cur with
          | some c => c.digest.toNat == ofBe ((k.payload.drop 3).take 4)
          | none => false
        if same then s.modPort p fun q => { q with configured := q.configured ++ [k.addr] } else s
      | 0x02 =>
        if k.origin == KOrigin.stranger then
          s.withSched p fun c => s.sendConfig p (k.payload.getD 2 0).toNat c .config
        else s
      | _ => s
    s.kreqAnswer p k St.ok 0

/-- A Keeper request that drew no valid reply: sent again, or after 3 attempts failed (R576). -/
def State.kreqSilent (s : State) (p : Nat) (k : KReq) : State :=
  if k.attempts < 3 then
    s.modPort p fun q => { q with kreqs := q.kreqs.map fun x => if x.tag = k.tag then { x with awaiting := none } else x }
  else
    let serial := if k.mcmd = 0x02 ∨ k.mcmd = 0x30 ∨ k.mcmd = 0x31 then [ofBe ((k.payload.drop 3).take 4)] else []
    ((s.kreqDrop p k true).ev 1 "STATION_NO_REPLY" ([p, k.addr, k.mcmd] ++ serial)).kreqAnswer p k St.timeout 0

/-! ### The agreement of event rounds (R157) -/

/-- The launch instant that a queue entry shows (R159): the stamp of the frame taken, less its end's delay. -/
def State.launchTime (s : State) (p : Nat) (r : QRec) (heard : Nat) : Nat :=
  if r.addr = 0xFF then r.stamp
  else r.stamp - (if heard = 2 then (s.delay p r.addr).tail else (s.delay p r.addr).head)

/-- The frames of event rounds agreed in tick k on port p, with the ends that heard each and whether they differ. (DEDUCED, log entry 58) -/
def State.agreedQ (s : State) (p k : Nat) (pair : Bool) : List (QRec × Nat × Bool) :=
  let q := s.port p
  let own := q.ownQ.filter fun r => r.agree == k
  let partner := if pair then q.partnerQ.filter fun r => r.agree == k else []
  let keys := ((own ++ partner).map fun r => (r.kind, r.round)).eraseDups
  let head := if s.isHead p then own else partner
  let tail := if s.isHead p then partner else own
  keys.filterMap fun x =>
    agree2 (head.find? fun r => r.kind == x.1 && r.round == x.2) (tail.find? fun r => r.kind == x.1 && r.round == x.2)
      fun a b => a.bytes == b.bytes

/-- What waits for the agreement of tick k and drew no reply in it. -/
def State.agreeSilent (s : State) (p k : Nat) (answered : List Nat) : State :=
  let out := (s.port p).txqFlight.filter fun x => decide (x.2 ≤ k) && !answered.contains x.1
  let s := s.each out fun s x =>
    let s := s.modPort p fun q => { q with txqFlight := q.txqFlight.filter (·.1 != x.1) }
    if 3 ≤ s.fld (txKey p x.1 1) 15 8 then s.modPort p fun q => { q with txqDue := q.txqDue ++ [(x.1, none)] } else s
  s.each ((s.port p).kreqs.filter fun r => match r.awaiting with
    | some t => decide (t ≤ k)
    | none => false) fun s r => s.kreqSilent p r

/-- A ranging request without a reply: after three in a row its address is refused (R576 by analogy; the spec gives no limit). (DESIGN CHOICE, log entry 61) -/
def State.rangeSilent (s : State) (p k : Nat) : State :=
  match (s.port p).comm with
  | some c =>
    match c.ranging with
    | some g =>
      match g.awaiting with
      | some t =>
        if k < t then s
        else if g.tries < 2 then
          s.modPort p fun q => { q with comm := some { c with ranging := some { g with tries := g.tries + 1, awaiting := none } } }
        else
          s.modPort p fun q => { q with comm := some { c with
            refused := c.refused + 1
            todo := c.todo.drop 1
            ranging := (c.todo.drop 1).head?.map fun a => ⟨a, [], [], 0, 0, none⟩ } }
      | none => s
    | none => s
  | none => s

/-- The agreement of the event-round frames of tick k on port p (R157). -/
def State.agreeEvents (s : State) (p k : Nat) (pair : Bool) : State :=
  let got := s.agreedQ p k pair
  let s := s.incBy (P.schedEndDisagree p) (got.filter (·.2.2)).length
  let cycle := (s.port p).cycle
  let s := s.each got fun s x =>
    let r := x.1
    let entry : RxqIn := ⟨r.bytes, s.launchTime p r x.2.1, cycle, x.2.1, x.2.2⟩
    match r.kind with
    | .event =>
      let s := s.modPort p fun q => { q with rxqDue := q.rxqDue ++ [entry] }
      if r.pay 0 = 4 then s.strangerHeard p r else if r.pay 0 = 5 then s.noticeHeard p r else s
    | .reply =>
      let tag := r.pay 1
      if r.pay 0 = 0xA0 then s
      else match (s.port p).kreqs.find? fun q => q.tag == tag && q.addr == r.addr && q.mcmd == r.pay 0 && q.awaiting == some k with
      | some q => s.kreqReply p q r
      | none =>
        let e := tag / 8 % 16
        if tag < 128 ∧ s.fld (txKey p e 0) 7 6 = 1 ∧ s.fld (txKey p e 0) 31 24 = r.addr ∧
            s.fld (txKey p e 0) 23 16 = r.pay 0 ∧ (s.port p).txqSubs.getD e 0 % 8 = tag % 8 then
          s.modPort p fun q => { q with txqDue := q.txqDue ++ [(e, some entry)],
                                        txqFlight := q.txqFlight.filter (·.1 != e) }
        else s
    | .ranging => s
  let replies := (got.filter fun x => x.1.kind == .reply).map fun x => (x.1.addr, x.1.bytes.drop 4)
  let s := s.updAgree p k replies
  let s := (s.agreeSilent p k ((s.port p).txqDue.map (·.1))).rangeSilent p k
  s.modPort p fun q =>
    { q with ownQ := q.ownQ.filter fun r => decide (k < r.agree), partnerQ := q.partnerQ.filter fun r => decide (k < r.agree) }

/-! ### A commissioning in progress (R66, R71, R453) -/

/-- The addresses that a commissioning is about: those of the schedule and those whose serial is expected. (DEDUCED, log entry 62) -/
def State.commAddrs (s : State) (p : Nat) : List Nat :=
  let sched := match (s.port p).cur with
    | some c => c.addrs
    | none => []
  (List.range 192).filterMap fun i => if sched.contains (i + 1) || s.word (stKey p (i + 1) 1) != 0#32 then some (i + 1) else none

/-- A step of a commissioning begins: 0 discover, 1 range, 2 train, 3 configure. (DEDUCED, log entry 62) -/
def State.commBegin (s : State) (p phase : Nat) : State :=
  let addrs := s.commAddrs p
  match phase with
  | 0 => s.each addrs fun s a => s.keeperRequest p a 0x01 (List.replicate 6 0) .commission
  | 1 =>
    let todo := (if s.isHead p then 0xF1 else 0xF0) :: addrs
    s.modPort p fun q => { q with comm := q.comm.map fun c =>
      if c.todo.isEmpty then { c with todo := todo, ranging := todo.head?.map fun a => ⟨a, [], [], 0, 0, none⟩ }
      else { c with ranging := c.todo.head?.map fun a => ⟨a, [], [], 0, 0, none⟩ } }
  | 2 =>
    s.withSched p fun c => s.modPort p fun q => { q with comm := q.comm.map fun k =>
      { k with
        sets := ((c.entries.filter (!·.noInput)).map (·.eqSet)).eraseDups
        until_ := q.cycle + 32 * c.hyper + 2 } }
  | _ => s.withSched p fun c => s.each c.addrs fun s a => s.sendConfig p a c .commission

/-- The step of a commissioning in progress is over, and the next begins, or the command is answered (R453). (DESIGN CHOICE, log entry 61) -/
def State.commStep (s : State) (p : Nat) : State :=
  match (s.port p).comm with
  | none => s
  | some c =>
    let busy : Bool := match c.phase with
      | 1 => c.ranging.isSome
      | 2 => !c.sets.isEmpty && decide ((s.port p).cycle < c.until_)
      | _ => (s.port p).kreqs.any fun k => k.origin == KOrigin.commission
    if busy then s
    else
      let lost := if c.phase = 2 then c.sets.length else 0
      let c := { c with refused := c.refused + lost, sets := [] }
      match (List.range 4).find? fun b => hasBit c.steps b with
      | some b =>
        (s.modPort p fun q => { q with comm := some { c with phase := b, steps := Sys2Proof.setBit c.steps b false } }).commBegin p b
      | none =>
        (s.modPort p fun q => { q with comm := none }).finishTag c.mb c.tag 0x0300 St.ok 0
          (leBytes 4 c.found ++ leBytes 4 c.ranged ++ leBytes 4 c.trained ++ leBytes 4 c.refused)

end Sys2Proof.Machine
end

