-- ==== Sys2Proof/Machine/Apply.lean ====
section
/-!
DEFINITION. What becomes current at an effect tick (R445, R460 to R464): a word written, a counter cleared, a command's change, with
what follows from it; and the change of the configuration.
-/

namespace Sys2Proof.Machine

/-- What follows from a parameter's new value: the duration of a retraining (R73), a port lost (R381), the recorder's buckets and
safety mode (R489, R490), and the connections of a port whose address changes (R475). -/
def State.paramEffect (s : State) (id : Nat) (old v : U32) : State :=
  let n := id / 0x100 % 16
  if id = P.trkEqmode n ∧ v = 2#32 then s.modPort n fun q => { q with retrainLeft := 65 }
  else if id = P.trkHeadPos n ∧ v = 0xFF#32 then s.cuPortLost n
  else if id = P.recSafe n ∧ n < 8 ∧ old ≠ v then
    (s.setBit (P.recStatus n) 5 (v != 0#32)).evFixed n (n * 4096 + 3) [old.toNat, v.toNat]
  else if (id = P.kprIpAddr n ∨ id = P.kprIpMask n ∨ id = P.kprIpGw n) ∧ old ≠ v then s.portConnsLost n
  else s

/-- A write of a parameter at its effect tick (R460, R463, R467). -/
def State.applyParam (s : State) (id : Nat) (v : U32) : State :=
  match paramRow id with
  | none => s
  | some r =>
    match r.acc with
    | .ro => s
    | .w1c => s.setWord id (s.word id &&& ~~~ (v &&& w32 r.w1c))
    | .rw =>
      if r.cls == .restart then s.pendRestart id v
      else
        let n := id / 0x100 % 16
        let old := s.word id
        let write (s : State) : State := s.setWord id v
        let s := if (id = P.recRate n ∨ id = P.recBurst n) ∧ n < 8 then s.rateChange n write else write s
        s.paramEffect id old v

/-- A write of a rule word, which may change the rate of each of the first channels (R459, R489). -/
def State.rateChanges (s : State) (key : Nat) (v : U32) : Nat → State
  | 0 => s.setWord key v
  | n + 1 => s.rateChange n fun t => t.rateChanges key v n

/-- A write of one word of a table at its effect tick (R459): the fields that are not writable keep their values. A coefficient set
changes at the next trunk-cycle boundary (R75), and a region written holds no memory error any more (R505). (DEDUCED, log entries 21 and 63 and 77) -/
def State.applyTable (s : State) (tid e w : Nat) (v : U32) : State :=
  match tableRow tid with
  | none => s
  | some r =>
    let m := if r.base = 0x20C2 then 0xFFFFFFFF#32 else r.mask w
    let key := tkey tid e w
    let new := (v &&& m) ||| (s.word key &&& ~~~ m)
    let n := tid / 0x100 % 16
    match r.base with
    | 0x20C0 =>
      if (s.port n).cur.isSome && m != 0#32 then s.modPort n fun q => { q with setWrites := q.setWrites ++ [(e, w, v)] }
      else s.setWord key new
    | 0x40C4 => (s.setWord key new).gaugeRec 0x09 16 [] [(key, new)] (leBytes 4 n ++ leBytes 4 e)
    | 0x80C0 =>
      let s' := s.setWord key new
      if s.word key = new then s' else s'.modDio e fun d => { d with reload := true }
    | 0xC0C1 => s.setWord key (if w = 3 then withField new 29 29 0 else new)
    | 0xB8C0 => s.rateChanges key new 8
    | _ => s.setWord key new

/-- The coefficient sets written since the last boundary (R75). -/
def State.applySets (s : State) (p : Nat) : State :=
  let ws := (s.port p).setWrites
  if ws.isEmpty then s
  else
    let s := s.modPort p fun q => { q with setWrites := [] }
    let s := s.each ws fun s x =>
      let m := ((tableRow 0x20C0).map (fun r => r.mask x.2.1)).getD 0
      s.setWord (eqKey p x.1 x.2.1) ((x.2.2 &&& m) ||| (s.word (eqKey p x.1 x.2.1) &&& ~~~ m))
    let s := s.each (ws.map (·.1)).eraseDups fun s set =>
      let s := s.setWord (eqKey p set 0) (withField (withField (withField (s.word (eqKey p set 0)) 31 31 1) 30 29 3) 28 28 0)
      s.setFld (eqKey p set 2) 15 0 0
    s.refreshReady p

/-- A counter, or every counter of a table, cleared at its effect tick (R467), with the records that go with it. -/
def State.clearCounter (s : State) (id : Nat) : State :=
  match paramRow id with
  | some r =>
    if id / 0x1000 = 0xC ∧ id % 0x100 = 0x10 then s.setWords id (List.replicate 8 0)
    else if r.counter then s.setWord id (w32 r.dflt) else s
  | none =>
    match tableRow id with
    | some r => s.each (List.range r.entries) fun s e => s.each r.clear fun s c =>
        let m := w32 c.2
        s.setWord (tkey id e c.1) ((s.word (tkey id e c.1) &&& ~~~ m) ||| (w32 (wordOf r.dflt c.1) &&& m))
    | none => s

/-- The address at which a serial was last heard; a stranger answers at 0xFF. -/
def State.serialAddr (s : State) (p : Nat) (serial : U32) : Nat :=
  ((((s.port p).heardSerials.filter fun x => x.2.1 == serial.toNat).getLast?).map (·.1)).getD 0xFF

/-- An item of a change becomes current. The items that have a command of their own for it (forces, a guard's switch) are not its. -/
def State.applyItem (s : State) (rq : Option Rq) (it : StagedItem) : State :=
  match it with
  | .param id v => (s.applyParam id v).ev 0 "PARAM_WRITE" [id, v.toNat]
  | .table tid e w v => (s.applyTable tid e w v).ev 0 "TABLE_WRITE" [tid, e, w, v.toNat]
  | .clear id => s.clearCounter id
  | .manual chan v =>
    if s.sys.mode != .service then s
    else if chan < 16 then { s with fio.manualDio := Sys2Proof.setBit s.fio.manualDio chan (v.getLsbD 0) }
    else { s with fio.manualCl := (s.fio.manualCl.filter (·.1 != chan - 16)) ++ [(chan - 16, v)] }
  | .groupAck g => ((s.setBit (grpKey g 0) 25 false).setBit (grpKey g 0) 24 false).faultSums g
  | .assign p addr serial =>
    let s := (s.setWord (stKey p addr 1) serial).setBit (stKey p addr 0) 5 false
    let dst := if s.bit (strKey p (s.strangerSlot p serial) 2) 1 then s.serialAddr p serial else 0xFF
    let s := s.clearEntry (0x20C5 + 0x100 * p) (s.strangerSlot p serial) 4
    if s.sys.mode.contends then
      s.keeperRequest p dst 0x02 (serialBody addr serial) (match rq with
        | some r => .mailbox r.mb r.tag
        | none => .config)
    else s
  | .claim a =>
    { (s.takeClaim (s.pair.claim + a)).setBit P.pairStatus 18 false with pair.suspect := 0 }
  | .resume m => (s.suspend m false).gaugeRec 0x09 4 [] [] (leBytes 4 m)
  | .config ws => s.restoreSettings ws
  | .guardArm _ | .forces _ | .schedule _ _ => s

/-- Whether an item is pair configuration (R464). -/
def StagedItem.pair : StagedItem → Bool
  | .param id _ => ((paramRow id).map (·.pair)).getD false
  | .table tid _ _ _ => ((tableRow tid).map (·.pair)).getD false
  | .assign _ _ _ | .config _ => true
  | _ => false

/-- An item with an effect of its own command (FORCE_EFFECT, GUARD_SWITCH, SCHED_SWITCH). -/
def StagedItem.ownRow : StagedItem → Bool
  | .guardArm _ | .forces _ | .schedule _ _ => true
  | _ => false

/-- The pair configuration has changed (R464, R469, R470). -/
def State.configChanged (s : State) : State :=
  let s := (s.setWord P.sysCfgGen (s.word P.sysCfgGen + 1)).setBit P.sysParamStatus 14 true
  if s.gauge.recording then s.gaugeRec 0x0A 32 [] [] s.cfgHash else s

/-- The response to a change that has been applied (R445, R453). -/
def State.changeDone (s : State) (c : StagedChange) : State :=
  match c.rq with
  | none => s
  | some rq =>
    if c.opcode = 0x0302 then s
    else if c.opcode = 0x0603 then s.respond rq c.opcode St.ok 0 (leBytes 4 s.pair.claim.toNat ++ leBytes 8 c.effect)
    else s.respond rq c.opcode St.ok 0 (leBytes 8 c.effect)

/-- A change applied at its effect tick, and answered. (DEDUCED, log entry 77) -/
def State.applyChange (s : State) (c : StagedChange) : State :=
  let items := c.items.filter fun i => !i.ownRow
  let before := s.words
  let s := s.each items fun s i => s.applyItem c.rq i
  let s := s.when (s.img.oldWords.isSome) fun s => { s with img.windowWrites := s.img.windowWrites + items.length }
  let s := s.when (items.any (·.pair) && before != s.words) fun s => s.configChanged
  s.changeDone c

/-- Whether a change is one that a command of its own applies and answers (FORCE_EFFECT, SCHED_SWITCH). -/
def StagedChange.ownRow (c : StagedChange) : Bool :=
  c.items.any fun i => match i with
    | .forces _ | .schedule _ _ => true
    | _ => false

/-- The changes that meet a test applied, in the order in which they were accepted (R444). A guard's switch among them waits for its
own command. (DESIGN CHOICE, log entry 8) -/
def State.applyDue (s : State) (due : StagedChange → Bool) : State :=
  let take (c : StagedChange) : Bool := due c && !c.ownRow && c.items.any fun i => !i.ownRow || c.rq.isSome
  let cs := s.kpr.staged.filter take
  let left := s.kpr.staged.filterMap fun c =>
    if !take c then some c
    else if c.items.any StagedItem.ownRow then some { c with items := c.items.filter StagedItem.ownRow, rq := none }
    else none
  { s with kpr.staged := left }.each cs fun s c => s.applyChange c

end Sys2Proof.Machine
end

