-- ==== Sys2Proof/Machine/TimeOps.lean ====
section
/-!
DEFINITION. Plant time (file 02): its advance to the next tick boundary, rates and steps, and the servo.
-/

namespace Sys2Proof.Machine

/-! ### The time unit (R21, R30 to R34) -/

/-- The first RAWTIME at which plant time has reached a value (R21, R31). -/
def TimeS.rawAt (t : TimeS) (plant : Nat) : Nat :=
  let d : Int := (plant : Int) - t.offset - t.anchor
  ((t.anchor : Int) + -(-(d * 1000000000000) / (1000000000000 + t.rate))).toNat

/-- A new rate at the boundary that `raw` is (R33): plant time is continuous across it. -/
def TimeS.setRate (t : TimeS) (rate : Int) : TimeS :=
  { t with offset := t.offset + ((t.raw : Int) - t.anchor) * t.rate / 1000000000000, anchor := t.raw, rate := rate }

/-- A step to a plant time at the boundary that `raw` is (R34). -/
def TimeS.step (t : TimeS) (plant : Nat) : TimeS :=
  { t with offset := (plant : Int) - t.raw, anchor := t.raw, tick := plant / 125000 }

/-- The next tick boundary (R21), with the rate and the step that wait for it (R33, R34). -/
def TimeS.next (t : TimeS) : TimeS :=
  let t := { t with raw := t.rawAt ((t.tick + 1) * 125000), tick := t.tick + 1 }
  let t := match t.rateReq with
    | some r => { t.setRate r with rateReq := none }
    | none => t
  match t.stepReq with
  | some v => { t.step v with stepReq := none }
  | none => t

/-! ### The sources (R34, R36 to R40) -/

/-- The modes in which plant time may be stepped (R34). (DEDUCED, log entry 55) -/
def Mode.steps (m : Mode) : Bool :=
  match m with
  | .boot | .hold | .listen | .resync | .service => true
  | _ => false

/-- The modes that follow a grandmaster, where one is selected, and those that follow the partner (R36). -/
def Mode.ptp (m : Mode) : Bool :=
  match m with
  | .lead | .standalone | .commission | .hold | .service | .boot => true
  | _ => false

def Mode.follows (m : Mode) : Bool :=
  match m with
  | .trail | .resync | .listen => true
  | _ => false

/-- A number held within two limits. -/
def clampInt (lo hi v : Int) : Int := if v < lo then lo else if hi < v then hi else v

/-- The offset from the source measured: shown, compared with the lock threshold, and slewed away (R34, R38, R48, R49). The correction
stays within `TIME_SLEW_MAX`, and the rate within ±500 ppm (R32). -/
def State.slew (s : State) (off : Int) : State :=
  let max : Int := (s.word P.timeSlewMax).toNat * 1000000
  let est := Config.freqError s.time.rate off
  let rate := clampInt (-500000000) 500000000 (est + clampInt (-max) max (Config.correction off))
  let s := (s.setWord P.timeOffsetErr (sat32 off)).setBit P.timeStatus 4 (decide (off.natAbs ≤ (s.word P.timeLockThr).toNat))
  { s with time := { s.time with rateReq := some rate, freqErr := est } }

/-- A step by the offset measured, at the next boundary (R34, R38). -/
def State.stepBy (s : State) (off : Int) : State :=
  { s.setWord P.timeOffsetErr (sat32 off) with
    time.stepReq := some (((s.time.tick + 1 : Nat) * 125000 - off : Int).toNat) }

/-- Plant time has been set by a source (R35). -/
def State.timeSet (s : State) : State := s.setBit P.timeStatus 5 true

/-- Whether a link of the sync link is usable (R282). -/
def State.anyLink (s : State) : Bool := s.bit P.syncStatus 14 || s.bit P.syncStatus 13

/-- `SOURCE`, and what follows from the time unit in `TIME_STATUS` (R36, R49). (DEDUCED, log entry 55) -/
def State.timeSource (s : State) : State :=
  let src := if s.sys.mode.follows && s.anyLink then 1
    else if s.sys.mode.ptp && s.word P.timeSourceCfg != 0#32 && s.time.gm.isSome then 2 else 0
  (s.setFld P.timeStatus 7 6 src).setBit P.timeStatus 2 (s.time.rate != s.time.freqErr)

end Sys2Proof.Machine
end

