-- ==== Sys2Proof/Machine/Time.lean ====
section
/-!
DEFINITION. Plant time's commands (file 02): steps, IEEE 1588 messages, holdover, and the trail's alignment fault.
-/

namespace Sys2Proof.Machine

/-- TIME_STEP (R34): at the next tick boundary, in the modes that allow it; else refused. -/
def execTimeStep (rq : Rq) (plant : U64) (s : State) : Res :=
  .next <| s.cmd rq 0x0204 [0, 1] true true fun s =>
    if s.sys.mode.steps then
      ({ s with time.stepReq := some plant.toNat }.timeSet).respond rq 0x0204 St.ok 0 (leBytes 8 (s.time.tick + 1))
    else ((s.setBit P.timeStatus 1 true).ev 0 "STEP_REFUSED" [plant.toNat]).respond rq 0x0204 St.wrongMode 0 []

/-- Whether a message is of the port, domain and transport configured (R39, R48). The grandmaster kept has its port as bit 0. -/
def State.ptpTakes (s : State) (m : PtpMsg) : Bool :=
  (match (s.word P.timeSourceCfg).toNat with
    | 1 => !m.engB
    | 2 => m.engB
    | 3 => !m.engB || (match s.time.gm with
      | none => true
      | some g => g % 2 == 1)
    | _ => false) &&
  m.domain.val == (s.word P.timePtpDomain).toNat && m.ieee == (s.word P.timePtpTransport == 1#32)

/-- PTP_MESSAGE_RECEIVE (R34, R36, R39, R40): a message of the selected grandmaster updates the servo; another grandmaster than the
one kept sets `HOLDOVER`, until one is selected again. A step is made where the mode allows it and the offset exceeds the lock
threshold. -/
def execPtpMessageReceive (m : PtpMsg) (s : State) : Res :=
  .next <|
    if !s.coreUp || !s.ptpTakes m || !s.sys.mode.ptp then s
    else
      let id := m.gm.toNat * 2 + m.engB.toNat
      let other : Bool := match s.time.gm with
        | some g => g != id
        | none => false
      if other then
        { (s.setBit P.timeStatus 3 true).ev 0 "HOLDOVER" [1] with time.gm := none, time.rateReq := none }
      else
        let s := if s.bit P.timeStatus 3 then (s.setBit P.timeStatus 3 false).ev 0 "HOLDOVER" [0] else s
        let s := { s.setWord P.timeUtcOffset (sat32 m.utc) with time.gm := some id, time.gmOrigin := s.kpr.now }
        match m.offset with
        | none => s
        | some off =>
          let s := s.timeSet
          if s.sys.mode.steps && decide ((s.word P.timeLockThr).toNat < off.natAbs) then s.stepBy off else s.slew off

/-- PTP_HOLDOVER (R40): the grandmaster has been silent for 3 s; the last rate is kept. -/
def execPtpHoldover (s : State) : Res :=
  .next <|
    if s.time.gm.isSome && decide (s.time.gmOrigin + 3000 ≤ s.kpr.now) then
      { (s.setBit P.timeStatus 3 true).ev 0 "HOLDOVER" [1] with time.gm := none, time.rateReq := none }
    else s

/-- ALIGN_FAULT (R38): the trail's offset has exceeded ±1,000 ns in 8 consecutive ticks. -/
def execAlignFault (s : State) : Res :=
  .next <|
    if s.sys.mode == .trail && decide (8 ≤ s.time.alignRun) then
      ((s.setBit P.timeStatus 0 true).ev 3 "ALIGN_FAULT" []).decideWithdraw 6
    else s

end Sys2Proof.Machine
end

