-- ==== Sys2Proof/Machine/TickOps.lean ====
section
/-!
DEFINITION. The steps of a tick that more than one command takes (files 02, 04, 06): the start of a trunk cycle on a port, the Intake,
and the settlement of runs, loops and output cuts from the vectors of both modules.
-/

namespace Sys2Proof.Machine

/-! ### The start of a trunk cycle (R24, R100, R101, R108) -/

/-- A trunk cycle begins on port p at tick k, if one is released then: the frames of the cycle before are forgotten, and what the port
takes over at a cycle boundary is taken over (R75, R151, R73, R87). -/
def State.rollPort (s : State) (p k : Nat) : State :=
  s.withSched p fun c =>
    if !c.startsAt k then s
    else
      let s := (s.breakEstimate p c.loopDelay).applySets p
      let runs := s.gateOpen p && s.sys.mode.emits
      let s := s.modPort p fun q =>
        { q with
          cycle := c.cycleOf k
          cycleTick := k
          own := []
          partner := []
          partnerVec := false
          partnerBcast := none
          headHeardPrev := q.headHeard
          headHeard := false
          begun := s.used p && s.sys.mode.emits
          firstCycle := runs && !q.running
          running := runs
          absentK := (s.word (P.trkAbsentK p)).toNat
          returnM := (s.word (P.trkReturnM p)).toNat
          eqMode := (s.word (P.trkEqmode p)).toNat
          retrainLeft := q.retrainLeft - 1
          tdrWait := if q.tdrPending.isSome then q.tdrWait + 1 else 0 }
      let s := s.setBit (P.schedStatus p) 14 runs
      s.when (s.isHead p) fun s => s.setBit (P.schedStatus p) 13 false

/-- The frames that the Head end launches in tick k: the beacon at the cycle start, but not in its first emitting cycle (R100, R101),
and the output broadcast in its tick (R110). `dev` is the beacon's loopback stamp less `PLANT`; `differs`: the broadcast heard back
differs from the frame built. -/
def State.headLaunch (s : State) (p k : Nat) (dev : Int) (differs : Bool) : State :=
  s.withSched p fun c =>
    let q := s.port p
    if !q.running || !s.isHead p || !s.gateOpen p then s
    else
      let s := if c.startsAt k && !q.firstCycle then s.launchBeacon p false dev else s
      if s.sys.mode.run && decide (q.cycleTick + c.bcast = k) then s.launchBcast p false differs else s

/-! ### The Intake (R114, R157, R174, R178, R188, R200) -/

/-- The local image published from the agreed snapshot (R176). -/
def State.localIntake (s : State) : State :=
  if !s.sys.mode.run then s
  else
    let before := s.pm
    let s := s.each (s.localBytes (s.pair.agreedSnap.getD Snap.empty)) fun s x => s.setPm (localImage + x.1) x.2
    let d := pmDiff before s.pm localImage (localImage + 0x270)
    let n := (d.map fun x => x.1 / 8).eraseDups.length
    s.when (!d.isEmpty) fun s => s.gaugeRec 0x03 (12 * n) d [] []

/-- One message whose delivery tick has come placed in a free inbox slot (R188). -/
def State.deliver (s : State) (m : Nat × List Byte) : State :=
  match (List.range 16).find? fun i => !(s.prog.inboxUsed.any fun (u : Nat × Nat) => u.1 == i) with
  | none => s
  | some i =>
    let s := (s.setPm (inboxSlot i) m.2).gaugeRec 0x05 (8 + m.2.length) [] [] (leBytes 4 i ++ leBytes 4 m.2.length ++ m.2)
    { s with prog.inboxUsed := s.prog.inboxUsed ++ [(i, m.2.length)] }

/-- The messages of the inbox due at tick k (R188). -/
def State.inboxIntake (s : State) (k : Nat) : State :=
  let due (m : Nat × List Byte) : Bool := decide (m.1 ≤ k)
  let ms := s.prog.inbox.filter due
  { s with prog.inbox := s.prog.inbox.filter fun (m : Nat × List Byte) => !due m }.each ms fun s m => s.deliver m

/-- The program cells that have changed, as a record (R393). -/
def State.cellsRec (s : State) (before : List (Nat × U32)) : State :=
  let d := s.loop.cells.filter fun (x : Nat × U32) => !before.contains x
  s.when (s.loop.cells != before) fun s => s.gaugeRec 0x0B (8 * d.length) [] d []

/-- The changes of an ERROR task's skipped release stay for its next one (R183). (DEDUCED, log entry 59) -/
def State.keepSkipped (s : State) (k : Nat) (changed : List (Nat × List (Nat × Nat))) : State :=
  let skipped := changed.filter fun x =>
    match (List.range 32).find? fun m => s.boundTo 3 m k x.1 with
    | some m => !(s.task m).suspended && (s.task m).released.isSome && !(s.task m).agreed
    | none => false
  { s with prog.changeKept := s.prog.changeKept ++ skipped }

/-- The Intake of tick k: the images agreed in the tick before are published, effects and queue entries take effect, and tasks are
released. -/
def State.intake (s : State) (k : Nat) : State :=
  let s := s.unforce
  let due := (List.range 16).filter fun p => (s.port p).publishDue
  let s := s.each ((List.range 16).filter fun p => !due.contains p && (s.port p).cur.isSome) fun s p =>
    s.setPmByte (inImage p + 0x1BD8) (s.pmByte (inImage p + 0x1BD8) &&& 0xFE#8)
  let changed := (due.map fun p => (p, s.changeList p)).filter fun x => !x.2.isEmpty
  let s := (s.each due fun s p => s.publish p k).localIntake
  let cells := s.loop.cells
  let s := s.commitEffects.cellsRec cells
  let s := s.each (List.range 16) fun s p => s.queueIntake p
  let s := (s.inboxIntake k).forceInputs
  (s.keepSkipped k changed).releases k due (changed.map (·.1))

/-! ### Runs, loops and cuts settled (R179 to R182, R230) -/

/-- The set bits of a vector. -/
def bitsOf (n v : Nat) : List Nat := (List.range n).filter fun i => hasBit v i
def vecOf (l : List Nat) : Nat := l.eraseDups.foldl (fun v i => v + 2 ^ i) 0

/-- The trunks with an output cut in tick k (R117). -/
def State.cuts (s : State) (k : Nat) : List Nat := (List.range 16).filter fun p => s.cutAt p k

/-- The ranges of the process memory that are cut: the output images of the trunks, and the local outputs. -/
def cutRanges (ps : List Nat) : List (Nat × Nat) :=
  (localImage + 0x400, localImage + 0x430) :: ps.map fun p => (outImage p, outImage p + 0x1800)

/-- A task whose run is open at the cuts of tick k (R180, R182): one that finished in one module only is split, and one bound to a trunk
that is cut has reached its deadline. -/
def State.settleRun (s : State) (own : Nat) (partner : Option Nat) (ps : List Nat) (m : Nat) : State :=
  let t := s.task m
  if t.released.isNone || t.agreed || (hasBit own m && hasBit (partner.getD own) m) then s
  else
    let due := (s.taskKind m == 2 || s.taskKind m == 3) && ps.contains (s.taskTrunk m)
    let one := match partner with
      | some v => hasBit own m != hasBit v m
      | none => false
    let split := one && (due || (cutRanges ps).any fun r => t.writes r.1 r.2)
    let late := due && !t.late
    let s := s.when split fun s => (s.inc P.prgCompletionSplit).setBit P.prgStatus 9 true
    let s := s.when late fun s => (s.modTask m fun t => { t with late := true }).setBit (statKey m 0) 2 true
    s.when (split || late) fun s => s.taskMiss m

/-- The completions of tick k settled and agreed, from both vectors or from the module's own. -/
def State.settleRuns (s : State) (k own : Nat) (partner : Option Nat) : State :=
  let ps := s.cuts k
  (s.each s.allTasks fun s m => s.settleRun own partner ps m).agreeRuns (own &&& partner.getD own)

/-- The output cuts of tick k with their replacements made (R180, R181, R218). -/
def State.makeCuts (s : State) (k : Nat) : State :=
  let s := s.holdOrphans
  (s.each (s.cuts k) fun s p => s.cutTrunk p k).cutLocal

/-- The TICK record (R393): the agreed completions, and the agreed late vectors when any bit is set. -/
def State.tickRec (s : State) (agreed loops gens groups : Nat) : State :=
  let any := loops != 0 || gens != 0 || groups != 0
  let data := leBytes 4 agreed ++ [BitVec.ofNat 8 any.toNat] ++
    (if any then leBytes 128 loops ++ leBytes 32 gens ++ leBytes 16 groups else [])
  s.gaugeRec 0x01 data.length [] [] data

/-- The runs and loops of tick k settled from the module's own vectors and the partner's, if they count, and the cuts made. -/
def State.settle (s : State) (k own : Nat) (x : Option Exch) : State :=
  let lates (own : List Nat) (f : Exch → Nat) : Nat := vecOf own ||| (x.map f).getD 0
  let l := lates s.loop.lateLoops (·.lateLoops)
  let g := lates s.loop.lateGens (·.lateGens)
  let q := lates s.loop.lateGroups (·.lateGroups)
  let s := s.settleRuns k own (x.map (·.done))
  let s := s.settleLoops (bitsOf 1024 ((x.map (·.lateLoops)).getD 0)) (bitsOf 256 ((x.map (·.lateGens)).getD 0))
    (bitsOf 128 ((x.map (·.lateGroups)).getD 0))
  (s.makeCuts k).tickRec (own &&& (x.map (·.done)).getD own) l g q

/-! ### Digests (R295, R296) -/

/-- The output digest of trunk p from what its cut froze (R295). (DEDUCED, log entry 97) -/
def State.outDigest (s : State) (p : Nat) : List Byte :=
  let q := s.port p
  let hc : Bool := match q.cur with
    | some c => q.pos c == 0
    | none => false
  let b : Bcast := { tail := false, forced := q.outForced, hcStart := hc, seq := seqOf q.cycle, claim := 0, words := q.outWords }
  shake256 ([BitVec.ofNat 8 p] ++ leBytes 8 q.cycle ++ wirePart b.bytes) 8

/-- The local output digest, from the outputs as they will be emitted (R295). -/
def State.localDigest (s : State) : List Byte :=
  let (d, cl) := s.prog.localCut.getD (0, List.replicate 8 0)
  shake256 (leBytes 4 d.toNat ++ (List.range 12).map (fun i => s.pmByte (localImage + 0x404 + i)) ++
    cl.flatMap fun v => leBytes 4 v.toNat) 8

/-- The hash of a line as four lanes (R296). -/
def lineHash (a : Nat) (l : List Byte) : List Nat :=
  let h := shake256 (leBytes 8 a ++ l) 32
  (List.range 4).map fun i => ofLe ((h.drop (8 * i)).take 8)

def addLanes (a b : List Nat) : List Nat := (List.range 4).map fun i => (a.getD i 0 + b.getD i 0) % 2 ^ 64

/-- The bytes of a table's entries as `TABLE_READ` returns them, filled to whole lines (R296, R459). -/
def State.tableLines (s : State) (tid : Nat) : List (Nat × List Byte) :=
  match tableRow tid with
  | none => []
  | some r =>
    let bytes := (List.range r.entries).flatMap fun e => (List.range r.words).flatMap fun w =>
      leBytes 4 (s.tableView tid e w).toNat
    (List.range ((bytes.length + 63) / 64)).map fun i =>
      let l := (bytes.drop (64 * i)).take 64
      (0x0001000000000000 + tid * 2 ^ 24 + 64 * i, l ++ List.replicate (64 - l.length) 0)

/-- One byte of the process memory as the state digest takes it: `MAX_RUN` of a task block is 0 (R185, R296). -/
def State.digestByte (s : State) (a : Nat) : Byte :=
  if 0xA1000 ≤ a ∧ a < 0xA2000 ∧ 14 ≤ (a - 0xA1000) % 0x80 ∧ (a - 0xA1000) % 0x80 < 16 then 0 else s.pmView a

/-- The offsets of the process memory that the state digest leaves to R295: output images, the local outputs, and the outbox (R297). (DEDUCED, log entry 65) -/
def digestSkips (a : Nat) : Bool :=
  (decide (0x40000 ≤ a) && decide (a < 0x80000)) || (decide (0x80400 ≤ a) && decide (a < 0x80440)) ||
    (decide (0xB2000 ≤ a) && decide (a < 0xC2000))

/-- The lines of the process memory, of program data and of the loop-engine window (R296, R297, R504). (DEDUCED, log entry 65) -/
def State.memLines (s : State) : List (Nat × List Byte) :=
  let pm := ((List.range 0x40000).filter fun i => !digestSkips (64 * i)).map fun i =>
    (0x40000000 + 64 * i, (List.range 64).map fun j => s.digestByte (64 * i + j))
  let n := (s.prog.package.map (·.dramBytes)).getD 0
  let dram := (List.range ((n + 63) / 64)).map fun i =>
    (0x1020000000 + 64 * i, (List.range 64).map fun j => s.dramByte (0x1020000000 + 64 * i + j))
  let loop := (List.range 0x490).map fun i => (0x41000000 + 64 * i, (List.range 64).map fun j => s.loopView (64 * i + j))
  pm ++ dram ++ loop

/-- The owner of a line: the task whose instances it holds, or none, the common state (R296). -/
def State.lineOwner (s : State) (a : Nat) : Option Nat :=
  (((s.prog.package.map (·.owners)).getD []).find? fun o => decide (o.2.1 ≤ a) && decide (a < o.2.1 + o.2.2)).map (·.1)

/-- The state digest over the common lines and those of the tasks agreed complete (R296). (DEDUCED, log entry 97) -/
def State.stateDigest (s : State) (agreed : Nat) : List Byte :=
  let counts (o : Option Nat) : Bool := match o with
    | none => true
    | some m => hasBit agreed m
  let mem := (s.memLines.filter fun x => counts (s.lineOwner x.1)).map fun x => lineHash x.1 x.2
  let tables := (0x40C5 :: 0x40C2 :: (List.range 16).map fun p => 0x20C4 + 0x100 * p).flatMap fun t =>
    (s.tableLines t).map fun x => lineHash x.1 x.2
  let tasks := ((List.range 32).filter fun m => hasBit agreed m).map fun m =>
    lineHash (0x0001000000000000 + 0x40C1 * 2 ^ 24 + 64 * m)
      (((List.range 4).flatMap fun w => leBytes 4 (if w = 3 then s.word (statKey m 3) &&& 0xFFFF#32 else s.word (statKey m w)).toNat) ++
        List.replicate 48 0)
  ((mem ++ tables ++ tasks).foldl addLanes [0, 0, 0, 0]).flatMap fun v => leBytes 8 v

end Sys2Proof.Machine
end

