-- ==== Sys2Proof/Machine/SyncOps.lean ====
section
/-!
DEFINITION. The sync link's operations (file 10): a frame taken from a link, the frames that this module builds in a tick, the
measurement of the links, and the use of the offset that it gives.
-/

namespace Sys2Proof.Machine

/-! ### Links (R281 to R285) -/

def State.link (s : State) : Link → LinkS
  | .a => s.sync.linkA
  | .b => s.sync.linkB

def State.modLink (s : State) (l : Link) (f : LinkS → LinkS) : State :=
  match l with
  | .a => { s with sync.linkA := f s.sync.linkA }
  | .b => { s with sync.linkB := f s.sync.linkB }

/-- The bits of `SYNC_STATUS` and the parameters of a link (R310, R311). -/
def Link.usableBit : Link → Nat
  | .a => 14
  | .b => 13
def Link.downBit : Link → Nat
  | .a => 12
  | .b => 11
def Link.delayKey : Link → Nat
  | .a => P.syncDelayA
  | .b => P.syncDelayB
def Link.errKey : Link → Nat
  | .a => P.syncCrcErrA
  | .b => P.syncCrcErrB
def Link.asymKey : Link → Nat
  | .a => P.syncAsymA
  | .b => P.syncAsymB

def State.usable (s : State) (l : Link) : Bool := s.bit P.syncStatus l.usableBit

/-- What every frame that arrives does (R283, R285): an unsound one is counted and discarded; a crossed one is shown. (DESIGN CHOICE, log entry 56) -/
def State.linkFrame (s : State) (h : LinkFrame) : State :=
  if !h.sound then s.inc h.link.errKey
  else
    let s := s.modLink h.link fun l => { l with frames := true }
    let crossed := h.linkBit != (h.link == .b)
    if crossed && !s.bit P.syncStatus 15 then (s.setBit P.syncStatus 15 true).ev 3 "LINKS_CROSSED" [h.link.usableBit] else s

/-- A frame of the sync link (R282, R283): its first valid copy is acted on, a data-plane frame only from a usable link. (DESIGN CHOICE, log entry 56) -/
def State.frameIn (s : State) (h : LinkFrame) (data : Bool) (f : State → State) : State :=
  if !s.coreUp then s
  else
    let s := s.linkFrame h
    if !h.sound || (data && !s.usable h.link) || s.sync.seen.any (fun (x : U32 × Nat) => x.1 == h.fseq) then s
    else f { s with sync.seen := s.sync.seen ++ [(h.fseq, s.time.tick)] }

/-! ### Agreement alone or as a pair (R263, R294) -/

/-- Items of the partner enter agreements: the two run as a pair, and `SOLO` is not set. -/
def State.agreesPair (s : State) : Bool := s.inPair && !s.bit P.pairStatus 25

/-! ### The output cut and the EXCH (R180, R270, R289, R291) -/

/-- The acknowledgements that this module owes for relayed changes (R445). -/
def State.sendAcks (s : State) : State :=
  let owed := s.kpr.staged.filter fun (c : StagedChange) => c.ackDue
  let s := { s with kpr.staged := s.kpr.staged.map fun (c : StagedChange) => { c with ackDue := false } }
  s.each owed fun s c => (s.message 13 (leBytes 4 c.id.toNat)).2

/-- A returning module that has caught up repeats READY, from tick x to tick x + 8, until JOIN arrives (R307). -/
def State.sendReady (s : State) : State :=
  match s.sync.resync with
  | some r =>
    if !r.lead && r.phase = 5 && r.j = 0 && decide (r.x ≤ s.time.tick) && decide (s.time.tick ≤ r.x + 8) then
      { s.control 0x33 0 0 r.x with sync.resync := some { r with readySent := true } }
    else s
  | none => s

/-- The EXCH of the tick: the vectors, the local snapshot, and the first eight control messages due (R291, R292). (DEDUCED, log entry 66) -/
def State.formExch (s : State) : State :=
  let x : Exch :=
    { tick := s.time.tick, done := s.prog.doneOwn, lateLoops := vecOf s.loop.lateLoops, lateGens := vecOf s.loop.lateGens
      lateGroups := vecOf s.loop.lateGroups, snap := s.pair.snapOwn, ctl := s.sync.ctlOut.take 8 }
  { s with sync := { s.sync with exch := some x, ctlOut := s.sync.ctlOut.drop 8 } }

/-- 110 µs of the tick: the EPs' runs are suspended, the completion vector and the local snapshot are taken, and the EXCH is
launched. -/
def State.outputCut (s : State) (fault : Bool) : State :=
  let done := if s.sys.mode.run then s.completion else 0
  let s := { s with
    prog := { s.prog with running := List.replicate 4 none, doneOwn := done }
    pair := { s.pair with snapOwn := s.localSnap, faultSeen := s.pair.faultSeen || fault }
    fio.dio := s.fio.dio.map fun (d : DioS) => { d with edges := 0 } }
  s.ownVerdict.sendAcks.sendReady.formExch

/-! ### The BEAT (R289, R290, R293) -/

/-- The reception vector of a cycle whose inputs complete in this tick (R290). -/
def State.sendVector (s : State) (p : Fin 16) : State :=
  s.withSched p fun c =>
    let q := s.port p
    if !q.begun || q.cycleTick + c.inputTick (q.pos c) != s.time.tick then s
    else
      let slots := c.slots (q.pos c)
      let v := vecOf (q.own.filterMap fun r => (slots[r.slot]?).map fun x => x.1.idx)
      s.launchRecord ⟨p, 3, 0, q.cycle, 0, [0, 0, 0, 0], leBytes 64 v⟩

/-- The BEAT's copy for SL-A, with the mask and digests given (R293). (DEDUCED, log entry 66) -/
def State.beatOf (s : State) (tx : Nat) (state : List Byte) (mask : Nat) (digests : List (List Byte)) : Beat :=
  let catching : Bool := match s.sync.resync with
    | some r => !r.lead && r.phase == 4
    | none => false
  { tick := s.time.tick
    tx := tx
    echoTick := s.sync.linkA.lastTick
    echoRx := s.sync.linkA.lastRx
    claim := s.pair.claim
    mode := s.sys.mode.num
    solo := s.bit P.pairStatus 25
    withdrawing := s.pair.withdrawing.isSome
    orderK := Config.orderCode
    catching := catching
    pairLevel := fieldOf s.levels 31 24
    execLevel := fieldOf s.levels 23 16
    progHash := s.prog.hash.take 8
    cfgHash := s.cfgHash.take 8
    stateDigest := state
    mask := mask
    wireMask := s.pair.wireDiff
    digests := digests }

/-- Bytes 0x030 to 0x0DF of a BEAT, as a DIGEST record holds them (R293, R393). -/
def Beat.digestBytes (b : Beat) : List Byte :=
  let d := b.digests.flatten
  b.stateDigest ++ leBytes 4 b.mask ++ leBytes 4 b.wireMask ++ d ++ List.replicate (136 - d.length) 0

/-- The BEAT of the tick launched on both links (R289, step 3): replacements and cuts are made, the broadcasts compared, the digests
formed. `txA` and `txB` are the launch stamps of its copies. -/
def State.launchBeat (s : State) (txA txB : Nat) : State :=
  let k := s.time.tick
  let run := s.sys.mode.run
  let x := if s.agreesPair then s.sync.exchIn else none
  let agreed := s.prog.doneOwn &&& (x.map (·.done)).getD s.prog.doneOwn
  let s := s.when run fun s => s.settle k s.prog.doneOwn x
  let s := s.compareWires
  let s := s.each (List.finRange 16) fun s p => s.sendVector p
  let ps := if run then s.cuts k else []
  let mask := vecOf ps + if run then 2 ^ 16 else 0
  let b := s.beatOf txA (s.stateDigest agreed) mask ((ps.map fun p => s.outDigest p) ++ if run then [s.localDigest] else [])
  let push (tx : Nat) (l : LinkS) : LinkS := { l with txs := ((k, tx) :: l.txs).take 16 }
  let s := (s.modLink .a (push txA)).modLink .b (push txB)
  let s := { s with sync.beat := some b }
  s.gaugeRec 0x0C 176 [] [] b.digestBytes

/-! ### A BEAT received (R289, R293, R298) -/

/-- The four time-stamps of a BEAT evaluated (R298): the link's delay, and this module's plant time less the partner's. -/
def State.measureLink (s : State) (l : Link) (rx : Nat) (tick : Nat) (b : Beat) : State :=
  let s := s.modLink l fun x => { x with beats := true, lastTick := tick, lastRx := rx }
  match (s.link l).txs.find? fun x => x.1 == b.echoTick with
  | none => s
  | some (_, t1) =>
    let t1 : Int := t1
    let t2 : Int := b.echoRx
    let t3 : Int := b.tx
    let t4 : Int := rx
    let asym : Int := (s.word l.asymKey).toInt
    let d := ((t4 - t1) - (t3 - t2)) / 2
    let th := ((t4 - t3) - (t2 - t1) + if s.sys.posB then -asym else asym) / 2
    (s.setWord l.delayKey (sat32 d)).modLink l fun x => { x with theta := some th }

/-- What the partner's mode shows of it (R262, R278, R294). (DEDUCED, log entry 67) -/
def State.partnerShows (s : State) (m : Nat) : State :=
  let out (s : State) : State := if s.inPair then s.partnerGone else s
  match Mode.ofNum m with
  | some .listen | some .resync => { out s with pair.partner := .listen }
  | some .lead | some .standalone =>
    if s.sys.mode.run then s else { s with pair.partner := .lead }
  | some .trail => if s.sys.mode.run then s else { s with pair.partner := .trail }
  | _ => { out s with pair.partner := .absent }

/-- A BEAT as an item (R289, R293): the heartbeat, the partner's claim, mode and levels. -/
def State.beatItem (s : State) (tick : Nat) (b : Beat) : State :=
  let s := s.when (b.claim != 0) fun s => s.hearClaim b.claim
  let s := { s with
    pair := { s.pair with partnerMode := b.mode, partnerWireDiff := b.wireMask }
    sync.beatLast := some b }
  let s := (s.setWord P.pairPartnerClaim b.claim).setFld P.syncLevels 23 16 b.pairLevel
  let s := s.setFld P.syncLevels 7 0 b.execLevel
  let s := if tick = s.time.tick then { s.heard with pair.hbSeen := true, sync.beatIn := some b } else s
  s.partnerShows b.mode

/-! ### The exchange window's end: links and time (R38, R282, R298, R299) -/

/-- The counts of a link over one tick (R282). -/
def State.countLink (s : State) (l : Link) (lock : Bool) : State :=
  let slow := decide (6000 < (s.word l.delayKey).toNat)
  s.modLink l fun x =>
    { x with
      silent := if x.frames then 0 else x.silent + 1
      beyond := if x.beats && slow then x.beyond + 1 else 0
      good := if lock && x.beats && !slow then x.good + 1 else 0
      frames := false
      beats := false }

/-- θ of the tick: from SL-A while it is usable, else from SL-B (R298). -/
def State.theta (s : State) : Option Int :=
  if s.usable .a then s.sync.linkA.theta else if s.usable .b then s.sync.linkB.theta else none

/-- θ used (R38, R298, R299): shown; in LISTEN and RESYNC the first one from an emitting partner steps plant time, later ones and those
of a trail are slewed away. (DEDUCED, log entry 72) -/
def State.useTheta (s : State) : State :=
  let s := s.when (s.anyLink) fun s => s.setBit P.syncStatus 10 (!s.usable .a)
  let th := s.theta
  let s := (s.modLink .a fun x => { x with theta := none }).modLink .b fun x => { x with theta := none }
  match th with
  | none => s
  | some t =>
    let s := s.setWord P.timePartnerSkew (sat32 t)
    if s.sys.mode == .trail then
      { s.slew t with time.alignRun := if 1000 < t.natAbs then s.time.alignRun + 1 else 0 }
    else if s.sys.mode == .listen || s.sys.mode == .resync then
      if s.sync.stepped then s.slew t
      else if s.pair.partnerMode = 4 ∨ s.pair.partnerMode = 5 then { (s.stepBy t).timeSet with sync.stepped := true }
      else s
    else s

/-! ### The exchange window's end: agreements and decisions (R260, R262, R263, R289) -/

/-- The cycle of port p agreed, when its input tick is the current one (R114 to R116). Without the partner's reception vector the
agreement is missed. -/
def State.agreeDue (s : State) (pair : Bool) (p : Nat) : State :=
  s.withSched p fun c =>
    let q := s.port p
    if !q.begun || q.cycleTick + c.inputTick (q.pos c) != s.time.tick then s
    else if pair && !q.partnerVec then s.modPort p fun q => { q with missedAt := some s.time.tick }
    else s.agreeTrunk p pair

/-- The local inputs agreed at the end of the window (R270); without the partner's snapshot they stay as agreed before. -/
def State.agreeSnaps (s : State) (pair : Bool) : State :=
  if !s.sys.mode.run then s
  else if !pair then s.agreeLocal s.pair.snapOwn none
  else match s.sync.exchIn with
    | some x => { s with pair.snapPartner := some x.snap }.agreeLocal s.pair.snapOwn (some x.snap)
    | none => s.inc P.pairLocalLate

/-- The heartbeat of the tick counted (R263, R289). -/
def State.countHeartbeat (s : State) : State :=
  if s.pair.hbSeen then
    { s.setBit P.pairStatus 24 false with pair := { s.pair with hbMissed := 0, firstNoHb := none } }
  else
    { s with pair := { s.pair with
      hbMissed := s.pair.hbMissed + 1
      firstNoHb := s.pair.firstNoHb <|> some s.time.tick } }

/-- Lead silence and trail silence (R260, R262); a partner outside the pair whose BEATs have stopped is ABSENT (R278). -/
def State.silenceRule (s : State) : State :=
  if s.pair.hbMissed < 8 then s
  else if !s.inPair then { s with pair.partner := .absent }
  else if !s.trunksSilent then s
  else if s.sys.mode == .trail then { s with pair.takeoverDue := true }
  else s.partnerGone

/-- The digests of two BEATs differ: the state digest, or an output digest that both carry (R254, R293). (DEDUCED, log entry 65) -/
def beatsDiffer (a b : Beat) : Bool :=
  let outs (x : Beat) : List (Nat × List Byte) := (bitsOf 17 x.mask).zip x.digests
  a.stateDigest != b.stateDigest ||
    (outs a).any fun x => match (outs b).find? fun (y : Nat × List Byte) => y.1 == x.1 with
      | some y => y.2 != x.2
      | none => false

/-- The comparisons of the tick decided (R254); a tick in which every comparison agreed forgets an earlier memory fault (R256). (DEDUCED, log entry 68) -/
def State.decideDiverge (s : State) : State :=
  if !s.inPair then s
  else match s.sync.beat, s.sync.beatIn with
    | some a, some b =>
      let d := beatsDiffer a b
      let s := { s with pair.digestDiff := d }
      if d || s.pair.wireDiff != 0 || b.wireMask != 0 then s.diverge
      else if s.pair.resolution.isNone then { s with pair.faultSeen := false } else s
    | _, _ => if s.pair.wireDiff != 0 then { s with pair.digestDiff := false }.diverge else s

/-- 125 µs of the tick (R289, step 5). -/
def State.windowEnd (s : State) (lockA lockB : Bool) : State :=
  let s := ((s.countLink .a lockA).countLink .b lockB).useTheta
  let s :=
    if s.sys.mode.emits then
      let s := s.heartbeatLost
      let pair := s.agreesPair
      let k := s.time.tick
      let s := s.each (List.range 16) fun s p => (s.agreeDue pair p).agreeEvents p k pair
      let s := (s.agreeSnaps pair).decideDiverge
      let s := ((s.countHeartbeat.countSilence).silenceRule).suspendDue
      s.each (List.range 16) fun s p => s.commStep p
    else s.heartbeatLost.countHeartbeat.silenceRule
  { s with pair.hbSeen := false, sync.beatIn := none }

/-! ### Records of the partner's receptions (R290) -/

/-- One record (R116, R157, R289, R290): held for the agreement of its cycle or tick, or late. -/
def State.recordIn (s : State) (r : RxRecord) : State :=
  let p := r.port
  match (s.port p).cur with
  | none => s
  | some c =>
    let q := s.port p
    let j := q.pos c
    let now := s.time.tick
    let late (s : State) : State := s.inc P.syncLate
    if r.cycle % 2 ^ 32 != q.cycle % 2 ^ 32 then late s
    else if r.kind = 2 then
      let kind : QKind := match (r.hdr.getD 0 0).toNat / 16 with
        | 4 => .event
        | 6 => .reply
        | _ => .ranging
      let due := match kind with
        | .event => q.cycleTick + agreeTick (c.framePhaseEnd j r.entry)
        | _ => q.replyAgree c r.entry
      if due < now then late s
      else s.modPort p fun q => { q with partnerQ := q.partnerQ ++ [⟨kind, due, r.entry, r.hdr ++ r.data, r.stamp⟩] }
    else if q.cycleTick + c.inputTick j < now then late s
    else if r.kind = 3 then s.modPort p fun q => { q with partnerVec := true }
    else
      match ((c.slots j).zipIdx.find? fun x => x.1.1.idx == r.entry) with
      | none => s
      | some (_, i) =>
        let rec_ : SlotRec :=
          { slot := i, hdr := r.hdr.getD 0 0, word := BitVec.ofNat 64 (ofBe (r.data.take 8))
            heard := if s.isHead p then 2 else 1, disagree := false }
        s.modPort p fun q => { q with partner := q.partner.filter (·.slot != i) ++ [rec_] }

end Sys2Proof.Machine
end

