-- ==== Sys2Proof/Machine/ResyncOps.lean ====
section
/-!
DEFINITION. The operations of a resync (file 10, R300 to R309): the checks before it, its phases in both modules, what the returning
module installs, and the tick that it executes from the lead's items.
-/

namespace Sys2Proof.Machine

/-- The phase of a resync, in both of its readouts (R303, R311). -/
def State.resyncPhase (s : State) (ph : Nat) : State :=
  { s.setFld P.syncStatus 31 28 ph with sync.resync := s.sync.resync.map fun (r : Resync) => { r with phase := ph } }

/-- A resync ends without a result in this module (R309): a returning module goes back to LISTEN. -/
def State.resyncFail (s : State) (cause : Nat) : State :=
  let s := s.resyncDrop cause
  if s.sys.mode == .resync then s.enterMode .listen 4 else s

/-- The partner's hashes equal this module's, by the first 8 bytes that a BEAT carries (R293, R303). -/
def State.hashesEqual (s : State) (b : Beat) : Bool := b.progHash == s.prog.hash.take 8 && b.cfgHash == s.cfgHash.take 8

/-! ### JOIN_REQ (R300, R302) -/

/-- The check of R300 on the partner's levels. -/
def State.levelsOk (s : State) (b : Beat) : Bool :=
  let own := fieldOf s.levels 31 24
  let exec := fieldOf s.levels 23 16
  decide (own ≤ b.pairLevel + 1) && decide (b.pairLevel ≤ own + 1) && (exec == b.execLevel || exec == b.execLevel + 1)

/-- The conditions under which a module in LISTEN sends JOIN_REQ, other than R300 (R302, R309, R325, R330). -/
def State.mayJoin (s : State) : Bool :=
  s.sys.mode == .listen && s.anyLink && s.bit P.timeStatus 4 && !s.bit P.pairStatus 19 && s.sync.retryAt.isNone &&
    s.sys.split == 0 && !s.bit P.chkStatus 14 &&
    (List.range 16).all fun p => !s.used p || s.bit (P.trkStatus p) 15 || s.bit (P.trkStatus p) 3

/-- The answer to a JOIN_REQ (R302): JOIN_ACCEPT naming the tick 16 ticks on. -/
def State.acceptJoin (s : State) : State :=
  let k := s.time.tick + 16
  ({ s.setBit P.syncStatus 8 false with sync := { s.sync with joinAsked := none, accepted := some k } }).control 0x31 0 0 k

/-- A deferred JOIN_REQ answered once the online change is done (R302). -/
def State.deferredJoin (s : State) : State :=
  if (s.sys.mode == .lead || s.sys.mode == .standalone) && s.sync.joinAsked.isSome && !(decide (3 ≤ s.chgPhase) && decide (s.chgPhase ≤ 6)) &&
      !s.inPair && s.sync.resync.isNone && s.sync.accepted.isNone then s.acceptJoin
  else s

/-- A resync at its start, at tick k: the RESYNC parameters apply as they are then (R310). -/
def State.newResync (s : State) (lead : Bool) (ph k : Nat) (conv : Bool) : Resync :=
  { lead := lead, phase := ph, start := k - 16, pass := 0, sent := 0, z := 0, x := 0, j := 0, executed := 0, cutAt := 0
    readySent := false, converted := conv, cutPages := (s.word P.resyncCutPages).toNat
    maxPasses := (s.word P.resyncMaxPasses).toNat, catchMax := (s.word P.resyncCatchupMax).toNat }

/-! ### The lead's side (R302 to R305) -/

/-- The lead's resync begins at tick k (R248, R302, R303): in STANDALONE it enters LEAD, but not for a converted transfer. -/
def State.leadResync (s : State) (k : Nat) : State :=
  let b := s.sync.beatLast
  let conv : Bool := match b with
    | some b => b.execLevel != fieldOf s.levels 23 16
    | none => false
  let equal : Bool := match b with
    | some b => s.hashesEqual b
    | none => false
  let ph := if equal then 2 else 1
  let r : Resync :=
    s.newResync true ph k conv
  let s := { s with sync := { s.sync with resync := some r, accepted := none } }
  let s := ((s.resyncPhase ph).setBit P.syncStatus 9 conv).setFld P.syncStatus 23 18 0
  if s.sys.mode == .standalone && !conv then { s.enterMode .lead 4 with pair.partner := .listen } else s

/-- What the partner's BEAT shows of a resync to its lead: hashes made equal end phase IMAGES, and `catching up` shows CATCH_UP
(R293, R303). -/
def State.leadSees (s : State) (b : Beat) : State :=
  match s.sync.resync with
  | some r =>
    if !r.lead then s
    else if r.phase == 1 && s.hashesEqual b then s.resyncPhase 2
    else if r.phase == 3 && b.catching then s.resyncPhase 4
    else s
  | none => s

/-- The levels or the order code that a BEAT shows are others than the last BEAT's (R309). -/
def levelsChanged (old : Option Beat) (b : Beat) : Bool :=
  match old with
  | some o => o.pairLevel != b.pairLevel || o.execLevel != b.execLevel || o.orderK != b.orderK
  | none => false

/-! ### The returning module's side (R303 to R306) -/

/-- The returning module's resync begins (R302, R303, R308). -/
def State.beginResync (s : State) (k : Nat) : State :=
  let b := s.sync.beatLast
  let conv : Bool := match b with
    | some b => b.execLevel != fieldOf s.levels 23 16
    | none => false
  let equal : Bool := match b with
    | some b => s.hashesEqual b
    | none => false
  let ph := if equal then 2 else 1
  let r : Resync :=
    s.newResync false ph k conv
  let s := s.enterMode .resync 4
  let s := { s with sync := { s.sync with resync := some r, accepted := none, joinAsked := none } }
  ((s.resyncPhase ph).setBit P.syncStatus 9 conv).setFld P.syncStatus 23 18 0

/-- Phase IMAGES ends for the returning module when both hashes are equal (R303). -/
def State.imagesDone (s : State) : State :=
  match s.sync.resync, s.sync.beatLast with
  | some r, some b => if !r.lead && r.phase == 1 && s.hashesEqual b then s.resyncPhase 2 else s
  | _, _ => s

/-- An image of phase IMAGES (R303, R309, R529): verified and stored, or the resync is abandoned. `body` holds the image's bytes. -/
def State.imageIn (s : State) (content : MsgContent) (body : List Byte) : State :=
  match s.sync.resync with
  | some r =>
    if r.lead || r.phase != 1 then s
    else
      let obj (hash : List Byte) : Obj :=
        { hash := hash, kind := 1, size := body.length, data := body.zipIdx.map fun x => (x.2, x.1), usedAt := s.plant, slot := none }
      match content with
      | .program k true =>
        let s := s.pushBank 12 (s.bankWords (obj k.hash) true)
        let s := { s with sys.prgValid := true, img.programs := k :: s.img.programs.take 1 }
        ((s.loadTasks k).ev 6 "IMG_INSTALLED" [6]).imagesDone
      | .config ws true =>
        let s := s.pushBank 14 (s.bankWords (obj (shake256 body 32)) true)
        let s := { s with sys.cfgValid := true, img.configs := ws :: s.img.configs.take 1 }
        (((s.restoreSettings ws).configChanged).ev 6 "IMG_INSTALLED" [5]).imagesDone
      | .program _ false | .config _ false => (s.ev 6 "VERIFY_FAIL" []).resyncFail 6
      | _ => s
  | none => s

/-- Bytes as a returning module installs them: in a converted transfer, what its firmware's conversion makes of them (R308), which the
spec does not give. (DESIGN CHOICE, log entry 71) -/
def State.converted (s : State) (bs : List (Nat × Byte)) : List (Nat × Byte) × State :=
  let conv : Bool := match s.sync.resync with
    | some r => r.converted
    | none => false
  if conv then
    let r := s.drawBytes bs.length
    ((bs.zip r.1).map fun x => (x.1.1, x.2), r.2)
  else (bs, s)

/-- A quarter of a page (R286, R303, R304). -/
def State.pageIn (s : State) (addr quarter pass : Nat) (data : List Byte) : State :=
  match s.sync.resync with
  | some r =>
    if r.lead || r.phase == 1 || decide (3 < r.phase) || s.sys.mode != .resync then s
    else
      let bs := (data.take 1024).zipIdx.map fun x => (addr + 1024 * quarter + x.2, x.1)
      let (bs, s) := s.converted bs
      let sent := if quarter = 0 then r.sent + 1 else r.sent
      let s := { s with sync.resync := some { r with pass := pass, sent := sent } }.setFld P.syncStatus 23 18 pass
      s.putCells bs
  | none => s

/-- What a capture holds of the program, of its change and of the loop engine (R305). -/
def State.installProgram (s : State) (c : CutState) : State :=
  let task (t : CutTask) : TaskS :=
    { TaskS.fresh0 with
      released := t.released, finished := t.finished, agreed := t.agreed, late := t.late, started := t.started, kept := t.kept
      randCalls := t.randCalls, newCode := t.newCode, migrated := t.migrated, suspended := t.suspended }
  { s with
    prog := { s.prog with
      tasks := (List.range 32).map fun m => ((c.tasks[m]?).map task).getD TaskS.fresh0
      package := some c.program
      hash := c.program.hash
      seed := c.seed
      inbox := c.inbox
      inboxUsed := c.inboxUsed
      lastValid := c.lastValid
      chain := 0
      changes := []
      changeKept := []
      underForce := []
      outbox := []
      localCut := none }
    change := { s.change with package := c.change, commit := c.commit }
    loop := { LoopS.fresh with cells := c.cells.foldl (fun m (x : Nat × U32) => Cmap.put (fun _ => 0#32) m x.1 x.2) [] }
    pair.agreedSnap := c.snap }

/-- The state of tick Z installed (R305, R308). -/
def State.install (s : State) (c : CutState) : State :=
  let (pm, s) := s.converted c.pm
  let (dram, s) := s.converted c.dram
  let maxRun := (List.range 32).map fun m => s.fld (statKey m 3) 31 16
  let s := s.keepWords fun k => !transferred k
  let s := s.each (c.words.filter fun (x : Nat × U32) => transferred x.1) fun s x => s.setWord x.1 x.2
  let s := s.each maxRun.zipIdx fun s x => s.setFld (statKey x.2 3) 31 16 x.1
  let s := s.loadMem pm dram
  let s := s.installProgram c
  let s := s.each c.ports fun s x => s.modPort x.port fun q =>
    { q with
      cycle := x.cycle, cycleTick := x.cycleTick, begun := x.begun, cur := x.cur, staged := x.staged, configured := x.configured, txqOrder := x.txqOrder, txqSubs := x.txqSubs
      rxqPos := x.rxqPos, own := [], partner := [], agreed := [], publishDue := false, ownQ := [], partnerQ := [], rxqDue := []
      txqDue := [] }
  let s := { s with kpr.staged := s.kpr.staged.filter fun (x : StagedChange) => !x.relayed || decide (c.z ≤ x.effect) }
  let now := s.time.tick
  let s := { s with time.tick := c.z }.each c.records fun s r => s.recordIn r
  (({ s with time.tick := now }.setBit P.prgStatus 15 true).setBit P.loopStatus 7 true).prgSums

/-! ### A tick executed from the lead's items (R306) -/

/-- A port in an executed tick: what the module itself receives takes no part, and the lead's records of the cycle are agreed as the
lead agreed them (R294, R306). -/
def State.leadAgrees (s : State) (t p : Nat) : State :=
  let s := s.modPort p fun q => { q with own := [], ownQ := [] }
  let s := s.withSched p fun c =>
    let q := s.port p
    if q.begun && decide (q.cycleTick + c.inputTick (q.pos c) = t) then s.agreeTrunk p true else s
  s.agreeEvents p t true

/-- The changes due at the tick (R184, R199, R445). -/
def State.boundaryAt (s : State) (t : Nat) : State :=
  s.applyDue fun c => decide (c.effect ≤ t) && c.relayed

/-- The data-plane work of tick t from the lead's items, with the effects of the runs that finish in it (R306): Intake, loops, runs, cuts
and agreements, as in the windows of R22. The module takes part as a trail does, for as long as the tick lasts. -/
def State.leadTick (s : State) (t : Nat) (items : LeadItems) (runs : List (Fin 32 × RunEffects)) : State × List Byte × List (List Byte) :=
  let x := items.exch
  let s := (s.boundaryAt t).each (List.range 16) fun s p => s.rollPort p t
  let s := (s.intake t).forceEffect t
  let s := s.each (List.finRange 16) fun s p => s.schedSwitch p
  let s := s.loopWindow t (bitsOf 1024 x.lateLoops) (bitsOf 256 x.lateGens) (bitsOf 128 x.lateGroups)
  let s := s.each runs fun s r => if (s.task r.1).released.isSome && !(s.task r.1).finished then s.finishRun r.1 r.2 else s
  let s := s.settle t x.done none
  let state := s.stateDigest x.done
  let ps := s.cuts t
  let outs := (ps.map fun p => s.outDigest p) ++ [s.localDigest]
  let s := s.each items.records fun s r => s.recordIn r
  let s := s.each (List.range 16) fun s p => s.leadAgrees t p
  ((s.agreeLocal x.snap none).suspendDue, state, outs)
end Sys2Proof.Machine
end

