-- ==== Sys2Proof/Machine/Tick.lean ====
section
/-!
DEFINITION. The commands of the tick (files 02, 04, 06, 09 and 10): its boundary, the output cut, the launch of the BEAT, and the end of
the exchange window.
-/

namespace Sys2Proof.Machine

/-- What the time of the tick before leaves: its sent frames and what was heard of the partner in it. -/
def State.freshTick (s : State) : State :=
  let k := s.time.tick
  { s with sync := { s.sync with
      rxOut := []
      msgOut := []
      exch := none
      exchIn := none
      exchLate := false
      beat := none
      seen := s.sync.seen.filter fun (x : U32 × Nat) => decide (k < x.2 + 16) } }

/-- The tasks that a guard's refusal stops are suspended at the boundary (R515). -/
def State.stopGuarded (s : State) : State :=
  { s with prog.guardStop := [] }.each s.prog.guardStop fun s m => s.suspend m true

/-- A withdrawal named for this tick is decided (R267, R268), and a handover that waited for an online change starts, or is given up
with its partner (R223, R268). -/
def State.dueHandover (s : State) : State :=
  let s := match s.pair.withdrawAt with
    | some (x, cause) => if x ≤ s.time.tick then { s with pair.withdrawAt := none }.decideWithdraw cause else s
    | none => s
  match s.pair.waitHandover with
  | none => s
  | some byLever =>
    if s.pair.partner != .trail then
      let s := { s with pair.waitHandover := none }
      if s.sys.leverOut then (s.setBit P.pairStatus 20 true).ev 3 "SWAP_REFUSED" [] else s.finish 0x0600 St.refused 0 []
    else if (3 ≤ s.chgPhase ∧ s.chgPhase ≤ 6) ∨ s.bit P.pairStatus 23 then s
    else s.startHandover byLever

/-- Whether a change is applied at this boundary by the module itself: its own, and every task's resumption (R184, R445, R462). -/
def StagedChange.atBoundary (c : StagedChange) (k : Nat) : Bool :=
  decide (c.effect ≤ k) && (!c.relayed || c.acked && c.items.all fun i => match i with
    | .resume _ => true
    | _ => false)

/-- The changes that become current at the boundary of tick k. In RESYNC, the lead's belong to the ticks that are executed (R306). (DEDUCED, log entry 64) -/
def State.boundaryChanges (s : State) (k : Nat) : State :=
  s.applyDue fun c => c.atBoundary k && !(s.sys.mode == .resync && c.relayed)

/-- The ports' cycles in a module that executes the lead's ticks are of those ticks (R306). -/
def State.executes (s : State) : Bool := match s.sync.resync with
  | some r => !r.lead && decide (4 ≤ r.phase)
  | none => false

/-- TICK_BOUNDARY (R21, R22, R24, R181, R413): tick k begins. `dev`: the loopback stamp of each port's beacon less its `PLANT`;
`differs`: the ports whose broadcast is heard back otherwise than built; `cl`: the average of each measured current over the tick that
ends; `gaugeLost`: the tick's Gauge records could not be written. -/
def execTickBoundary (dev : List Int) (differs : Nat) (cl : List U32) (gaugeLost : Bool) (s : State) : Res :=
  .next <|
    if !s.coreUp then s
    else
      let s := s.emit.gaugeTick gaugeLost
      let s := { s with time := s.time.next }
      let k := s.time.tick
      let s := (s.timeSource.freshTick).each cl.zipIdx fun s x => s.measure x.2 x.1
      let s := (s.dueHandover.stopGuarded).boundaryChanges k
      let s := s.when (!s.executes) fun s =>
        s.each (List.range 16) fun s p => (s.rollPort p k).headLaunch p k (dev.getD p 0) (hasBit differs p)
      let s := s.when s.sys.mode.emits fun s => s.intake k
      s.deferredJoin.maintRefresh.admitAll

/-- OUTPUT_CUT (R180, R270, R289, R291): 110 µs. `fault`: a memory error of R256 was met in this tick;
`volts`: the supplies of the groups, in 10 mV. (DEDUCED, log entry 30) -/
def execOutputCut (fault : Bool) (volts : List U16) (s : State) : Res :=
  .next <| if s.coreUp then (s.outputCut fault).supplies volts else s

/-- EXCH_TIMEOUT (R179, R289): 117.0 µs without the partner's EXCH. -/
def execExchTimeout (s : State) : Res :=
  .next <| if s.sync.exchIn.isNone then { s with sync.exchLate := true } else s

/-- BEAT_LAUNCH (R289, R293): step 3 of the exchange. `txA` and `txB` are the launch stamps on the two links. -/
def execBeatLaunch (txA txB : Nat) (s : State) : Res := .next <| if s.coreUp then s.launchBeat txA txB else s

/-- EXCHANGE_WINDOW_END (R289): 125 µs. `lockA` and `lockB`: the links' receivers hold block lock. -/
def execExchangeWindowEnd (lockA lockB : Bool) (s : State) : Res := .next <| if s.coreUp then s.windowEnd lockA lockB else s

/-- PARTNER_EXCH_RECEIVE (R289, R291): one of another tick, or one that comes after its absence has been used, is late. -/
def execPartnerExchReceive (h : LinkFrame) (x : Exch) (s : State) : Res :=
  .next <| s.frameIn h true fun s =>
    if h.tick != s.time.tick || s.sync.exchLate then s.inc P.syncLate else { s with sync.exchIn := some x }

/-- What a BEAT means for a resync and for the levels (R248, R293, R303, R309): changed levels abandon a resync, and a lead whose
partner runs at another execution semantics level stands alone. -/
def State.beatResync (s : State) (old : Option Beat) (b : Beat) : State :=
  let s := if levelsChanged old b then s.resyncFail 9 else s
  let s := (s.leadSees b).imagesDone
  s.when (s.sys.mode == .lead && !s.inPair && b.execLevel != fieldOf s.levels 23 16) fun s => s.pend .standalone .pair

/-- PARTNER_BEAT_RECEIVE (R289, R293, R298): each copy measures its link; the first valid one on a usable link is the item. `rx` is the
receive stamp. -/
def execPartnerBeatReceive (h : LinkFrame) (rx : Nat) (b : Beat) (s : State) : Res :=
  .next <|
    let s := s.when (s.coreUp && h.sound) fun s => s.measureLink h.link rx h.tick b
    s.frameIn h true fun s => (s.beatItem h.tick b).beatResync s.sync.beatLast b

/-- RX_RECORD_RECEIVE (R289, R290, R294): the partner's receptions count between partners that agree as a pair. -/
def execRxRecordReceive (h : LinkFrame) (records : List RxRecord) (s : State) : Res :=
  .next <| s.frameIn h true fun s => if s.agreesPair then s.each records fun s r => s.recordIn r else s

/-- PARTNER_BROADCAST_RECEIVE (R104, R250, R252, R254, R258, R264, R280): a broadcast of the other end, at this module's connector. -/
def execPartnerBroadcastReceive (p : Fin 16) (f : RxFrame) (s : State) : Res :=
  .next <|
    if !s.receives p then s
    else if !f.codeOk then s.inc (P.trkCodeErr p)
    else match f.bcast with
      | none => s
      | some b =>
        if b.tail == !s.isHead p then s
        else
          let s := s.heard.modPort p fun q => { q with
            headHeard := q.headHeard || !b.tail
            partnerBcast := if b.seq = seqOf q.cycle then some b.bytes else q.partnerBcast }
          let s := (s.setFld (ptKey p 0) 31 24 b.seq.toNat).setFld (ptKey p 0) 23 16 0
          let s := ((s.setBit (ptKey p 0) 0 true).hearClaim b.claim).checkDeposed b.claim
          match (s.port p).cur with
          | some c => s.leadHeard ((s.port p).cycleTick + c.bcast - 1)
          | none => s

/-! ### Links (R282, R284) -/

/-- LINK_UNUSABLE (R282, R284): no valid frame for 8 consecutive ticks, or a delay above 6,000 ns in 8. -/
def execLinkUnusable (l : Link) (s : State) : Res :=
  .next <|
    if s.usable l && (decide (8 ≤ (s.link l).silent) || decide (8 ≤ (s.link l).beyond)) then
      ((s.setBit P.syncStatus l.usableBit false).setBit P.syncStatus l.downBit true).ev 3 "LINK_DOWN" [l.usableBit]
    else s

/-- LINK_USABLE (R282): every condition has held for 64 consecutive ticks. -/
def execLinkUsable (l : Link) (s : State) : Res :=
  .next <|
    if !s.usable l && decide (64 ≤ (s.link l).good) then (s.setBit P.syncStatus l.usableBit true).ev 3 "LINK_UP" [l.usableBit]
    else s

end Sys2Proof.Machine
end

