-- ==== Sys2Proof/Machine/Resync.lean ====
section
/-!
DEFINITION. The commands of a resync (file 10, R300 to R309): the join request and its answer, the copy, the cut, the ticks executed from
the lead's items, and the join or the abandonment.
-/

namespace Sys2Proof.Machine

/-! ### JOIN_REQ and its answer (R300, R302) -/

/-- JOIN_REQ_SEND (R4, R300, R302): the once-per-second instant of a module in LISTEN. `JOIN_WAIT` shows that the request before had
no JOIN_ACCEPT. -/
def execJoinReqSend (s : State) : Res :=
  .next <|
    match s.sync.beatLast with
    | none => s
    | some b =>
      if !s.mayJoin || s.sync.accepted.isSome then s
      else if b.orderK != Config.orderCode then s.ev 3 "ORDER_CODE_DIFFERS" []
      else if !s.levelsOk b then (s.setBit P.syncStatus 16 true).ev 3 "LEVEL_REFUSED" [b.pairLevel, b.execLevel]
      else
        let s := (s.setBit P.syncStatus 16 false).setBit P.syncStatus 8 s.sync.joinAsked.isSome
        { s with sync.joinAsked := some s.time.tick }.control 0x30 0 0 s.time.tick

/-- JOIN_REQ (R302, R548): accepted, deferred while an online change stands in PROPOSED to SAVING, or refused for a conflict. (DESIGN CHOICE, log entry 71) -/
def execJoinReq (s : State) : Res :=
  .next <|
    if !(s.sys.mode == .lead || s.sys.mode == .standalone) || s.inPair || s.sync.resync.isSome || s.sync.accepted.isSome then s
    else if 3 ≤ s.chgPhase ∧ s.chgPhase ≤ 6 then { s.setBit P.syncStatus 8 true with sync.joinAsked := some s.time.tick }
    else match s.conflict 6 true none with
      | some a =>
        let s := (s.incFld (tkey 0x00C2 a 0) 15 0).ev 0 "BUSY_CONFLICT" [0x30, a, 0]
        (s.setBit P.syncStatus 8 true).control 0x35 0 0 s.time.tick
      | none => s.acceptJoin

/-- JOIN_ACCEPT (R302) naming tick k. -/
def execJoinAccept (k : Nat) (s : State) : Res :=
  .next <|
    if s.sys.mode != .listen || s.sync.joinAsked.isNone then s
    else { s.setBit P.syncStatus 8 false with sync.accepted := some k }

/-- RESYNC_ENTER (R248, R302): the boundary of tick k, in either module. -/
def execResyncEnter (s : State) : Res :=
  .next <|
    match s.sync.accepted with
    | none => s
    | some k =>
      if s.time.tick < k then s
      else if s.sys.mode == .listen then s.beginResync k
      else if s.sys.mode == .lead || s.sys.mode == .standalone then s.leadResync k
      else { s with sync.accepted := none }

/-- JOIN_ACCEPT_TIMEOUT (R302): the BEAT of tick k + 8 does not show RESYNC. -/
def execJoinAcceptTimeout (s : State) : Res :=
  .next <|
    match s.sync.resync with
    | none => s
    | some r =>
      if !r.lead || decide (s.time.tick < r.start + 24) || s.pair.partnerMode = Mode.resync.num then s
      else { s.resyncWords 1 r.sent with sync.resync := none }

/-! ### The copy and the cut (R304, R305) -/

/-- COPY_PASS_END (R304): a pass of the lead ends with `dirty` pages written during it and `sent` pages sent in all. -/
def execCopyPassEnd (dirty sent : Nat) (s : State) : Res :=
  .next <|
    match s.sync.resync with
    | none => s
    | some r =>
      if !r.lead || r.phase != 2 || r.z != 0 then s
      else
        let last := decide (r.maxPasses ≤ r.pass + 1)
        if dirty ≤ r.cutPages ∨ (last ∧ dirty ≤ 131072) then
          { s with sync.resync := some { r with sent := sent, z := s.time.tick + 1 } }
        else if last then { s with sync.resync := some { r with sent := sent } }.resyncDrop 3
        else { s.setFld P.syncStatus 23 18 (r.pass + 1) with sync.resync := some { r with sent := sent, pass := r.pass + 1 } }

/-- CUT_TICK (R304, R305): the boundary of tick Z, at which the lead captures what it then sends, and CUT after it. (DESIGN CHOICE, log entry 71; DEDUCED, log entry 73) -/
def execCutTick (s : State) : Res :=
  .next <|
    match s.sync.resync with
    | none => s
    | some r =>
      if !r.lead || r.phase != 2 || r.z = 0 || decide (s.time.tick < r.z) then s
      else (s.resyncPhase 3).control 0x32 0 0 r.z

/-- CUT (R305): everything captured at tick Z has come; it is installed, and execution begins from Z. -/
def execCut (st : CutState) (s : State) : Res :=
  .next <|
    match s.sync.resync with
    | none => s
    | some r =>
      if r.lead || s.sys.mode != .resync || !(r.phase == 2 || r.phase == 3) then s
      else
        let s := (s.install st).resyncPhase 4
        { s with sync.resync := some { r with phase := 4, z := st.z, executed := st.z, cutAt := s.time.tick } }

/-! ### Ticks executed from the lead's items (R306) -/

/-- The digests of an executed tick differ from those of the lead's BEAT (R306). -/
def State.executedDiffers (s : State) (state : List Byte) (outs : List (List Byte)) (b : Beat) : Bool :=
  (match s.sync.resync with
    | some r => !r.converted
    | none => false) && (state != b.stateDigest || outs != b.digests)

/-- Tick t executed as the trail would, and what is compared with the lead's BEAT. The ports emit nothing. -/
def State.executeTick (s : State) (t : Nat) (items : LeadItems) (runs : List (Fin 32 × RunEffects)) :
    State × List Byte × List (List Byte) :=
  let now := s.time.tick
  let s' := { s with time.tick := t, sys.mode := .trail, pair.partner := .lead }
  let r := s'.leadTick t items runs
  let back := { r.1 with time.tick := now, sys.mode := s.sys.mode, pair.partner := s.pair.partner }
  let back := back.each (List.range 16) fun s p =>
    (s.setBit (P.schedStatus p) 14 false).modPort p fun q => { q with running := false, firstCycle := false }
  (back, r.2.1, r.2.2)

/-- CATCHUP_TICK (R306): the next tick's work from the lead's items is done; `runs`: what the tasks that finish in it leave. -/
def execCatchupTick (items : LeadItems) (runs : List (Fin 32 × RunEffects)) (s : State) : Res :=
  .next <|
    match s.sync.resync with
    | none => s
    | some r =>
      let t := r.executed
      if r.lead || !(r.phase == 4 || r.phase == 5) || items.exch.tick != t || items.beat.tick != t || decide (s.time.tick < t) then s
      else
        let (s, state, outs) := s.executeTick t items runs
        if s.executedDiffers state outs items.beat then s.resyncFail 5
        else
          let caught := r.phase == 4 && t == s.time.tick
          let s := { s with sync.resync := some { r with executed := t + 1, x := if caught then t + 1 else r.x } }
          s.when caught fun s => s.resyncPhase 5

/-- CATCHUP_TIMEOUT (R306): `RESYNC_CATCHUP_MAX` ms from the start of CATCH_UP. -/
def execCatchupTimeout (s : State) : Res :=
  .next <|
    match s.sync.resync with
    | none => s
    | some r => if !r.lead && r.phase = 4 && decide (r.cutAt + 8 * r.catchMax ≤ s.time.tick) then s.resyncFail 4 else s

/-! ### The join (R307, R308) -/

/-- READY (R266, R307, R308) naming tick x: the lead answers JOIN, but in a converted transfer the handover follows. -/
def execReady (x : Nat) (s : State) : Res :=
  .next <|
    match s.sync.resync with
    | none => s
    | some r =>
      if !r.lead || !(r.phase == 3 || r.phase == 4 || r.phase == 5) then s
      else
        let s := s.resyncPhase 5
        if r.converted then { s with sync.resync := some { r with phase := 5, x := x, readySent := true } }
        else { s with sync.resync := some { r with phase := 5, x := x, j := x + 16 } }.control 0x34 0 0 (x + 16)

/-- JOIN (R307) naming tick J. -/
def execJoin (j : Nat) (s : State) : Res :=
  .next <|
    match s.sync.resync with
    | none => s
    | some r => if r.lead || r.phase != 5 || !r.readySent || r.j != 0 then s else { s with sync.resync := some { r with j := j } }

/-- READY_TIMEOUT (R307, R309): no JOIN by tick x + 8. -/
def execReadyTimeout (s : State) : Res :=
  .next <|
    match s.sync.resync with
    | none => s
    | some r =>
      if !r.lead && r.phase = 5 && r.j = 0 && !r.converted && decide (r.x + 8 < s.time.tick) then s.resyncFail 2 else s

/-- Both retentive buffers written in full (R205). (DEDUCED, log entry 73) -/
def State.retainBoth (s : State) : State :=
  let gen := s.prog.retainGen + 1
  let cells := s.retainCells
  let next := s.time.tick + (s.word P.prgRetainPeriod).toNat
  let s := s.setBit P.prgStatus 12 true
  { s with prog := { s.prog with
    retainMark := [(0, gen, s.prog.hash, cells), (1, gen + 1, s.prog.hash, cells)]
    retainGen := gen + 1
    retainNext := next } }

/-- The returning module enters TRAIL at J (R205, R248, R307). (DEDUCED, log entry 73) -/
def State.joinTrail (s : State) (r : Resync) : State :=
  let s := { s with sync.resync := none }.setFld P.syncStatus 31 28 0
  let s := (s.setWord P.resyncLastMs (w32 ((r.j - r.start) / 8))).setWord P.resyncLastPages (w32 r.sent)
  let s := s.takeClaim (s.word P.pairPartnerClaim - 1)
  let s := s.enterMode .trail 4
  let s := { s with pair := { s.pair with partner := .lead, hbMissed := 0, firstNoHb := none } }
  let s := (s.setBit P.prgChangeStatus 6 s.change.package.isSome).retainBoth.gaugeStart
  let k := s.time.tick
  (s.each (List.range 16) fun s p => s.rollPort p k).intake k

/-- The lead has a trail from J on (R248, R307). -/
def State.joinLead (s : State) (r : Resync) : State :=
  let s := { s with
    sync.resync := none
    pair := { s.pair with partner := .trail, hbMissed := 0, firstNoHb := none } }
  let s := (s.setFld P.syncStatus 31 28 0).setBit P.pairStatus 25 false
  let s := (s.setWord P.resyncLastMs (w32 ((r.j - r.start) / 8))).setWord P.resyncLastPages (w32 r.sent)
  (s.setBit P.prgChangeStatus 6 s.change.package.isSome).ev 3 "PARTNER_JOINED" []

/-- JOIN_TICK (R248, R307): the boundary of tick J in either module; the returning one has executed every tick before it. -/
def execJoinTick (s : State) : Res :=
  .next <|
    match s.sync.resync with
    | none => s
    | some r =>
      if r.j = 0 || decide (s.time.tick < r.j) || r.converted then s
      else if r.lead then s.joinLead r
      else if r.executed = s.time.tick then s.joinTrail r else s

/-! ### The end without a result (R309) -/

/-- JOIN_ABANDON (R302, R309) with its cause, from the partner. (DEDUCED, log entry 74) -/
def execJoinAbandon (cause : U8) (s : State) : Res :=
  .next <|
    match s.sync.resync with
    | some _ => { s.resyncFail cause.toNat with sync.ctlOut := s.sync.ctlOut }
    | none =>
      if s.sys.mode == .listen then { s.setBit P.syncStatus 8 s.sync.joinAsked.isSome with sync.accepted := none }
      else { s with sync.accepted := none }

/-- RESYNC_ABANDON (R309): a resync is interrupted with a cause, as far as the state shows whether it holds. (DEDUCED, log entry 74) -/
def execResyncAbandon (cause : U8) (s : State) : Res :=
  .next <|
    let holds : Bool := match cause.toNat with
      | 1 => !s.anyLink
      | 2 => decide (8 ≤ s.pair.hbMissed) || !(s.pair.partnerMode == 4 || s.pair.partnerMode == 5)
      | 6 | 9 => true
      | _ => false
    if s.sync.resync.isSome && holds then s.resyncFail cause.toNat else s

/-- RESYNC_RETRY (R309): 10 s after an abandonment. -/
def execResyncRetry (s : State) : Res :=
  .next <|
    match s.sync.retryAt with
    | none => s
    | some t => if t ≤ s.plant then { s with sync.retryAt := none } else s

end Sys2Proof.Machine
end

