-- ==== Sys2Proof/Machine/Relay.lean ====
section
/-!
DEFINITION. What the two modules of a pair do for each other over MB4 and with ACTION messages (R127, R184, R188, R199, R286, R292, R445,
R547): relayed requests and their answers, relayed changes and their acknowledgement, and the maintenance record.
-/

namespace Sys2Proof.Machine

/-! ### Relayed changes (R292, R306, R445) -/

/-- A relayed change taken: it waits for its effect tick, and a trail owes its acknowledgement. (DESIGN CHOICE, log entry 78) -/
def State.takeRelayed (s : State) (eff : Nat) (id : U32) (items : List StagedItem) : State :=
  { s with kpr.staged := s.kpr.staged ++
      [{ effect := eff, items := items, rq := none, opcode := 0, relayed := true, acked := true, ackDue := s.sys.mode == .trail, id := id }] }

/-- RELAY_CHANGE_RECEIVE (R445): a trail without `SOLO` always acknowledges. -/
def execRelayChangeReceive (effect : Nat) (id : U32) (items : List StagedItem) (s : State) : Res :=
  .next <| if s.sys.mode == .trail && !s.bit P.pairStatus 25 then s.takeRelayed effect id items else s

/-- A staged schedule waits for tick t on port p (R127). -/
def State.stageSched (s : State) (p t : Nat) : State :=
  let c := s.schedule p
  (s.modPort p fun q => { q with staged := some (c, t) }).setBit (P.schedStatus p) 12 true

/-- A staged schedule that will not be current after all (R445). -/
def State.unstageSched (s : State) (it : StagedItem) : State :=
  match it with
  | .schedule p _ => (s.modPort p fun q => { q with staged := none, commitRq := none }).setBit (P.schedStatus p) 12 false
  | _ => s

/-- ACTION (R127, R184, R188, R199, R292, R306): `arg` 1 and 2 forces, 3 a task's resumption, 4 a schedule commit, 5 an inbox delivery.
`fseq` names the MSG frame that holds the body. (DEDUCED, log entry 73) -/
def execAction (arg : U8) (effect : Nat) (fseq : U32) (s : State) : Res :=
  .next <|
    if !(s.sys.mode == .trail || s.sys.mode == .resync) then s
    else
      let body : List Byte := ((s.sync.msgIn.find? fun (m : MsgFrame) => m.fseq == fseq).map (·.body)).getD []
      let n := (body.headD 0).toNat
      match arg.toNat with
      | 1 => s.takeRelayed effect fseq [.forces true]
      | 2 => s.takeRelayed effect fseq [.forces false]
      | 3 => if body.isEmpty then s else s.takeRelayed effect fseq [.resume (n % 32)]
      | 4 => if body.isEmpty then s else (s.stageSched (n % 16) effect).takeRelayed effect fseq [.schedule (n % 16) effect]
      | 5 => { s with prog.inbox := s.prog.inbox ++ [(effect, body)] }
      | _ => s

/-- PAIR_CHANGE_EFFECT (R445): the acknowledged changes of this tick are applied, in both modules. -/
def execPairChangeEffect (s : State) : Res :=
  .next <|
    if s.sys.mode == .resync then s
    else s.applyDue fun c => c.relayed && c.acked && decide (c.effect ≤ s.time.tick)

/-- A change abandoned by its lead (R445). -/
def State.abandonChange (s : State) (c : StagedChange) : State :=
  let s := (s.message 14 (leBytes 4 c.id.toNat)).2
  let s := { s with kpr.staged := s.kpr.staged.filter (· != c) }.each c.items fun s i => s.unstageSched i
  match c.rq with
  | some rq => s.respond rq c.opcode St.timeout 0 []
  | none => s

/-- RELAY_ACK_TIMEOUT (R445): no acknowledgement by the exchange window of the effect tick minus 2. -/
def execRelayAckTimeout (s : State) : Res :=
  .next <|
    s.each (s.kpr.staged.filter fun (c : StagedChange) => c.relayed && !c.acked && decide (c.effect ≤ s.time.tick + 2)) fun s c =>
      s.abandonChange c

/-! ### Relayed requests (R445, R547) -/

/-- RELAYED_REQUEST (R442, R445): it waits in MB4 for step 6 of a housekeeping period. -/
def execRelayedRequest (tag : U16) (opcode : Nat) (payload : List Byte) (s : State) : Res :=
  .next <|
    if !(s.sys.mode == .lead || s.sys.mode == .standalone) || decide (16 ≤ (s.kpr.reqs.filter fun r => r.rq.mb == 4).length) then s
    else
      let rq : Rq := { mb := 4, tag := tag, session := 0 }
      { s with kpr.reqs := s.kpr.reqs ++
          [{ rq := rq, opcode := opcode, payload := payload, port := 0, open_ := false, background := false,
             started := false, parts := 1, received := s.kpr.now }] }

/-- The lead's answer to a relayed request (R445, R547): the requester has it under its own tag; an update or a proof restart that the
lead has entered goes on here. -/
def State.relayAnswer (s : State) (body : List Byte) : State :=
  let opcode := ofLe (body.take 2)
  let tag := ofLe ((body.drop 2).take 2)
  let interim := body.getD 4 0 != 0
  let status := ofLe ((body.drop 5).take 2)
  let detail := ofLe ((body.drop 7).take 2)
  let data := body.drop 9
  match s.kpr.relays.find? fun (r : RelayOut) => r.opcode == opcode && r.rq.tag.toNat == tag with
  | none => s
  | some r =>
    if interim then s.accept r.rq opcode data
    else
      let s := { s with kpr.relays := s.kpr.relays.filter (· != r) }
      if status = St.ok ∧ opcode = 0x0201 then s.acceptUpdate r.rq
      else if status = St.ok ∧ opcode = 0x0700 then s.acceptProof r.rq
      else s.respond r.rq opcode status detail data

/-- MAINT_RECORD_RECEIVE (R530, R547, R552): the partner's activities, and the trunks of those that have some. -/
def execMaintRecordReceive (set : U16) (ports : List (Fin 10 × U16)) (s : State) : Res :=
  let ps : List (Nat × Nat) := ports.map fun x => (x.1.val, x.2.toNat)
  .next { s with maint := { s.maint with partner := set.toNat, partnerPorts := ps } }.maintRefresh

/-! ### Management frames (R209, R212, R286, R445, R532, R536) -/

/-- A change package from the lead (R209): a trail stages its own copy, and answers with the cause of a refusal, or 0. -/
def State.packageIn (s : State) (k : Package) (signed : Bool) : State :=
  if s.sys.mode != .trail then s
  else
    let c := s.stageCause k (signed && s.kpr.ownerKey.isSome)
    let s := if c != 0 then s.chgRefuse c
      else { (s.setChgPhase 2).setBit P.prgChangeStatus 6 true with change.package := some k }
    (s.message 12 (leBytes 1 c)).2

/-- The trail's answer to a change package (R209). -/
def State.packageAnswer (s : State) (cause : Nat) : State :=
  if s.chgPhase != 1 then s
  else if cause = 0 then (s.setBit P.prgChangeStatus 6 true).stagedNow
  else ((s.chgRefuse 6).dropPackage).finish 0x0400 St.partnerFail cause []

/-- The trail's acknowledgement of a change (R445). (DESIGN CHOICE, log entry 78) -/
def State.ackIn (s : State) (id : Nat) : State :=
  { s with kpr.staged := s.kpr.staged.map fun (c : StagedChange) => if c.id.toNat = id then { c with acked := true } else c }

/-- The lead's abandonment of a change (R445). -/
def State.dropRelayed (s : State) (id : Nat) : State :=
  let hit (c : StagedChange) : Bool := c.relayed && c.rq.isNone && c.id.toNat == id
  let cs := s.kpr.staged.filter hit
  { s with kpr.staged := s.kpr.staged.filter fun (c : StagedChange) => !hit c }.each (cs.flatMap fun (c : StagedChange) => c.items) fun s i => s.unstageSched i

/-- The number of a package discarded, or of a commit abandoned, by the lead (R209, R212). -/
def State.discardIn (s : State) : State :=
  if s.sys.mode == .trail && decide (s.chgPhase < 4) then s.dropPackage else s

/-- What a MSG frame of a kind brings. -/
def State.msgIn (s : State) (kind : Nat) (fseq : U32) (body : List Byte) (content : MsgContent) : State :=
  match kind with
  | 2 => match content with
    | .change k signed => s.packageIn k signed
    | _ => s
  | 6 => s.discardIn
  | 7 => if s.sys.mode == .trail then s.abandonCommit St.aborted 0 else s
  | 9 => match content with
    | .station k => s.holdPkg body k
    | _ => s
  | 10 =>
    let j := StnJournal.ofBytes body
    { s with img.journalIn := (s.img.journalIn.filter fun (x : StnJournal) => x.port != j.port) ++ [j] }
  | 11 => s.relayAnswer body
  | 12 => s.packageAnswer (body.headD 0).toNat
  | 13 => s.ackIn (ofLe (body.take 4))
  | 14 => s.dropRelayed (ofLe (body.take 4))
  | 15 | 16 => s.imageIn content body
  | _ => { s with sync.msgIn := (({ fseq := fseq, kind := kind, body := body } : MsgFrame) :: s.sync.msgIn).take 64 }

/-- MSG_FRAME_RECEIVE (R285, R286): a management frame over either link. `content`: what it carries beside plain bytes. -/
def execMsgFrameReceive (h : LinkFrame) (kind : Nat) (body : List Byte) (content : MsgContent) (s : State) : Res :=
  .next <| s.frameIn h false fun s => s.msgIn kind h.fseq body content

/-- XFER_FRAME_RECEIVE (R285, R286, R304): a quarter of a page. -/
def execXferFrameReceive (h : LinkFrame) (addr : Nat) (quarter : Fin 4) (pass : U8) (data : List Byte) (s : State) : Res :=
  .next <| s.frameIn h false fun s => s.pageIn addr quarter pass.toNat data

end Sys2Proof.Machine
end

