-- ==== Sys2Proof/Machine/TrunkCmds.lean ====
section
/-!
DEFINITION. The mailbox commands of the trunks (files 03 to 05 and R453): commissioning, reflectometry, strangers, and the commit of a
schedule.
-/

namespace Sys2Proof.Machine

/-! ### TRK_COMMISSION (R66, R71, R453) -/

/-- Whether an address may be ranged in the run modes (R66). -/
def State.rangeable (s : State) (p addr : Nat) : Bool :=
  let d := s.delay p addr
  (!d.headMeasured && !d.tailMeasured) || (d.estimated && s.paired)

/-- A commissioning begins on port p: its steps are made in order, and the final response follows the last. -/
def State.startComm (s : State) (rq : Rq) (p steps : Nat) (addrs : List Nat) : State :=
  let c : Commission :=
    { steps := steps, phase := 0, sets := [], until_ := 0, todo := addrs, ranging := none, found := 0, ranged := 0, trained := 0
      refused := 0, running := s.sys.mode.run, mb := rq.mb, tag := rq.tag }
  (s.modPort p fun q => { q with comm := some c }).commStep p

/-- TRK_COMMISSION (R66, R71, R453, R546). `addrs`: the addresses that a request in the run modes names. -/
def execTrkCommission (rq : Rq) (port steps : U8) (addrs : List U8) (s : State) : Res :=
  let p := port.toNat
  let as := addrs.map (·.toNat)
  .next <| s.cmd rq 0x0300 [0] true (s.sys.mode == .commission || s.sys.mode == .standalone || s.sys.mode == .lead) fun s =>
    if 16 ≤ p ∨ steps = 0 ∨ 16 ≤ steps.toNat then s.respond rq 0x0300 St.outOfRange 0 []
    else if !s.used p then s.respond rq 0x0300 St.refused 0 []
    else if (s.port p).comm.isSome then s.respond rq 0x0300 St.busy 0 []
    else if s.sys.mode == .commission then s.bg rq 0x0300 [] fun s => s.startComm rq p steps.toNat []
    else if steps ≠ 2 then s.respond rq 0x0300 St.wrongMode 0 []
    else if as.isEmpty || decide (192 < as.length) || as.any fun a => a == 0 || decide (192 < a) then
      s.respond rq 0x0300 St.outOfRange 0 []
    else if !as.all fun a => s.rangeable p a then s.respond rq 0x0300 St.refused 0 []
    else s.starting rq 0x0300 4 0 (some p) fun s => s.bg rq 0x0300 [] fun s => s.startComm rq p 2 as

/-! ### TRK_TDR (R86, R87) -/

/-- The modes in which reflectometry runs (R87). -/
def Mode.tdr (m : Mode) : Bool := m.run || m == .hold || m == .commission || m == .service

/-- TRK_TDR (R86, R87): the run follows in the command TDR_RUN. -/
def execTrkTdr (rq : Rq) (port : U8) (s : State) : Res :=
  let p := port.toNat
  .next <| s.cmd rq 0x0301 [0, 1] true s.sys.mode.tdr fun s =>
    if 16 ≤ p then s.respond rq 0x0301 St.outOfRange 0 []
    else if !s.used p then s.respond rq 0x0301 St.refused 0 []
    else if (s.port p).tdrPending.isSome then s.respond rq 0x0301 St.busy 0 []
    else s.bg rq 0x0301 [] fun s =>
      (s.setBit (P.trkStatus p) 7 true).modPort p fun q => { q with tdrPending := some (rq.mb, rq.tag), tdrWait := 0 }

/-! ### TRK_ASSIGN and TRK_RELEASE (R147, R149) -/

/-- The modes of the commands on strangers (R147, R453). -/
def Mode.strangers (m : Mode) : Bool := m.run || m == .commission

/-- TRK_ASSIGN (R147): in the run modes the address's state must be ABSENT. (DEDUCED, log entry 62) -/
def execTrkAssign (rq : Rq) (port addr : U8) (serial : U32) (s : State) : Res :=
  let p := port.toNat
  let a := addr.toNat
  .next <| s.cmd rq 0x0302 [0] true s.sys.mode.strangers fun s =>
    if s.sys.mode == .trail then s.relay rq 0x0302 ([port, addr, 0, 0] ++ leBytes 4 serial.toNat)
    else if 16 ≤ p ∨ a = 0 ∨ 192 < a then s.respond rq 0x0302 St.outOfRange 0 []
    else if !s.strangerKnown p serial || (s.sys.mode.run && s.stState p a != 3) then s.respond rq 0x0302 St.refused 0 []
    else (s.hold rq 0x0302).stage (some rq) 0x0302 true [.assign p a serial]

/-- TRK_RELEASE (R149): `RELEASE` goes to a listed station that is quarantined; its reply ends the command. (DEDUCED, log entry 76) -/
def execTrkRelease (rq : Rq) (port : U8) (serial : U32) (s : State) : Res :=
  let p := port.toNat
  .next <| s.cmd rq 0x0303 [0] true s.sys.mode.strangers fun s =>
    if s.sys.mode == .trail then s.relay rq 0x0303 ([port, 0, 0, 0] ++ leBytes 4 serial.toNat)
    else if 16 ≤ p then s.respond rq 0x0303 St.outOfRange 0 []
    else if !s.strangerKnown p serial || !s.bit (strKey p (s.strangerSlot p serial) 2) 1 then s.respond rq 0x0303 St.refused 0 []
    else (s.hold rq 0x0303).keeperRequest p (s.serialAddr p serial) 0x31 (serialBody 0 serial) (.mailbox rq.mb rq.tag)

/-! ### SCHED_COMMIT (R127, R128) -/

/-- A refused commit shown (R128, R131). (DEDUCED, log entry 76) -/
def State.schedRefuse (s : State) (p cause : Nat) : State :=
  (s.setBit (P.schedStatus p) 9 true).setFld (P.schedStatus p) 8 5 cause

/-- The tick from which the staged schedule may switch: that named, but never so early that the hypercycle before the switch has
already begun without `SWITCH` (R127). (DEDUCED, log entry 75) -/
def State.switchFrom (s : State) (p tick : Nat) : Nat :=
  let first := s.time.tick + 16
  match (s.port p).cur with
  | some o => max (max first tick) (o.nextHyper s.time.tick + 1)
  | none => max first tick

/-- A commit in a run mode (R127, R141, R445): the staged schedule waits for tick t in both modules, and every station has its new
configuration. (DEDUCED, log entry 75) -/
def State.commitSched (s : State) (rq : Rq) (p t : Nat) (c : Sched) : State :=
  let s := s.modPort p fun q => { q with staged := some (c, t), commitRq := some (rq.mb, rq.tag) }
  let s := (s.setBit (P.schedStatus p) 12 true).setBit (P.schedStatus p) 9 false
  let s := s.each c.addrs fun s a => s.sendConfig p a c .config
  let rel := s.paired
  let s := s.when rel fun s => { s with kpr.staged := s.kpr.staged ++
    [⟨t, [.schedule p t], some rq, 0x0304, true, false, false, s.sync.fseq⟩] }
  if rel || s.serving then
    let r := s.message 3 (leBytes 1 p)
    r.2.control 0x20 4 r.1 t
  else s

/-- SCHED_COMMIT (R127, R128, R453, R546): in HOLD, COMMISSION and SERVICE the staged schedule is current at once. (DEDUCED, log entry 62) -/
def execSchedCommit (rq : Rq) (port : U8) (tick : Nat) (s : State) : Res :=
  let p := port.toNat
  let m := s.sys.mode
  .next <| s.cmd rq 0x0304 [0] true (m.run || m == .hold || m == .commission || m == .service) fun s =>
    if m == .trail then s.relay rq 0x0304 ([port, 0, 0, 0] ++ leBytes 8 tick)
    else if 16 ≤ p then s.respond rq 0x0304 St.outOfRange 0 []
    else
      let c := s.schedule p
      let cause := s.schedCause p c
      let refuse (s : State) : State := (s.schedRefuse p cause).respond rq 0x0304 St.refused cause []
      if m.run then
        s.starting rq 0x0304 4 0 (some p) fun s =>
          if cause != 0 then refuse s
          else s.bg rq 0x0304 [] fun s => s.commitSched rq p (s.switchFrom p tick) c
      else if cause != 0 then refuse s
      else ((s.makeCurrent p c).setBit (P.schedStatus p) 9 false).respond rq 0x0304 St.ok 0 (leBytes 8 s.time.tick)

end Sys2Proof.Machine
end

