-- ==== Sys2Proof/Machine/ParamCmds.lean ====
section
/-!
DEFINITION. The mailbox commands on parameters and tables (R199, R279, R372 to R388, R438, R454 to R479, R495, R505, R506, R512, R513): what
a request is checked against, its reads, and the changes that it stages.
-/

namespace Sys2Proof.Machine

/-! ### What an item is (R464, R465, R468) -/

/-- Whether a parameter or a table is of the pair: pair configuration, or pair state that a command changes (R297, R445, R464). -/
def pairItem (id : Nat) : Bool :=
  match paramRow id with
  | some r => r.pair
  | none => match tableRow id with
    | some r => r.pair || r.state
    | none => false

/-- Whether clearing an item's counters changes pair state (R297, R445). (DEDUCED, log entry 77) -/
def pairClear (id : Nat) : Bool := [0x40C1, 0x50C3, 0x50C4].contains id

/-! ### Refusals (R454, R462) -/

/-- A write refused: the index of the first item refused is the detail, and its number and status are kept (R454, R462). -/
def State.refuseItem (s : State) (rq : Rq) (op index id status : Nat) : State :=
  (s.setWord P.sysRefuseLast (w32 (id * 65536 + status))).respond rq op status index []

/-- The first item that a check refuses, with its index. -/
def firstBad {α : Type} (l : List α) (f : α → Nat) : Option (Nat × α × Nat) :=
  (l.zipIdx.find? fun x => f x.1 != 0).map fun x => (x.2, x.1, f x.1)

/-- What a request does with items of the pair and of the module's own (R445, R465): a trail relays the former, carries out the latter,
and refuses a mixture. `own`: the first item of its own. -/
def State.byOwner (s : State) (rq : Rq) (op : Nat) (ids : List Nat) (pair : Nat → Bool) (payload : List Byte) (f : State → State) : State :=
  if s.sys.mode != .trail || !ids.any pair then f s
  else match ids.zipIdx.find? fun x => !pair x.1 with
    | some x => s.refuseItem rq op x.2 x.1 St.refused
    | none => s.relay rq op payload

/-! ### PARAM_READ (R454, R466, R468) -/

/-- One item of a read: its status, and its value. -/
def State.readItem (s : State) (id : Nat) : Nat × U32 :=
  if (paramRow id).isNone then (St.unknownId, 0)
  else if !s.available id then (St.unavailable, 0)
  else (St.ok, s.paramView id)

/-- PARAM_READ (R454, R466, R468). -/
def execParamRead (rq : Rq) (ids : List U16) (s : State) : Res :=
  .next <| s.cmd rq 0x0100 [0, 1, 2, 5, 6] false true fun s =>
    if ids.isEmpty || decide (256 < ids.length) then s.respond rq 0x0100 St.badLength 0 []
    else s.respond rq 0x0100 St.ok 0 (leBytes 8 s.evTick ++ ids.flatMap fun id =>
      let v := s.readItem id.toNat
      leBytes 2 id.toNat ++ leBytes 2 v.1 ++ leBytes 4 v.2.toNat)

/-! ### PARAM_WRITE (R127, R438, R462 to R467, R475, R477) -/

/-- The status of an item of a write on its own, or 0. The ranges of the SCHED parameters are checked at their commit (R127). (DEDUCED, log entry 77) -/
def State.writeItem (s : State) (id : Nat) (v : U32) : Nat :=
  match paramRow id with
  | none => St.unknownId
  | some r =>
    if r.acc == .ro then St.readOnly
    else if !s.available id then St.unavailable
    else if !hasBit r.modes s.sys.mode.num then St.wrongMode
    else if r.acc == .rw && id / 0x1000 != 3 && !r.range.ok v then St.outOfRange
    else 0

/-- A parameter's word once the items of a request are written. -/
def State.wordAfter (s : State) (items : List (Nat × U32)) (id : Nat) : U32 :=
  ((items.filter fun x => x.1 == id).getLast?.map (·.2)).getD (s.word id)

/-- Whether the thresholds of sensor n are well ordered (R477). -/
def threshOk (n : Nat) (wl wh al ah : U32) : Bool :=
  let own (v : U32) : Bool := v == w32 xcvrThr
  let lo (v : U32) : Bool := v != w32 noLo && !own v
  let hi (v : U32) : Bool := v != w32 noHi && !own v
  let sensor := n == 28 || n == 29
  (sensor || !(own wl || own wh || own al || own ah)) &&
    !(lo wl && lo al && decide (wl.toInt < al.toInt)) && !(hi wh && hi ah && decide (ah.toInt < wh.toInt)) &&
    !(lo wl && hi wh && decide (wh.toInt < wl.toInt)) && !(lo al && hi ah && decide (ah.toInt < al.toInt))

/-- Whether an address, mask and gateway suit a port (R473, R475). -/
def ipOk (addr mask gw : U32) : Bool :=
  let first := addr.toNat / 2 ^ 24
  let masks := (List.range 23).map fun i => 2 ^ 32 - 2 ^ (32 - (i + 8))
  addr != 0 && addr != 0xFFFFFFFF#32 && first != 127 && !(decide (224 ≤ first) && decide (first < 240)) && masks.contains mask.toNat &&
    (gw == 0 || gw &&& mask == addr &&& mask)

/-- What R475 and R477 ask of an item together with the rest of its request, or 0. -/
def State.writeJoint (s : State) (items : List (Nat × U32)) (id : Nat) : Nat :=
  let after := s.wordAfter items
  match sensKind id with
  | some (k, n) =>
    let w (k : Nat) : U32 := after (0xF000 + 0x20 * k + n)
    if 2 ≤ k ∧ k < 6 ∧ !threshOk n (w 2) (w 3) (w 4) (w 5) then St.outOfRange else 0
  | none =>
    let n := id / 0x100 % 16
    if id / 0x1000 = 0xE ∧ n < 2 ∧ 0x10 ≤ id % 0x100 ∧ id % 0x100 ≤ 0x12 then
      let a (i : Nat) : U32 := after (P.kprIpAddr i)
      let m (i : Nat) : U32 := after (P.kprIpMask i)
      let both := m 0 &&& m 1
      if !ipOk (a n) (m n) (after (P.kprIpGw n)) || a 0 &&& both == a 1 &&& both then St.outOfRange else 0
    else 0

/-- Whether an item is of class RESTART (R460). -/
def restartItem (id : Nat) : Bool := ((paramRow id).map fun r => r.cls == .restart && r.acc == .rw).getD false

/-- A RESTART write for which `SYS_PENDING` has no room (R463). -/
def State.restartFull (s : State) (items : List (Nat × U32)) (id : Nat) : Bool :=
  restartItem id &&
    decide (16 < ((s.restartList.map (·.1) ++ (items.filter fun x => restartItem x.1 && s.word x.1 != x.2).map (·.1)).eraseDups).length)

/-- An item as it is staged: bit 0 of `GUARD_ARM` arms (R513, R516). -/
def stagedParam (id : Nat) (v : U32) : List StagedItem :=
  if id / 0x1000 = 0xC ∧ id % 0x100 = 1 then (if v.getLsbD 0 then [.guardArm (id / 0x100 % 16)] else []) else [.param id v]

/-- The guards that a request arms show it (R513). -/
def State.armPending (s : State) (items : List StagedItem) : State :=
  s.each items fun s i => match i with
    | .guardArm n => s.setBit (P.guardStatus n) 15 true
    | _ => s

/-- A write accepted (R445, R462, R469): it waits for its effect tick, and its request entry with it. -/
def State.acceptWrite (s : State) (rq : Rq) (op : Nat) (pair : Bool) (items : List StagedItem) : State :=
  let s := s.inc P.sysWriteCnt
  if items.isEmpty then s.respond rq op St.ok 0 (leBytes 8 (s.time.tick + 1))
  else ((s.hold rq op).armPending items).stage (some rq) op pair items

/-- The status for which an item of a parameter write is refused, or 0. -/
def State.writeStatus (s : State) (rq : Rq) (items : List (Nat × U32)) (x : Nat × U32) : Nat :=
  if s.mb1Limited rq && (pairItem x.1 || restartItem x.1) then St.notPermitted
  else
    let a := s.writeItem x.1 x.2
    if a != 0 then a
    else
      let b := s.writeJoint items x.1
      if b != 0 then b else if s.restartFull items x.1 then St.outOfRange else 0

/-- A parameter write (R454, R462 to R465, R546). -/
def State.paramWrite (s : State) (rq : Rq) (op : Nat) (items : List (Nat × U32)) : State :=
  let ids := items.map (·.1)
  let payload := leBytes 2 items.length ++ [0, 0] ++ items.flatMap fun x => leBytes 2 x.1 ++ [0, 0] ++ leBytes 4 x.2.toNat
  match firstBad items (s.writeStatus rq items) with
  | some (i, x, st) => s.refuseItem rq op i x.1 st
  | none => s.byOwner rq op ids pairItem payload fun s =>
    let go (s : State) : State := s.acceptWrite rq op (ids.any pairItem) (items.flatMap fun x => stagedParam x.1 x.2)
    if items.any fun x => restartItem x.1 && s.word x.1 != x.2 then s.starting rq op 9 0 none go else go s

/-- PARAM_WRITE (R445, R454, R462). -/
def execParamWrite (rq : Rq) (items : List (U16 × U32)) (s : State) : Res :=
  .next <| s.cmd rq 0x0101 [0, 1] false true fun s =>
    if items.isEmpty || decide (64 < items.length) then s.respond rq 0x0101 St.badLength 0 []
    else s.paramWrite rq 0x0101 (items.map fun x => (x.1.toNat, x.2))

/-- GUARD_ARM (R513, R516): a write of 1 to `GUARD_ARM` of guard n. -/
def execGuardArm (rq : Rq) (n : Fin 16) (s : State) : Res :=
  .next <| s.cmd rq 0x0101 [0, 1] false true fun s => s.paramWrite rq 0x0101 [(0xC001 + 0x100 * n, 1)]

/-! ### TABLE_READ and TABLE_INFO (R454, R459) -/

/-- The bytes of consecutive entries as a response holds them. -/
def State.tableBytes (s : State) (tid first count words : Nat) : List Byte :=
  (List.range count).flatMap fun e => (List.range words).flatMap fun w => leBytes 4 (s.tableView tid (first + e) w).toNat

/-- TABLE_READ (R454, R459, R468). -/
def execTableRead (rq : Rq) (tid : U16) (first : U32) (count : U16) (s : State) : Res :=
  let t := tid.toNat
  .next <| s.cmd rq 0x0102 [0, 1, 2, 5, 6] false true fun s =>
    match tableRow t with
    | none => s.respond rq 0x0102 St.unknownId 0 []
    | some r =>
      let n := r.count t
      if count = 0 then s.respond rq 0x0102 St.badLength 0 []
      else if n < first.toNat + count.toNat then s.respond rq 0x0102 St.outOfRange (max first.toNat n) []
      else if !s.available t then s.respond rq 0x0102 St.unavailable 0 []
      else s.respond rq 0x0102 St.ok 0 (leBytes 8 s.evTick ++ leBytes 4 (4 * r.words) ++ leBytes 2 count.toNat ++
        s.tableBytes t first.toNat count.toNat r.words)

/-- TABLE_INFO (R459): bit 0 pair configuration, bit 1 writable. (DEDUCED, log entry 86) -/
def execTableInfo (rq : Rq) (tid : U16) (s : State) : Res :=
  .next <| s.cmd rq 0x0105 [0, 1, 2, 5, 6] false true fun s =>
    match tableRow tid.toNat with
    | none => s.respond rq 0x0105 St.unknownId 0 []
    | some r => s.respond rq 0x0105 St.ok 0
        (leBytes 4 (4 * r.words) ++ leBytes 4 (r.count tid.toNat) ++ leBytes 4 (r.pair.toNat + 2 * (!r.rw.isEmpty).toNat))

/-! ### TABLE_WRITE (R445, R454, R459) -/

/-- What an entry holds once it is written: the fields that are not writable keep their values. -/
def State.entryAfter (s : State) (r : TableRow) (tid e : Nat) (ws : List U32) : List U32 :=
  (List.range r.words).map fun w => (ws.getD w 0 &&& r.mask w) ||| (s.word (tkey tid e w) &&& ~~~ (r.mask w))

/-- A binary32 that is finite. -/
def finite32 (v : U32) : Bool := fieldOf v 30 23 != 0xFF

/-- Whether a channel's use and its entry of `PAIR_LOCAL` suit each other (R279): `use` is 0 unused, 1 an input, 2 an output. -/
def useOk (use : Nat) (w0 : U32) : Bool :=
  let rule := fieldOf w0 31 28
  let out := fieldOf w0 27 26
  match use with
  | 1 => rule != 0 && out == 0
  | 2 => rule == 0 && out != 0
  | _ => true

/-- The use of a digital or a current channel, from the first word of its configuration (R372, R373). -/
def dioUse (w0 : U32) : Nat := fieldOf w0 31 30
def clUse (w0 : U32) : Nat :=
  match fieldOf w0 31 29 with
  | 1 | 2 => 2
  | 3 | 4 => 1
  | _ => 0


/-- An entry of `PRG_FORCES` (R199). (DEDUCED, log entry 76) -/
def forceOk (ws : List U32) : Bool :=
  let w (i : Nat) : U32 := ws.getD i 0
  let off := (w 1).toNat
  let input := decide (off < 0x40000) && decide (off % 0x4000 < 0x1800) || decide (0x80000 ≤ off) && decide (off < 0x80270)
  let output := decide (0x40000 ≤ off) && decide (off < 0x80000) && decide (off % 0x4000 < 0x1800) ||
    decide (0x80400 ≤ off) && decide (off < 0x80430)
  !(w 0).getLsbD 31 || (off % 8 == 0 && (w 2 != 0 || w 3 != 0) && (if (w 0).getLsbD 30 then output else input))

/-- Codes of internal events (R387). -/
def eventCode (c : Nat) : Bool :=
  match c / 0x100 with
  | 1 | 2 | 3 => decide (c % 0x100 < 32)
  | 4 | 5 | 6 => decide (c % 0x100 < 16)
  | 7 => decide (c % 0x100 < 4)
  | 8 => decide (c % 0x100 < 6)
  | 9 => decide (c % 0x100 < 2)
  | n => decide (0x10 ≤ n) && decide (n < 0x14)

/-- An entry of `PAIR_LOCAL` (R279). -/
def State.pairLocalOk (s : State) (e : Nat) (w0 tol : U32) : Bool :=
  let use := if e < 16 then dioUse (s.word (tkey 0x80C0 e 0)) else clUse (s.word (tkey 0x80C1 (e - 16) 0))
  let rules := if e < 16 then [0, 1, 2, 3, 7, 8] else [0, 3, 4, 5, 6, 7, 8]
  rules.contains (fieldOf w0 31 28) && (decide (e < 16) || (finite32 tol && (!tol.getLsbD 31 || tol == 0x80000000#32))) && useOk use w0

/-- The status for a value outside its range, and for another rule broken. -/
def rangeSt (b : Bool) : Nat := if b then 0 else St.outOfRange
def ruleSt (b : Bool) : Nat := if b then 0 else St.refused

/-- An entry of `FIO_DIO_CFG` (R279, R372). -/
def State.dioEntry (s : State) (e : Nat) (w0 : U32) : Nat :=
  let per := fieldOf w0 9 0
  let a := rangeSt (decide (2 ≤ per) && decide (per ≤ 1000) && fieldOf w0 23 16 != 0 && dioUse w0 != 3)
  if a != 0 then a else ruleSt (useOk (dioUse w0) (s.word (plKey e 0)))

/-- An entry of `FIO_CL_CFG` (R279, R373). -/
def State.clEntry (s : State) (e : Nat) (w0 w1 w2 w3 : U32) : Nat :=
  let m := fieldOf w0 31 29
  let a := rangeSt (decide (m < 5) && decide (fieldOf w0 14 0 ≤ 32000) && finite32 w1 && finite32 w2 && finite32 w3)
  let source := m == 1 || m == 2
  if a != 0 then a
  else ruleSt (!(source && (w0.getLsbD 26 || w0.getLsbD 28)) && useOk (clUse w0) (s.word (plKey (16 + e) 0)))

/-- An entry of `ACQ_CU_CFG` (R381, R382). -/
def State.cuEntry (s : State) (e : Nat) (w1 w2 : U32) : Nat :=
  let st := s.fld (tkey 0x90C0 e 0) 31 29
  if st = 1 ∨ st = 2 then St.refused else rangeSt (decide (fieldOf w1 31 29 < 3) && decide (fieldOf w2 31 28 < 8))

/-- A region of `GUARD_SHADOW` (R505, R506). -/
def regionSt (n e : Nat) (ws : List U32) : Nat :=
  let g := regionOf ws
  if e < fwRegions n then St.readOnly else ruleSt (decide (g.base ≤ g.last))

/-- What the owner's rule says of entry e of a table as it would stand: 0, or the status for which it is refused (R156, R166, R199, R279,
R372, R373, R381, R385, R388, R495, R505). (DEDUCED, log entry 77) -/
def State.entryStatus (s : State) (base tid e : Nat) (ws : List U32) : Nat :=
  let w (i : Nat) : U32 := ws.getD i 0
  if base = 0x20C4 then rangeSt (fieldOf (w 0) 11 8 != 0)
  else if base = 0x40C0 then rangeSt (decide (fieldOf (w 0) 18 17 < 2) && fieldOf (w 0) 16 13 != 0)
  else if base = 0x40C2 then ruleSt (forceOk ws)
  else if base = 0x60C0 then ruleSt (s.pairLocalOk e (w 0) (w 1))
  else if base = 0x80C0 then s.dioEntry e (w 0)
  else if base = 0x80C1 then s.clEntry e (w 0) (w 1) (w 2) (w 3)
  else if base = 0x90C0 then s.cuEntry e (w 1) (w 2)
  else if base = 0x90C1 then
    rangeSt (decide (fieldOf (w 0) 31 29 < 6) && (fieldOf (w 0) 31 29 != 5 || eventCode (fieldOf (w 0) 15 0)))
  else if base = 0x90C2 then rangeSt (fieldOf (w 0) 31 30 != 3)
  else if base = 0xB8C0 then rangeSt (fieldOf (w 1) 7 6 != 3 && decide (fieldOf (w 1) 19 8 ≤ 1024))
  else if base = 0xC0C1 then regionSt ((tid - 0xC0C1) / 0x100) e ws
  else 0

/-- The first written region that would overlap another enabled one of guard n (R512): its index in the request, its number and its base. -/
def State.overlapIn (s : State) (n first : Nat) (entries : List (List U32)) : Option (Nat × Nat × Nat) :=
  let after (e : Nat) : Region :=
    if first ≤ e ∧ e < first + entries.length then regionOf (entries.getD (e - first) []) else s.shadowRegion n e
  (List.range entries.length).findSome? fun i =>
    let a := after (first + i)
    if (List.range (guardRegions n)).any fun e => e != first + i && a.overlaps (after e) then some (i, first + i, a.base) else none

/-- The writes of the entries of a table, word by word: those that the table lets be written. -/
def tableItems (r : TableRow) (tid first : Nat) (entries : List (List U32)) : List StagedItem :=
  entries.zipIdx.flatMap fun x => (r.rw.map (·.1)).filterMap fun w =>
    (x.1[w]?).map fun v => StagedItem.table tid (first + x.2) w v

/-- A table write whose size and place are right (R445, R454, R459). -/
def State.tableWrite (s : State) (rq : Rq) (r : TableRow) (tid first : Nat) (entries : List (List U32)) (payload : List Byte) : State :=
  let after := entries.zipIdx.map fun x => s.entryAfter r tid (first + x.2) x.1
  match firstBad after.zipIdx fun x => s.entryStatus r.base tid (first + x.2) x.1 with
  | some (i, _, st) => s.refuseItem rq 0x0103 i tid st
  | none =>
    let n := (tid - 0xC0C1) / 0x100
    match (if r.base = 0xC0C1 then s.overlapIn n first after else none) with
    | some (i, e, base) => (s.ruleFault n e base).refuseItem rq 0x0103 i tid St.refused
    | none => s.byOwner rq 0x0103 [tid] pairItem payload fun s =>
        s.acceptWrite rq 0x0103 (pairItem tid) (tableItems r tid first entries)

/-- TABLE_WRITE (R445, R454, R459): `entries` holds each entry's words. -/
def execTableWrite (rq : Rq) (tid : U16) (first : U32) (entries : List (List U32)) (s : State) : Res :=
  let t := tid.toNat
  let payload := leBytes 2 t ++ [0, 0] ++ leBytes 4 first.toNat ++ leBytes 2 entries.length ++
    entries.flatMap fun ws => ws.flatMap fun w => leBytes 4 w.toNat
  .next <| s.cmd rq 0x0103 [0, 1] false true fun s =>
    match tableRow t with
    | none => s.refuseItem rq 0x0103 0 t St.unknownId
    | some r =>
      let n := r.count t
      if r.rw.isEmpty then s.refuseItem rq 0x0103 0 t St.readOnly
      else if entries.isEmpty || entries.any fun ws => ws.length != r.words then s.refuseItem rq 0x0103 0 t St.badLength
      else if n < first.toNat + entries.length then s.refuseItem rq 0x0103 (max first.toNat n) t St.outOfRange
      else if s.mb1Limited rq && r.pair then s.refuseItem rq 0x0103 0 t St.notPermitted
      else if !s.available t then s.refuseItem rq 0x0103 0 t St.unavailable
      else if !hasBit r.modes s.sys.mode.num then s.refuseItem rq 0x0103 0 t St.wrongMode
      else s.tableWrite rq r t first.toNat entries payload

/-! ### CNT_CLEAR (R454, R467, R518) -/

/-- The status for which an item of `CNT_CLEAR` is refused, or 0. -/
def State.clearStatus (s : State) (id : Nat) : Nat :=
  match paramRow id, tableRow id with
  | none, none => St.unknownId
  | some r, _ =>
    if !r.counter || decide (id / 0x1000 = 0xC ∧ 0x11 ≤ id % 0x100 ∧ id % 0x100 ≤ 0x17) then St.readOnly
    else if s.available id then 0 else St.unavailable
  | none, some r => if r.clear.isEmpty then St.readOnly else if s.available id then 0 else St.unavailable

/-- CNT_CLEAR (R454, R467). -/
def execCntClear (rq : Rq) (ids : List U16) (s : State) : Res :=
  let l := ids.map (·.toNat)
  let payload := leBytes 2 l.length ++ [0, 0] ++ l.flatMap fun id => leBytes 2 id ++ [0, 0]
  .next <| s.cmd rq 0x0104 [0, 1] false true fun s =>
    if l.isEmpty then s.respond rq 0x0104 St.badLength 0 []
    else match firstBad l s.clearStatus with
      | some (i, id, st) => s.refuseItem rq 0x0104 i id st
      | none => s.byOwner rq 0x0104 l pairClear payload fun s =>
          s.acceptWrite rq 0x0104 (l.any pairClear) (l.map StagedItem.clear)

end Sys2Proof.Machine
end

