-- ==== Sys2Proof/Machine/Sessions.lean ====
section
/-!
DEFINITION. Sessions and keys (R436, R447 to R451, R453): opening and closing a session, the plant authority key and the revoked
serials, `ECHO`, and the loss of a connection.
-/

namespace Sys2Proof.Machine

/-- The external mailboxes (R436). -/
abbrev externals : List Nat := [0, 1, 2, 3, 5, 6]

/-- Whether roles of a certificate include the one that a mailbox requires (R436, R450). -/
def roleFor (mb roles : Nat) : Bool :=
  match mb with
  | 0 | 1 => hasBit roles 0
  | 2 => hasBit roles 1
  | 3 => hasBit roles 0 || hasBit roles 1
  | 5 => hasBit roles 2
  | 6 => hasBit roles 3
  | _ => false

/-- A session refused with `AUTH_FAIL` (R447, R473, R474). -/
def State.authFail (s : State) (rq : Rq) (op : Nat) : State :=
  (((s.inc P.kprAuthFail).setBit P.kprStatus 8 true).ev 5 "SESSION_REFUSED" [rq.mb]).respond rq op St.authFail 0 []

/-- The checks of R447 on a certificate, for a mailbox. Its period counts only while plant time has been set. -/
def State.certOk (s : State) (mb : Nat) (c : Cert) : Bool :=
  s.kpr.ownerKey.isSome && c.ok && !s.kpr.revoked.contains c.serial.toNat && roleFor mb c.roles.toNat &&
    (!s.bit P.timeStatus 5 || (decide (c.notBefore.toNat ≤ s.plant) && decide (s.plant ≤ c.notAfter.toNat)))

/-- SESSION_OPEN (R447): steps 1 and 2. `payload` is the request's, `secret` the shared secret of ML-KEM-1024, `answer` the data of the
final response: ciphertext, nonce, certificate and signature. (DESIGN CHOICE, log entries 80 and 82; DEDUCED, log entry 81) -/
def execSessionOpen (rq : Rq) (port : Fin 3) (cert : Cert) (payload secret answer : List Byte) (s : State) : Res :=
  .next <| s.cmd rq 0x0001 externals false true fun s =>
    if (payload.headD 0).toNat ≠ rq.mb.val then s.respond rq 0x0001 St.outOfRange 0 []
    else if s.kpr.sessions.any fun x => x.mb == rq.mb then s.respond rq 0x0001 St.busy 0 []
    else if !s.certOk rq.mb cert then s.authFail rq 0x0001
    else s.bg rq 0x0001 [] fun s =>
      let s := s.when (!s.bit P.timeStatus 5) fun s => s.ev 5 "VALIDITY_UNCHECKED" [rq.mb]
      let o : Opening :=
        { mb := rq.mb, port := port, roles := cert.roles.toNat, serial := cert.serial.toNat, secret := secret,
          transcript := payload ++ respBytes St.ok 0 answer }
      { s with kpr.openings := (s.kpr.openings.filter fun (x : Opening) => !(x.mb == rq.mb && x.port == port.val)) ++ [o] }.respond
        rq 0x0001 St.ok 0 answer

/-- SESSION_PROVE (R447, R448): steps 3 and 4. `payload` is the operator's signature, `sigOk` whether it verifies. (DEDUCED, log entry 81) -/
def execSessionProve (rq : Rq) (port : Fin 3) (payload : List Byte) (sigOk : Bool) (s : State) : Res :=
  .next <| s.cmd rq 0x0002 externals false true fun s =>
    match s.kpr.openings.find? fun o => o.mb == rq.mb && o.port == port.val with
    | none => s.respond rq 0x0002 St.noSession 0 []
    | some o =>
      let s := { s with kpr.openings := s.kpr.openings.filter fun (x : Opening) => x != o }
      if s.kpr.sessions.any fun x => x.mb == rq.mb then s.respond rq 0x0002 St.busy 0 []
      else if !sigOk then s.authFail rq 0x0002
      else
        let d := s.drawWord
        let n : U32 := if d.1 = 0 then 1 else d.1
        let hash := shake256 (o.transcript ++ payload) 64
        let x : Session :=
          { number := n, mb := rq.mb, roles := o.roles, serial := o.serial, keys := shake256 (o.secret ++ hash) 72, received := 0,
            sent := 0, idleMs := 0, openedAt := s.plant, port := port }
        let s := { d.2 with kpr.sessions := d.2.kpr.sessions ++ [x] }.ev 5 "SESSION_OPENED" [rq.mb, o.serial]
        s.respond rq 0x0002 St.ok 0 (leBytes 4 n.toNat ++ leBytes 4 rq.mb)

/-- SESSION_CLOSE (R448). -/
def execSessionClose (rq : Rq) (s : State) : Res :=
  .next <| s.cmd rq 0x0003 externals false true fun s => (s.respond rq 0x0003 St.ok 0 []).closeSession rq.mb

/-- ECHO (R453). -/
def execEcho (rq : Rq) (data : List Byte) (s : State) : Res :=
  .next <| s.cmd rq 0x0006 externals false true fun s => s.respond rq 0x0006 St.ok 0 data

/-- SESSION_EXPIRE (R448): 60 s without a message, 2^32 messages of a direction, or 24 h of plant time. -/
def execSessionExpire (mb : Fin 8) (s : State) : Res :=
  .next <|
    if s.kpr.sessions.any fun x => x.mb == mb && (decide (60000 ≤ x.idleMs) || decide (2 ^ 32 ≤ max x.received x.sent) ||
        decide (x.openedAt + 86400000000000 ≤ s.plant)) then s.closeSession mb
    else s

/-- CONNECTION_LOST (R442, R448). -/
def execConnectionLost (port : Fin 3) (mb : Fin 8) (s : State) : Res := .next <| s.connLost port mb

/-! ### Keys (R451) -/

/-- Whether an unowned module takes its first key now (R451): over ENG-A or ENG-B, within 60 s after the lever has been pulled out and
returned. -/
def State.firstKey (s : State) (rq : Rq) (port : Nat) : Bool :=
  rq.session == 0 && decide (port < 2) && !s.sys.leverOut && match s.sys.leverInAt with
    | some t => decide (s.kpr.now ≤ t + 60000)
    | none => false

/-- The plant authority key installed (R451). -/
def State.setOwner (s : State) (rq : Rq) (keyType : Nat) (key : List Byte) : State :=
  ({ s with kpr.ownerKey := some (keyType, key) }.ev 5 "KEY_INSTALLED" []).respond rq 0x0004 St.ok 0 []

/-- KEY_INSTALL (R451, R482): `sigOk`: the signature over the key verifies with the current key. (DEDUCED, log entry 83) -/
def execKeyInstall (rq : Rq) (port : Fin 3) (keyType : U32) (key : List Byte) (sigOk : Bool) (s : State) : Res :=
  .next <| s.cmd rq 0x0004 [0] false (s.sys.mode == .hold) fun s =>
    if key.length ≠ 64 then s.respond rq 0x0004 St.badLength 0 []
    else if keyType = 0 ∨ 2 < keyType.toNat then s.respond rq 0x0004 St.outOfRange 0 []
    else if s.kpr.ownerKey.isNone then
      if s.firstKey rq port then s.openHeadwater.setOwner rq keyType.toNat key else s.respond rq 0x0004 St.refused 0 []
    else match s.kpr.sessions.find? fun x => x.mb == rq.mb && x.number == rq.session with
      | none => s.respond rq 0x0004 St.noSession 0 []
      | some x =>
        if !hasBit x.roles 4 then s.respond rq 0x0004 St.notPermitted 0 []
        else if !sigOk then s.respond rq 0x0004 St.verifyFail 0 []
        else s.setOwner rq keyType.toNat key

/-- KEY_REVOKE (R451). (DEDUCED, log entry 83) -/
def execKeyRevoke (rq : Rq) (serial : U64) (s : State) : Res :=
  .next <| s.cmd rq 0x0005 [0] false true fun s =>
    if s.kpr.revoked.contains serial.toNat then s.respond rq 0x0005 St.ok 0 []
    else if 256 ≤ s.kpr.revoked.length then s.respond rq 0x0005 St.outOfRange 0 []
    else
      ({ s with kpr.revoked := s.kpr.revoked ++ [serial.toNat] }.ev 5 "KEY_REVOKED" [serial.toNat]).respond rq 0x0005 St.ok 0 []

end Sys2Proof.Machine
end

