-- ==== Sys2Proof/Machine/Keeper.lean ====
section
/-!
DEFINITION. What the Keeper does in steps 1 to 5 of a housekeeping period (R431): the sensors (R432 to R434, R476 to R480), the
supervision of the main domain (R435), the lamps (R268, R415), plant time (R35) and the life estimates (R573, R574); and the rows
that carry out what it finds.
-/

namespace Sys2Proof.Machine

/-! ### Sensors (R432, R433, R476 to R480) -/

/-- A threshold in force: kind 2 to 5 of sensor n; none where it tests no limit (R477). -/
def State.threshold (s : State) (p : Period) (k n : Nat) : Option Int :=
  let v := s.word (0xF000 + 0x20 * k + n)
  if v == w32 noLo && k % 2 == 0 || v == w32 noHi && k % 2 == 1 then none
  else if v == w32 xcvrThr then p.xcvr[(n - 28) * 4 + (k - 2)]?
  else some v.toInt

/-- A sample beyond a pair of limits, and whether on the low side (R477). -/
def beyond (lo hi : Option Int) (v : Int) : Bool × Bool :=
  let l := lo.any fun x => decide (v < x)
  (l || hi.any fun x => decide (x < v), l)

/-- A sample within a pair of limits with a margin of 2 % of each (R433). -/
def withinMargin (lo hi : Option Int) (v : Int) : Bool :=
  lo.all (fun x => decide (100 * x + 2 * x.natAbs ≤ 100 * v)) && hi.all fun x => decide (100 * v ≤ 100 * x - 2 * x.natAbs)

def State.sens (s : State) (n : Nat) : SensS := s.kpr.sensors.getD n SensS.fresh

def State.setSens (s : State) (n : Nat) (x : SensS) : State := { s with kpr.sensors := s.kpr.sensors.set n x }

/-- `LEVEL` of a sensor (R479). -/
def State.sensLevel (s : State) (n : Nat) : Nat := s.fld (0xF020 + n) 31 30

/-- `BEYOND` and `WITHIN` as they follow from the counts and the level (R479). (DEDUCED, log entry 87) -/
def State.sensCounts (s : State) (n : Nat) : State :=
  let x := s.sens n
  let l := s.sensLevel n
  let b := if l = 0 then x.warn else if l = 1 then x.alarm else 0
  let w := if l = 1 then x.inWarn else if l = 2 then x.inAlarm else 0
  (s.setFld (0xF020 + n) 15 8 (satNat 8 b)).setFld (0xF020 + n) 7 0 (satNat 8 w)

/-- An entry or an exit of a sensor (R433): the level, the hour, and the record. -/
def State.sensEnter (s : State) (n level : Nat) (low : Bool) (name : String) : State :=
  let s := (s.setFld (0xF020 + n) 31 30 level).setBit (0xF020 + n) 29 low
  let s := (s.setWord (0xF1A0 + n) (s.word P.sysHours)).ev 0 name [n, (s.word (0xF000 + n)).toNat]
  s.sensCounts n

/-- One sample of one sensor (R432, R433, R476). (DEDUCED, log entry 87) -/
def State.sample (s : State) (p : Period) (n : Nat) (v : Option Int) : State :=
  match v with
  | none =>
    let s := (s.setWord (0xF000 + n) 0x7FFFFFFF#32).setSens n SensS.fresh
    if s.sensLevel n = 3 then s
    else if s.sensLevel n = 0 then (s.setFld (0xF020 + n) 31 30 3).sensCounts n
    else s.sensEnter n 3 false "SENSOR_CLEAR"
  | some v =>
    let s := s.setWord (0xF000 + n) (sat32 v)
    let s := s.when (s.sensLevel n == 3) fun s => s.setFld (0xF020 + n) 31 30 0
    let s := s.when (decide ((sat32 v).toInt < (s.word (0xF100 + n)).toInt)) fun s => s.setWord (0xF100 + n) (sat32 v)
    let s := s.when (decide ((s.word (0xF120 + n)).toInt < (sat32 v).toInt)) fun s => s.setWord (0xF120 + n) (sat32 v)
    let t (k : Nat) : Option Int := s.threshold p k n
    let w := beyond (t 2) (t 3) v
    let a := beyond (t 4) (t 5) v
    let x := s.sens n
    let low := if a.1 then a.2 else if w.1 then w.2 else x.low
    (s.setSens n
      { warn := if w.1 then x.warn + 1 else 0
        alarm := if a.1 then x.alarm + 1 else 0
        inWarn := if withinMargin (t 2) (t 3) v then x.inWarn + 1 else 0
        inAlarm := if withinMargin (t 4) (t 5) v then x.inAlarm + 1 else 0
        low := low }).sensCounts n

/-- `CONSUMED` of a mechanism (R574). -/
def State.consumed (s : State) (e : Nat) : Nat := (s.word (tkey 0x00C3 e 3)).toNat

/-- S30 (R573): the largest `CONSUMED`, in 0.1 %. -/
def State.lifeSample (s : State) : Int := ((((List.range 5).map s.consumed).foldl max 0) / 1000 : Nat)

/-- The samples of a period, S30 among them. -/
def State.samples (s : State) (p : Period) : List (Option Int) :=
  (List.range 32).map fun n => if n = 30 then some s.lifeSample else (p.samples[n]?).join

/-- SENSOR_WARNING (R433, R477): 10 consecutive samples beyond the warning threshold. -/
def execSensorWarning (n : Fin 32) (s : State) : Res :=
  .next <|
    if s.sensLevel n == 0 && decide (10 ≤ (s.sens n).warn) then
      (s.inc (0xF140 + n)).sensEnter n 1 (s.sens n).low "SENSOR_WARNING"
    else s

/-- SENSOR_ALARM (R433): 10 consecutive samples beyond the alarm threshold. -/
def execSensorAlarm (n : Fin 32) (s : State) : Res :=
  .next <|
    if decide (s.sensLevel n < 2) && decide (10 ≤ (s.sens n).alarm) then
      (s.inc (0xF160 + n)).sensEnter n 2 (s.sens n).low "SENSOR_ALARM"
    else s

/-- SENSOR_CLEAR (R433): 100 consecutive samples within the threshold and its margin. A sensor that leaves an alarm is left in warning
while it has not been as long within the warning threshold. -/
def execSensorClear (n : Fin 32) (s : State) : Res :=
  .next <|
    let x := s.sens n
    if s.sensLevel n == 1 && decide (100 ≤ x.inWarn) then s.sensEnter n 0 false "SENSOR_CLEAR"
    else if s.sensLevel n == 2 && decide (100 ≤ x.inAlarm) then
      if 100 ≤ x.inWarn then s.sensEnter n 0 false "SENSOR_CLEAR" else s.sensEnter n 1 x.low "SENSOR_CLEAR"
    else s

/-! ### Supervision (R435) -/

/-- Whether the checks run: not in a reset of the main domain, nor in steps 1 to 3 of R424. -/
def State.supervised (s : State) : Bool := s.coreUp && !s.sys.boot.any fun k => decide (k ≤ 3)

/-- A count of consecutive periods in which a check failed. -/
def State.strike (s : State) (i : Nat) (failed : Bool) : State :=
  { s with kpr.supervise := s.kpr.supervise.set i (if failed then s.kpr.supervise.getD i 0 + 1 else 0) }

/-- Whether a check has failed in 3 consecutive periods. -/
def State.struck (s : State) (i : Nat) : Bool := decide (3 ≤ s.kpr.supervise.getD i 0)

/-- The liveness check of one EP: not while it is split or halted, nor outside the modes in which the runtime takes a digest in every tick. (DEDUCED, log entry 88) -/
def State.epCheck (s : State) (n : Nat) : State :=
  let e := s.eps.getD n EpS.fresh
  let on := s.sys.mode.run && !hasBit s.sys.split n && !e.halted && !hasBit s.sys.inits n
  let s := s.strike n.succ.succ (on && e.liveness == s.kpr.epTicks.getD n 0)
  { s with kpr.epTicks := s.kpr.epTicks.set n e.liveness }

/-- Step 2 (R435). (DEDUCED, log entry 88) -/
def State.supervise (s : State) (p : Period) : State :=
  let adv := s.time.tick - s.kpr.lastTick
  let s' := { s with kpr.lastTick := s.time.tick }
  if !s.supervised then { s' with kpr.supervise := List.replicate 6 0 }
  else
    let s := (s'.strike 0 (!(decide (79 ≤ adv) && decide (adv ≤ 81)))).strike 1 (!p.probe)
    let s := s.each (List.range 4) State.epCheck
    if s.struck 0 || s.struck 1 then { s with kpr.supervise := List.replicate 6 0 }.reset1 .wdt .mainDomain []
    else
      s.each (List.finRange 4) fun s n =>
        s.when (s.struck (n.val + 2)) fun s => (s.strike (n.val + 2) false).regionClose ⟨n.val, by omega⟩ .wdt

/-- KEEPER_WATCHDOG_EXPIRE (R416, R435). -/
def execKeeperWatchdogExpire (s : State) : Res := .next <| if s.sys.keeperUp then s.reset1 .wdt .module [] else s

/-! ### Lamps (R201, R268, R415) -/

/-- The lamps of a mode. -/
def State.lampsNow (s : State) : Lamps :=
  let f : Lamp := if s.warn then .flash 1 else .off
  let swap : Lamp := if s.swapReady then .steady else if s.bit P.pairStatus 20 then .flash 2 else .off
  let forced : Lamp := if s.word P.prgForceCount = 0 then .off else .steady
  let mk (run role : Lamp) (yellow : Bool) (fault : Lamp) : Lamps :=
    { run := run, role := role, roleYellow := yellow, fault := fault, forced := forced, swap := swap }
  if !s.sys.keeperUp then Lamps.off
  else if s.kpr.now < s.sys.lampTestUntil then
    { run := .steady, role := .steady, roleYellow := false, fault := .steady, forced := .steady, swap := .steady }
  else match s.sys.mode with
    | .boot => mk (.flash 4) .off false .off
    | .hold | .replay | .service => mk (.flash 1) .off false f
    | .listen => mk (.flash 1) (.flash 1) true f
    | .commission => mk (.flash 1) (.flash 4) false f
    | .standalone => mk .steady (.flash 1) false f
    | .lead => mk .steady .steady false f
    | .trail => mk .steady .steady true f
    | .resync => mk (.flash 1) (.flash 4) true f
    | .update => mk (.flash 4) .off false f
    | .faultSafe => mk .off .off false .steady

/-! ### Life estimates (R573, R574) -/

/-- Whether k/10^12 of the life is at most 2^(e/100) / 350,640. -/
def wearLe (e : Int) (k : Nat) : Bool :=
  let l := (k * 350640) ^ 100
  let r := (10 ^ 12) ^ 100
  if 0 ≤ e then decide (l ≤ r * 2 ^ e.toNat) else decide (l * 2 ^ e.natAbs ≤ r)

/-- 2^(e/100) / 350,640 in 1/10^12, rounded down. -/
def wearFloor (e : Int) : Nat :=
  ((List.range 48).reverse).foldl (fun k b => if wearLe e (k + 2 ^ b) then k + 2 ^ b else k) 0

/-- One hour's wear at a mean temperature, in 1/10^12: the mean, in 0.1 °C, lies between m and m + 1, and how the Keeper rounds is left
open, so the value between the two bounds is drawn afresh. -/
def State.wear (s : State) (m ref : Int) : Nat × State :=
  let lo := wearFloor (m - ref)
  let hi := wearFloor (m + 1 - ref) + 1
  let d := s.drawWord
  (lo + d.1.toNat % (hi - lo + 1), d.2)

/-- The hour's temperature sums: S6, and the highest of S0 to S4. (DEDUCED, log entry 89) -/
def ageAdd (l : List (Int × Nat)) (sm : List (Option Int)) : List (Int × Nat) :=
  let add (x : Int × Nat) (v : Option Int) : Int × Nat := match v with
    | some t => (x.1 + t, x.2 + 1)
    | none => x
  let die : Option Int := ((sm.take 5).filterMap id).foldl (fun m t => some (m.elim t (max t))) none
  [add (l.getD 0 (0, 0)) ((sm[6]?).join), add (l.getD 1 (0, 0)) die]

/-- One ageing mechanism advanced by the hour's mean. (DEDUCED, log entry 89) -/
def State.age (s : State) (e : Nat) (ref : Int) : State :=
  let x := s.kpr.ageSum.getD e (0, 0)
  if x.2 = 0 then s
  else
    let w := s.wear (Int.fdiv x.1 x.2) ref
    { w.2 with kpr.life := { w.2.kpr.life with
        aged := w.2.kpr.life.aged.set e (w.2.kpr.life.aged.getD e 0 + w.1)
        valid := w.2.kpr.life.valid.set e true } }

/-- `CONSUMED` of the five mechanisms, in 1/1,000,000. (DEDUCED, log entry 89) -/
def State.lifeNow (s : State) : List Nat :=
  [s.kpr.life.aged.getD 0 0 / 10 ^ 6, s.kpr.life.aged.getD 1 0 / 10 ^ 6,
   if (s.word 0xF019).toInt = 0x7FFFFFFF then s.consumed 2 else (s.word 0xF019).toInt.toNat * 1000,
   (s.word P.sysPowerCycles).toNat * 50, s.kpr.life.leverOuts * 2000]

/-- `SYS_LIFE` (R574). -/
def State.lifeWords (s : State) : State :=
  let l := s.lifeNow
  let old := s.kpr.life.hist.getD 720 []
  s.each (List.range 5) fun s e =>
    let c := satNat 32 (l.getD e 0)
    let rate := c - old.getD e 0
    let left := if rate = 0 then 0xFFFFFFFF else satNat 32 ((1000000 - c) * 720 / rate)
    s.setWords (tkey 0x00C3 e 0)
      [withField (withField 0 31 28 e) 27 27 (s.kpr.life.valid.getD e false).toNat, w32 left, w32 rate, w32 c]

/-- Step 5 (R573): at the end of an hour the ageing mechanisms advance and the save falls due. -/
def State.lifeStep (s : State) (sm : List (Option Int)) (hour : Bool) : State :=
  let s := { s with
    kpr.ageSum := ageAdd s.kpr.ageSum sm
    kpr.life.valid := s.kpr.life.valid.take 2 ++ [s.kpr.life.valid.getD 2 false || ((sm[25]?).join).isSome, true, true] }
  let s := if hour then
      let s := (s.age 0 700).age 1 950
      { s with kpr := { s.kpr with
          ageSum := [(0, 0), (0, 0)], lifeDue := true,
          life := { s.kpr.life with hist := (s.lifeNow :: s.kpr.life.hist).take 721 } } }
    else s
  s.lifeWords

/-- LIFE_SAVE (R573): every hour. -/
def execLifeSave (s : State) : Res :=
  .next <| if s.kpr.lifeDue then { s with kpr.lifeSaved := s.kpr.life, kpr.lifeDue := false } else s

end Sys2Proof.Machine
end

