-- ==== Sys2Proof/Machine/Pair.lean ====
section
/-!
DEFINITION. The commands of the pair (R248 to R269): withdrawal, divergence, takeover, handover, claims, and entry to STANDALONE.
-/

namespace Sys2Proof.Machine

/-- WITHDRAWAL (R249): the decision of an earlier tick takes effect. One that a pending lever or hardware cause outranks is
dropped (R413). -/
def execWithdrawal (s : State) : Res :=
  .next <| match s.pair.withdrawing with
    | none => s
    | some cause =>
      if cause = 0x0B ∧ s.pair.takeoverDue then s
      else match s.sys.pending with
      | some (_, c) =>
        if c.rank < 4 then { s with pair.withdrawing := none }.ev 0 "MODE_CAUSE_DROPPED" [cause] else s.withdraw cause
      | none => s.withdraw cause

/-- WITHDRAW (R249, R260, R262): the partner's notice. A trail takes over at the next boundary; a lead shows its partner ABSENT. -/
def execWithdraw (cause : U8) (s : State) : Res :=
  .next <|
    let s := s.ev 3 "PARTNER_WITHDRAWN" [cause.toNat]
    if s.sys.mode == .trail then { s with pair.takeoverDue := true }
    else if s.sys.mode == .lead then s.partnerGone
    else { s with pair.partner := .absent }

/-- VERDICT (R256): the partner's, for a divergence decided in tick k. One for a tick in which this module decided none is only
counted. -/
def execVerdict (fault : Bool) (k : Nat) (s : State) : Res :=
  .next <| match s.pair.resolution with
    | some r =>
      if r.tick = k then { s with pair.resolution := some { r with partnerFault := some fault } }
      else s.inc P.pairDivergeCnt
    | none => s.inc P.pairDivergeCnt

/-- DIVERGENCE_OUTCOME (R257, R258): at the boundary of tick k + 2. -/
def execDivergenceOutcome (s : State) : Res :=
  .next <| match s.pair.resolution with
    | none => s
    | some r =>
      if s.time.tick < r.tick + 2 then s
      else
        let own := r.ownFault.getD false
        let s := { s.setBit P.pairStatus 23 false with pair.resolution := none }
        let s := s.ev 3 "DIVERGENCE_OUTCOME" [own.toNat, (r.partnerFault.map fun b => 1 + b.toNat).getD 0]
        let drop := fun (s : State) => { s with pair.withdrawing := none }
        if own then (drop s).withdraw 2
        else match s.sys.mode, r.partnerFault with
          | .trail, some true => s.takeOver
          | .trail, some false => ((drop ((s.setBit P.pairStatus 16 true).inc P.pairUnresolvedCnt))).withdraw 3
          | .trail, none => { s with pair.waitLead := some r.tick }
          | _, _ => s

/-- TAKEOVER (R260, R261): decided in the exchange window before. -/
def execTakeover (s : State) : Res :=
  .next <| if s.pair.takeoverDue && s.sys.mode == .trail then s.takeOver else { s with pair.takeoverDue := false }

/-- HEARTBEAT_LOST (R263): no valid heartbeat for 8 consecutive ticks, this one included. -/
def execHeartbeatLost (s : State) : Res :=
  .next s.heartbeatLost

/-- LISTEN_ALONE_EXPIRE (R248, R250, R251): the module enters STANDALONE alone. -/
def execListenAloneExpire (s : State) : Res :=
  .next <|
    let ready := (List.range 16).all fun p => !s.used p || s.aloneReady p
    let told := s.word P.pairAutostart == 1#32 || s.sys.runStanding
    if s.sys.mode == .listen && s.alone && ready && told && s.sys.split == 0 && !s.bit P.chkStatus 14 then
      let s := s.takeClaim (s.highest + 2)
      let s := { s.clearPairWork with pair.partner := .absent }
      (s.enterMode .standalone 4).gaugeStart.startProgram.stnResume
    else s

/-- CLAIM_SUSPECT (R253): 16 consecutive cycles in which every PRESENT station of trunk p sent `OUT_HOLD`. (DEDUCED, log entry 60) -/
def execClaimSuspect (p : Fin 16) (s : State) : Res :=
  .next <|
    if (s.sys.mode == .standalone || s.sys.mode == .lead) && decide (16 ≤ (s.port p).outHoldRun) &&
        !hasBit s.pair.suspect p then
      { s.setBit P.pairStatus 18 true with pair.suspect := Sys2Proof.setBit s.pair.suspect p true }.ev 3 "CLAIM_SUSPECT" [p]
    else s

/-! ### Handover (R266, R267) -/

/-- HO_PROPOSE (R267): the trail, or the new module of a converted transfer, acknowledges. -/
def execHoPropose (x : Nat) (s : State) : Res :=
  .next <|
    let conv : Bool := match s.sync.resync with
      | some r => !r.lead && r.converted && r.readySent && s.sys.mode == .resync
      | none => false
    if (s.sys.mode == .trail && !s.bit P.pairStatus 23 && !s.bit P.pairStatus 25) || conv then
      let h : Handover := ⟨x, .acked, false, none⟩
      ({ s with pair.handover := some h }.setBit P.pairStatus 22 true).control 0x19 0 0 x
    else s

/-- HO_ACK (R267): by the exchange of X − 8 the lead confirms. -/
def execHoAck (x : Nat) (s : State) : Res :=
  .next <| match s.pair.handover with
    | some h =>
      if h.oldLead && h.x == x && h.phase == .proposed && decide (s.time.tick + 8 ≤ x) then
        { s with pair.handover := some { h with phase := .confirmed } }.control 0x1A 0 0 x
      else s
    | none => s

/-- HO_CONFIRM (R267). -/
def execHoConfirm (x : Nat) (s : State) : Res :=
  .next <| match s.pair.handover with
    | some h =>
      if !h.oldLead && h.x == x && decide (s.time.tick + 4 ≤ x) then
        { s with pair.handover := some { h with phase := .confirmed } }
      else s
    | none => s

/-- HO_ACK_TIMEOUT (R267): no ACK by the exchange of X − 8. -/
def execHoAckTimeout (s : State) : Res :=
  .next <| match s.pair.handover with
    | some h =>
      if h.oldLead && h.phase == .proposed && decide (h.x ≤ s.time.tick + 8) then
        (s.ev 3 "HANDOVER_ABANDONED" [h.x]).abandonHandover
      else s
    | none => s

/-- HO_CONFIRM_TIMEOUT (R267): a trail that sent ACK has no CONFIRM by the exchange of X − 4. With heartbeats heard it withdraws at
X with cause 0x08; with none in the 8 ticks before, it enters LEAD at X as after CONFIRM. -/
def execHoConfirmTimeout (s : State) : Res :=
  .next <| match s.pair.handover with
    | some h =>
      if !h.oldLead && h.phase == .acked && decide (h.x ≤ s.time.tick + 4) then
        if s.bit P.pairStatus 24 || decide (8 ≤ s.pair.hbMissed) then
          { s with pair.handover := some { h with phase := .confirmed } }
        else
          { s.setBit P.pairStatus 22 false with pair := { s.pair with handover := none, withdrawAt := some (h.x, 8) } }
      else s
    | none => s

/-- HANDOVER_TICK (R251, R267, R269): tick X. (DEDUCED, log entry 48) -/
def execHandoverTick (s : State) : Res :=
  .next <| match s.pair.handover with
    | none => s
    | some h =>
      if h.phase != .confirmed || decide (s.time.tick < h.x) then s
      else
        let s := (s.setBit P.pairStatus 22 false).inc P.pairHandoverCnt
        let after := s.pair.afterHandover
        let s := { s with pair := { s.pair with handover := none, afterHandover := none } }
        match s.sys.mode with
        | .lead =>
          let s := s.finish 0x0600 St.ok 0 (leBytes 8 h.x)
          let s := s.takeClaim (s.pair.claim + 1)
          let s := { s.enterMode .trail 4 with pair.partner := .lead }
          match after with
          | some c => { s with pair.withdrawAt := some (h.x + 1, c) }
          | none => s
        | .trail =>
          let s := s.takeClaim (s.word P.pairPartnerClaim + 2)
          let s := s.hearClaim s.pair.claim
          ({ s.enterMode .lead 4 with pair.partner := .trail }).stnResume
        | .standalone => s.withdraw 0x0B
        | .resync =>
          let s := s.takeClaim (s.word P.pairPartnerClaim + 2)
          let s := { s with sync := { s.sync with resync := none } }.setFld P.syncStatus 31 28 0
          ({ s.enterMode .standalone 4 with pair.partner := .absent }).stnResume
        | _ => s

/-- PAIR_HANDOVER (R266, R547). -/
def execPairHandover (rq : Rq) (s : State) : Res :=
  .next <| s.cmd rq 0x0600 [0] true (s.sys.mode == .lead) fun s =>
    if !s.mayHandover then s.respond rq 0x0600 St.refused 0 []
    else s.bg rq 0x0600 (leBytes 8 (s.time.tick + (s.word P.pairHandoverLead).toNat)) fun s => s.startHandover false

/-! ### Withdrawal, rejoining and the claim by command (R249, R253, R259) -/

/-- PAIR_WITHDRAW (R249). -/
def execPairWithdraw (rq : Rq) (s : State) : Res :=
  .next <| s.cmd rq 0x0601 [0] true s.sys.mode.run fun s =>
    if s.pair.withdrawing.isSome || s.sys.pending.isSome then s.respond rq 0x0601 St.busy 0 []
    else (s.decideWithdraw 0x0C).respond rq 0x0601 St.ok 0 (leBytes 8 (s.time.tick + 1))

/-- PAIR_REJOIN (R259, R309). -/
def execPairRejoin (rq : Rq) (s : State) : Res :=
  .next <| s.cmd rq 0x0602 [0] true (s.sys.mode == .listen) fun s =>
    { s.setBit P.pairStatus 19 false with
      pair.withdrawn03 := []
      sync.abandons := [] }.respond rq 0x0602 St.ok 0 []

/-- PAIR_CLAIM_RAISE (R253): in STANDALONE, or in LEAD with its partner ABSENT; effective at the next tick boundary. -/
def execPairClaimRaise (rq : Rq) (amount : U32) (s : State) : Res :=
  .next <| s.cmd rq 0x0603 [0] true
    (s.sys.mode == .standalone || (s.sys.mode == .lead && s.pair.partner == .absent)) fun s =>
      if amount.toNat < 2 ∨ 0x10000000 < amount.toNat then s.respond rq 0x0603 St.outOfRange 0 []
      else s.stage (some rq) 0x0603 false [.claim amount]

end Sys2Proof.Machine
end

