-- ==== Sys2Proof/Machine/Recorder.lean ====
section
/-!
DEFINITION. The recorder's commands (R489, R493, R496 to R498).
-/

namespace Sys2Proof.Machine

/-- TOKEN_REFILL (R489): the tokens that are due. -/
def execTokenRefill (s : State) : Res :=
  .next ((s.each s.recorder.buckets fun s b =>
    let code : U16 := BitVec.ofNat 16 b.1
    s.setBucket (b.1 / 65536) code (s.bucket (b.1 / 65536) code)).floodSums)

/-- RECORDER_SCAN (R493): due every `REC_SCAN_HOURS`, or at a `REC_SCAN` that waits. `upsets`: records, by channel and sequence
number, whose words in MRAM have changed. -/
def execRecorderScan (upsets : List (Fin 8 × Nat)) (s : State) : Res :=
  .next <|
    let s := s.each upsets fun s u => s.recUpset u.1 u.2
    let due := decide ((s.word P.recScanLast).toNat + (s.word P.recScanHours).toNat ≤ (s.word P.sysHours).toNat)
    if due || (s.background 0x0B04).isSome then s.recScan.finish 0x0B04 St.ok 0 [] else s

/-- The reply to `REC_READ` (R496): the records from the first number that is held, consecutive, up to the count. -/
def State.recReply (s : State) (c first count : Nat) : List Byte :=
  let next := s.recNext c
  let lo := recOldest next
  let start := if first < 512 ∧ s.hwOpen c then first else max lo first
  let seqs := (List.range count).map (start + ·)
  let take := (seqs.filter fun n => decide (n < next)).takeWhile fun n => decide (n < 512) || decide (512 < lo → start ≥ 512)
  let recs := take.map fun n => (n, s.recAt c n)
  let bad := recs.zipIdx.foldl (fun m (x : (Nat × Rec) × Nat) => if x.1.2.validFor x.1.1 then m else m + 2 ^ x.2) 0
  leBytes 8 next ++ leBytes 8 start ++ leBytes 2 take.length ++ leBytes 2 0 ++ leBytes 8 bad ++
    recs.flatMap fun x => x.2.bytes

/-- REC_READ (R496). -/
def execRecRead (rq : Rq) (chan : U8) (count : U16) (first : U64) (s : State) : Res :=
  .next <| s.cmd rq 0x0B00 [0, 1, 2] false true fun s =>
    if 8 ≤ chan.toNat ∨ count = 0 ∨ 63 < count.toNat then s.respond rq 0x0B00 St.outOfRange 0 []
    else s.respond rq 0x0B00 St.ok 0 (s.recReply chan.toNat first.toNat count.toNat)

/-- REC_SUBSCRIBE (R497): the session's subscription is replaced. -/
def execRecSubscribe (rq : Rq) (mask : U8) (s : State) : Res :=
  .next <| s.cmd rq 0x0B01 [0, 1, 2] false true fun s =>
    if 3 ≤ rq.mb.val then s.respond rq 0x0B01 St.notPermitted 0 []
    else
      let s := { s with recorder.subs := s.recorder.subs.set rq.mb.val mask.toNat }
      let s := s.each (List.range 8) fun s c => s.setBit (P.recSubscribers c) rq.mb.val (hasBit mask.toNat c)
      s.respond rq 0x0B01 St.ok 0 []

/-- REC_USER (R498). -/
def execRecUser (rq : Rq) (code : U16) (sev count : U8) (key : U16) (vals : List U32) (s : State) : Res :=
  .next <| (s.when (!rq.onAny [0, 1, 2]) fun s => s.inc P.recUserRefused).cmd rq 0x0B03 [0, 1, 2] false true fun s =>
    if !isUser code || decide (2 < sev.toNat) || decide (12 < count.toNat) || decide (4095 < key.toNat) then
      (s.inc P.recUserRefused).respond rq 0x0B03 St.outOfRange 0 []
    else if vals.length ≠ count.toNat then (s.inc P.recUserRefused).respond rq 0x0B03 St.badLength 0 []
    else
      let r : Raised := ⟨7, .fixed code, s.evTick, vals, some (sev.toNat, key.toNat)⟩
      let s := { s with recorder.raised := s.recorder.raised ++ [r] }
      (s.inc P.recUserCnt).respond rq 0x0B03 St.ok 0 []

/-- REC_SCAN (R493): in the background; the scan is RECORDER_SCAN. -/
def execRecScan (rq : Rq) (s : State) : Res :=
  .next <| s.cmd rq 0x0B04 [0, 1] false true fun s => s.bg rq 0x0B04 [] fun s => s

end Sys2Proof.Machine
end

