-- ==== Sys2Proof/Machine/Mailbox.lean ====
section
/-!
DEFINITION. The mailboxes (R436 to R445, R449, R453): a message received, a queued request read as its command, and the order in which
requests are executed.
-/

namespace Sys2Proof.Machine

/-! ### Receiving (R436, R439, R440, R442, R448, R449) -/

/-- Whether a port takes messages for a mailbox (R436, R473, R475, R526): the service port only in SERVICE, an ENG port by
`KPR_MBX_MASK` or an open connection, and in recovery the update mailbox alone. -/
def State.portServes (s : State) (port mb : Nat) : Bool :=
  externals.contains mb && (!s.bit P.imgStatus 10 || (mb == 6 && port != 2)) &&
    if port = 2 then s.sys.mode == .service && (mb == 0 || mb == 5)
    else s.bit P.kprMbxMask (8 * port + mb) || s.kpr.connections.any fun x => x.1 == port && x.2.val == mb

/-- A segment added to a request entry: the last one completes it (R440). (DESIGN CHOICE, log entry 80) -/
def State.addSegment (s : State) (q : MbReq) (more : Bool) (payload : List Byte) : State :=
  let q' := { q with payload := q.payload ++ payload, parts := q.parts + 1, open_ := more, received := s.kpr.now }
  let s := { s with kpr.reqs := (s.kpr.reqs.filter fun (r : MbReq) => r != q) ++ [q'] }
  if 64 < q'.parts then s.respond q.rq q.opcode St.badLength 0 [] else s

/-- A message taken into its entry. A message that comes between the segments of another ends that one. (DESIGN CHOICE, log entries 80 and 82) -/
def State.takeMessage (s : State) (rq : Rq) (port opcode : Nat) (more : Bool) (payload : List Byte) : State :=
  let part (r : MbReq) : Bool := r.rq.mb == rq.mb && r.port == port && r.open_
  match s.kpr.reqs.find? fun r => part r && r.rq == rq && r.opcode == opcode with
  | some q => s.addSegment q more payload
  | none =>
    let s := { s with kpr.reqs := s.kpr.reqs.filter fun (r : MbReq) => !part r }
    { s with kpr.reqs := s.kpr.reqs ++
        [{ rq := rq, opcode := opcode, payload := payload, port := port, open_ := more, background := false, started := false,
           parts := 1, received := s.kpr.now }] }

/-- The opcodes accepted with `SESSION` = 0 (R449, R451). -/
def State.openOpcode (s : State) (opcode : Nat) : Bool :=
  opcode == 1 || opcode == 2 || (opcode == 4 && s.kpr.ownerKey.isNone)

/-- MAILBOX_MESSAGE_RECEIVE (R439, R440, R442, R448, R449): `gcmOk`: the GCM tag of a message of a session is right; `payload` is what
was encrypted. -/
def execMailboxMessageReceive (port : Fin 3) (mb : Fin 8) (opcode tag : U16) (session : U32) (more gcmOk : Bool) (payload : List Byte)
    (s : State) : Res :=
  let rq : Rq := { mb := mb, tag := tag, session := session }
  let full := 16 ≤ (s.kpr.reqs.filter fun r => r.rq.mb == mb && !r.open_).length
  let conn : Nat × Fin 8 := (port.val, mb)
  .next <|
    if !s.sys.keeperUp || !s.portServes port mb || decide full then s
    else
      let s := s.when (!s.kpr.connections.contains conn) fun s => { s with kpr.connections := s.kpr.connections ++ [conn] }
      if session = 0 then
        if !s.openOpcode opcode.toNat then s.respond rq opcode.toNat St.noSession 0 []
        else if 4096 < payload.length then s.respond rq opcode.toNat St.badLength 0 []
        else s.takeMessage rq port opcode.toNat more payload
      else
        let mine (x : Session) : Bool := x.mb == mb && x.number == session && x.port == port.val
        if !s.kpr.sessions.any mine then s.respond rq opcode.toNat St.noSession 0 []
        else if !gcmOk then s.closeSession mb
        else
          let count (x : Session) : Session := if mine x then { x with received := x.received + 1, idleMs := 0 } else x
          let s := { s with kpr.sessions := s.kpr.sessions.map count }
          if 4096 < payload.length then s.respond rq opcode.toNat St.badLength 0 []
          else s.takeMessage rq port opcode.toNat more payload

/-! ### A request as its command (R453, R454, R498, R540) -/

/-- The state that an outcome answers. -/
def Res.after (r : Res) (s : State) : State := match r with
  | .next t => t
  | _ => s

/-- The n bytes of a payload from an offset, as a number. -/
def le (p : List Byte) (off n : Nat) : Nat := ofLe ((p.drop off).take n)

abbrev le8 (p : List Byte) (off : Nat) : U8 := p.getD off 0
abbrev le16 (p : List Byte) (off : Nat) : U16 := BitVec.ofNat 16 (le p off 2)
abbrev le32 (p : List Byte) (off : Nat) : U32 := BitVec.ofNat 32 (le p off 4)
abbrev le64 (p : List Byte) (off : Nat) : U64 := BitVec.ofNat 64 (le p off 8)

/-- A command of a payload of the right length; else `BAD_LENGTH`. -/
def State.need (s : State) (q : MbReq) (ok : Bool) (f : State → Res) : State :=
  if ok then (f s).after s else s.respond q.rq q.opcode St.badLength 0 []

/-- A command with a payload of n bytes. -/
def State.sized (s : State) (q : MbReq) (n : Nat) (f : State → Res) : State := s.need q (q.payload.length == n) f

/-- A command with a payload of n bytes whose first names something of which there are m. -/
def State.named (s : State) (q : MbReq) (n m : Nat) (f : Fin m → State → Res) : State :=
  s.sized q n fun s =>
    let x := (q.payload.headD 0).toNat
    if h : x < m then f ⟨x, h⟩ s else .next (s.respond q.rq q.opcode St.outOfRange 0 [])

/-- The counted items of a payload: their count in bytes 0 and 1, each of w bytes from byte 4. -/
def items (p : List Byte) (w : Nat) : List (List Byte) := (List.range (le p 0 2)).map fun i => (p.drop (4 + w * i)).take w

def State.reqSession (s : State) (q : MbReq) (f : Option ReqFact) : State :=
  let p := q.payload
  let n := p.length
  let port : Fin 3 := Fin.ofNat 3 q.port
  let signed : Bool := match f with
    | some (.signed b) => b
    | _ => false
  match q.opcode, f with
  | 0x0001, some (.opening ok secret answer) => s.need q (n == 31560 || n == 51624) fun s =>
      execSessionOpen q.rq port
        { serial := le64 p 1608, roles := le32 p 1616, notBefore := le64 p 1620, notAfter := le64 p 1628,
          ok := ok && le32 p 1604 == 1 } p secret answer s
  | 0x0002, _ => s.need q (n == 29792 || n == 49856) fun s => execSessionProve q.rq port p signed s
  | 0x0003, _ => s.sized q 0 (execSessionClose q.rq)
  | 0x0004, _ => s.need q (decide (68 ≤ n)) fun s => execKeyInstall q.rq port (le32 p 0) ((p.drop 4).take 64) signed s
  | 0x0005, _ => s.sized q 8 (execKeyRevoke q.rq (le64 p 0))
  | 0x0006, _ => s.need q true (execEcho q.rq p)
  | _, _ => s.respond q.rq q.opcode St.unknownOpcode 0 []

/-- The entries of a `TABLE_WRITE`, from byte 10, each of the table's words. (DEDUCED, log entry 86) -/
def tableEntries (p : List Byte) (words : Nat) : List (List U32) :=
  (List.range (le p 8 2)).map fun e => (List.range words).map fun w => le32 p (10 + 4 * (words * e + w))

def State.reqParam (s : State) (q : MbReq) : State :=
  let p := q.payload
  let n := p.length
  match q.opcode with
  | 0x0100 => s.need q (n == 4 + 2 * le p 0 2) (execParamRead q.rq ((items p 2).map fun x => le16 x 0))
  | 0x0101 => s.need q (n == 4 + 8 * le p 0 2) (execParamWrite q.rq ((items p 8).map fun x => (le16 x 0, le32 x 4)))
  | 0x0102 => s.sized q 10 (execTableRead q.rq (le16 p 0) (le32 p 4) (le16 p 8))
  | 0x0103 =>
    let words := ((tableRow (le p 0 2)).map (·.words)).getD 0
    s.need q (decide (10 ≤ n) && (words == 0 || n == 10 + 4 * words * le p 8 2))
      (execTableWrite q.rq (le16 p 0) (le32 p 4) (tableEntries p words))
  | 0x0104 => s.need q (n == 4 + 4 * le p 0 2) (execCntClear q.rq ((items p 4).map fun x => le16 x 0))
  | 0x0105 => s.sized q 2 (execTableInfo q.rq (le16 p 0))
  | _ => s.respond q.rq q.opcode St.unknownOpcode 0 []

/-- A trail's request to enter UPDATE or to restart for a proof, in its lead (R547): the activity is checked, and taken as the partner's. (DEDUCED, log entry 85) -/
def State.partnerActivity (s : State) (rq : Rq) (op a : Nat) : State :=
  match s.conflict a false none with
  | some b => s.refuseConflict rq op 0 b
  | none => ({ s with maint.partner := Nat.lor s.maint.partner (2 ^ a) }.maintRefresh).respond rq op St.ok 0 []

def State.reqMode (s : State) (q : MbReq) : State :=
  let p := q.payload
  match q.opcode with
  | 0x0200 => s.sized q 0 (execModeRun q.rq)
  | 0x0201 =>
    if q.rq.mb = 4 then s.partnerActivity q.rq 0x0201 2 else s.sized q 4 (execModeRequest q.rq (le8 p 0))
  | 0x0202 => s.sized q 4 (execSysRestart q.rq (le32 p 0))
  | 0x0203 => s.sized q 4 (execSysRegionReset q.rq (le8 p 0))
  | 0x0204 => s.sized q 8 (execTimeStep q.rq (le64 p 0))
  | _ => s.respond q.rq q.opcode St.unknownOpcode 0 []

def State.reqTrunk (s : State) (q : MbReq) : State :=
  let p := q.payload
  let n := p.length
  match q.opcode with
  | 0x0300 => s.need q (n == 4 || (decide (8 ≤ n) && n == 8 + le p 4 2)) (execTrkCommission q.rq (le8 p 0) (le8 p 1) (p.drop 8))
  | 0x0301 => s.sized q 4 (execTrkTdr q.rq (le8 p 0))
  | 0x0302 => s.sized q 8 (execTrkAssign q.rq (le8 p 0) (le8 p 1) (le32 p 4))
  | 0x0303 => s.sized q 8 (execTrkRelease q.rq (le8 p 0) (le32 p 4))
  | 0x0304 => s.sized q 12 (execSchedCommit q.rq (le8 p 0) (le p 4 8))
  | _ => s.respond q.rq q.opcode St.unknownOpcode 0 []

def State.reqPrg (s : State) (q : MbReq) (f : Option ReqFact) : State :=
  let p := q.payload
  match q.opcode, f with
  | 0x0400, some (.change pkg signed) => s.sized q 32 (execPrgChangeStage q.rq p pkg signed)
  | 0x0401, _ => s.sized q 8 (execPrgChangeCommit q.rq (le p 0 8))
  | 0x0402, _ => s.sized q 0 (execPrgChangeDiscard q.rq)
  | 0x0403, _ => s.sized q 0 (execPrgForceCommit q.rq)
  | 0x0404, _ => s.sized q 0 (execPrgForceClear q.rq)
  | 0x0405, _ => s.sized q 4 (execPrgTaskResume q.rq (le8 p 0))
  | 0x0406, _ => s.need q (decide (p.length ≤ 4096)) (execPrgMsgSend q.rq p)
  | _, _ => s.respond q.rq q.opcode St.unknownOpcode 0 []

def State.reqPair (s : State) (q : MbReq) : State :=
  let p := q.payload
  match q.opcode with
  | 0x0600 => s.sized q 0 (execPairHandover q.rq)
  | 0x0601 => s.sized q 0 (execPairWithdraw q.rq)
  | 0x0602 => s.sized q 0 (execPairRejoin q.rq)
  | 0x0603 => s.sized q 4 (execPairClaimRaise q.rq (le32 p 0))
  | _ => s.respond q.rq q.opcode St.unknownOpcode 0 []

def State.reqCheck (s : State) (q : MbReq) : State :=
  let p := q.payload
  let n := p.length
  match q.opcode with
  | 0x0700 =>
    if q.rq.mb = 4 then s.partnerActivity q.rq 0x0700 5 else s.sized q 0 (execChkProofRestart q.rq)
  | 0x0701 => s.sized q 0 (execChkFaultClear q.rq)
  | 0x0710 => s.sized q 4 (execDbgHalt q.rq (le8 p 0))
  | 0x0711 => s.sized q 4 (execDbgResume q.rq (le8 p 0))
  | 0x0712 => s.sized q 4 (execDbgStep q.rq (le8 p 0) (le16 p 2))
  | 0x0713 => s.sized q 8 (execDbgRegRead q.rq (le8 p 0) (le16 p 2) (le16 p 4))
  | 0x0714 => s.sized q 12 (execDbgRegWrite q.rq (le8 p 0) (le16 p 2) (le64 p 4))
  | 0x0715 => s.sized q 16 (execDbgMemRead q.rq (le8 p 0) (le64 p 4) (le32 p 12))
  | 0x0716 => s.need q (decide (12 ≤ n)) (execDbgMemWrite q.rq (le8 p 0) (le64 p 4) (p.drop 12))
  | 0x0717 => s.sized q 12 (execDbgBreak q.rq (le8 p 0) (le8 p 1) (le16 p 2) (le64 p 4))
  | 0x0718 => s.sized q 4 (execDbgReset q.rq (le32 p 0))
  | 0x0719 => s.sized q 12 (execDbgTraceRead q.rq (le64 p 0) (le32 p 8))
  | _ => s.respond q.rq q.opcode St.unknownOpcode 0 []

def State.reqFio (s : State) (q : MbReq) : State :=
  let p := q.payload
  match q.opcode with
  | 0x0800 => s.named q 8 24 fun c => execFioManual q.rq c (le32 p 4)
  | 0x0801 => s.named q 4 6 (execFioGroupAck q.rq)
  | 0x0802 => s.named q 4 8 (execFioHartScan q.rq)
  | 0x0803 => s.named q (12 + (le8 p 2).toNat) 8 fun c => execFioHartXfer q.rq c (le8 p 1) ((p.drop 4).take 5) (p.drop 12)
  | _ => s.respond q.rq q.opcode St.unknownOpcode 0 []

def State.reqAcq (s : State) (q : MbReq) (f : Option ReqFact) : State :=
  let p := q.payload
  match q.opcode, f with
  | 0x0900, _ => s.named q 4 4 (execAcqArm q.rq)
  | 0x0901, some (.segment d) => s.named q 4 4 fun u => execAcqStop q.rq u d
  | 0x0902, _ => s.named q 4 16 (execAcqTrigger q.rq)
  | 0x0903, _ => s.named q 10 4 fun u => execAcqExport q.rq u (le32 p 4) (le16 p 8)
  | 0x0A00, _ => s.sized q 0 (execGaugeMark q.rq)
  | 0x0A01, _ => s.named q 4 8 fun k => execGaugeProtect q.rq k ((le8 p 1).getLsbD 0)
  | 0x0A02, _ => s.named q 16 8 fun k s =>
      if h : le p 12 4 < 262141 then execGaugeExport q.rq k (le p 4 8) ⟨le p 12 4, h⟩ s
      else .next (s.respond q.rq q.opcode St.outOfRange 0 [])
  | 0x0A10, some (.window win signed) => s.sized q 32 (execReplayLoad q.rq p signed win)
  | 0x0A11, _ => s.named q 12 8 fun k => execReplayStart q.rq k (le p 4 8)
  | 0x0A12, _ => s.sized q 0 (execReplayStop q.rq)
  | _, _ => s.respond q.rq q.opcode St.unknownOpcode 0 []

def State.reqRec (s : State) (q : MbReq) : State :=
  let p := q.payload
  let n := p.length
  match q.opcode with
  | 0x0B00 => s.sized q 12 (execRecRead q.rq (le8 p 0) (le16 p 2) (le64 p 4))
  | 0x0B01 => s.sized q 4 (execRecSubscribe q.rq (le8 p 0))
  | 0x0B03 => s.need q (decide (8 ≤ n) && n % 4 == 0)
      (execRecUser q.rq (le16 p 0) (le8 p 2) (le8 p 3) (le16 p 4) ((List.range ((n - 8) / 4)).map fun i => le32 p (8 + 4 * i)))
  | 0x0B04 => s.sized q 0 (execRecScan q.rq)
  | _ => s.respond q.rq q.opcode St.unknownOpcode 0 []

def State.reqImg (s : State) (q : MbReq) (f : Option ReqFact) : State :=
  let p := q.payload
  match q.opcode, f with
  | 0x0D00, _ => s.sized q 44 (execImgXferOpen q.rq (le8 p 0) (le64 p 4) (p.drop 12))
  | 0x0D01, _ => s.need q (decide (16 ≤ p.length)) (execImgXferData q.rq (le32 p 0) (le64 p 8) (p.drop 16))
  | 0x0D02, _ => s.sized q 4 (execImgXferClose q.rq (le32 p 0))
  | 0x0D03, _ => s.sized q 32 (execImgXferDrop q.rq p)
  | 0x0D04, some (.signed b) => s.sized q 32 (execImgStage q.rq p b)
  | 0x0D05, _ => s.sized q 0 (execImgChamberClear q.rq)
  | 0x0D06, _ => s.sized q 0 (execImgActivate q.rq)
  | 0x0D07, _ => s.sized q 0 (execImgConfirm q.rq)
  | 0x0D08, _ => s.sized q 0 (execImgRevert q.rq)
  | 0x0D09, some (.install pkg words signed) => s.sized q 32 (execImgInstall q.rq p signed pkg words)
  | 0x0D10, some (.attest sig) => s.sized q 32 (execAttest q.rq p sig)
  | 0x0D11, _ => s.sized q 0 (execIdentityRead q.rq)
  | 0x0D18, some (.station pkg signed) => s.sized q 32 (execStnStage q.rq p signed pkg)
  | 0x0D19, _ => s.named q 4 16 (execStnStart q.rq)
  | 0x0D1A, _ => s.named q 4 16 (execStnStop q.rq)
  | 0x0D1B, _ => s.sized q 32 (execStnDiscard q.rq p)
  | _, _ => s.respond q.rq q.opcode St.unknownOpcode 0 []

/-- A queued request executed (R443, R453). In recovery the boot loader accepts sessions, transfer, staging and activation only (R526). (DEDUCED, log entry 84) -/
def State.runReq (s : State) (q : MbReq) (f : Option ReqFact) : State :=
  let g := q.opcode / 0x100
  if s.bit P.imgStatus 10 && !(g == 0 || (g == 0xD && decide (q.opcode ≤ 0x0D06))) then s.respond q.rq q.opcode St.notPermitted 0 []
  else if g = 0x0 then s.reqSession q f
  else if g = 0x1 then s.reqParam q
  else if g = 0x2 then s.reqMode q
  else if g = 0x3 then s.reqTrunk q
  else if g = 0x4 then s.reqPrg q f
  else if g = 0x6 then s.reqPair q
  else if g = 0x7 then s.reqCheck q
  else if g = 0x8 then s.reqFio q
  else if g = 0x9 ∨ g = 0xA then s.reqAcq q f
  else if g = 0xB then s.reqRec q
  else if g = 0xD then s.reqImg q f
  else s.respond q.rq q.opcode St.unknownOpcode 0 []

/-! ### The order of execution (R443, R444) -/

/-- The commands whose outcome needs something from outside (log entry 1). -/
def needsFact : List Nat := [0x0001, 0x0002, 0x0400, 0x0901, 0x0A10, 0x0D04, 0x0D09, 0x0D10, 0x0D18]

def Period.fact (p : Period) (q : MbReq) : Option ReqFact :=
  (p.facts.find? fun x => x.1 == q.rq.mb && x.2.1 == q.rq.tag).map fun x => x.2.2

/-- The next request of a mailbox: the first received that has not begun, when no direct one is being executed, and a response entry is
free (R442, R443). (DEDUCED, log entry 79) -/
def State.nextReq (s : State) (p : Period) (mb : Nat) : Option MbReq :=
  let mine (r : MbReq) : Bool := r.rq.mb.val == mb && !r.open_
  if s.kpr.reqs.any (fun r => mine r && r.started && !r.background) ||
      decide (16 ≤ (s.kpr.resps.filter fun r => r.mb.val == mb).length) then none
  else (s.kpr.reqs.find? fun r => mine r && !r.started).filter fun r => !needsFact.contains r.opcode || (p.fact r).isSome

/-- The round as it starts (R444). -/
abbrev mbRound : List Nat := [7, 4, 0, 1, 6, 2, 3, 5]

/-- One turn of the round: the request of the first mailbox that has one; the mailbox goes to the end (R444). (DEDUCED, log entry 79) -/
def State.serveOne (s : State) (p : Period) : State :=
  match s.kpr.order.findSome? fun mb => (s.nextReq p mb).map fun q => (mb, q) with
  | none => { s with kpr.order := mbRound }
  | some (mb, q) =>
    let begin_ (r : MbReq) : MbReq := if r == q then { r with started := true } else r
    let s := { s with kpr := { s.kpr with
        order := s.kpr.order.filter (· != mb) ++ [mb]
        reqs := s.kpr.reqs.map begin_ } }
    s.runReq q (p.fact q)

/-- Step 6 (R431, R444): as many requests as its time reaches. When none is left, the next period's round starts afresh. (DEDUCED, log entry 79) -/
def State.serve (s : State) (p : Period) : Nat → State
  | 0 => if mbRound.any fun mb => (s.nextReq p mb).isSome then s else { s with kpr.order := mbRound }
  | n + 1 => (s.serveOne p).serve p n

/-! ### The housekeeping period (R431) -/

/-- Hours of operation (R328, R469): counted, with the age of the last test. -/
def State.hourStep (s : State) : State :=
  let s := (s.inc P.sysHours).inc P.chkProofAge
  if decide ((s.word P.chkProofInterval).toNat < (s.word P.chkProofAge).toNat) && !s.bit P.chkStatus 13 then
    (s.setBit P.chkStatus 13 true).ev 0 "PROOF_DUE" [(s.word P.chkProofAge).toNat]
  else s

/-- Whether the module stands as R527 asks for the automatic confirmation. -/
def State.cleanRun (s : State) : Bool :=
  s.bit P.imgStatus 15 && s.sys.mode.run && s.bit P.chkStatus 15 && s.pair.withdrawing.isNone

/-- The clocks of the Keeper moved on by a period: its time, hours, seconds in alarm, sessions without a message, clean running. (DEDUCED, log entry 81) -/
def State.keeperClock (s : State) : State :=
  let hour := decide (3600000 ≤ s.kpr.hourMs + 10)
  let sec := decide (1000 ≤ s.kpr.secMs + 10)
  let idle (x : Session) : Session := { x with idleMs := x.idleMs + 10 }
  let k := { s.kpr with
    now := s.kpr.now + 10, hourMs := if hour then 0 else s.kpr.hourMs + 10, secMs := if sec then 0 else s.kpr.secMs + 10,
    sessions := s.kpr.sessions.map idle }
  let s := { s with sys.uptimeMs := s.sys.uptimeMs + 10, kpr := k }
  let s := s.when sec fun s => s.each (List.range 32) fun s n => s.when (s.sensLevel n == 2) fun s => s.inc (0xF180 + n)
  let s := s.when hour State.hourStep
  { s with img.cleanSince := if s.cleanRun then some (s.img.cleanSince.getD s.kpr.now) else none }

/-- Responses that the transport has delivered, and those that a lost connection has left for 10 s (R442). (DEDUCED, log entry 90) -/
def State.dropResps (s : State) (p : Period) : State :=
  let drop (l : List MbResp) (x : Fin 8 × Nat) : List MbResp :=
    (List.replicate x.2 ()).foldl (fun l _ => l.eraseP fun (r : MbResp) => r.mb == x.1 && r.lostAt.isNone) l
  let held (r : MbResp) : Bool := Option.all (fun t => decide (s.kpr.now < t + 10000)) r.lostAt
  { s with kpr.resps := (p.delivered.foldl drop s.kpr.resps).filter held }

/-- What steps 1 to 5 and 8 show of themselves (R473, R474). (DEDUCED, log entry 99) -/
def State.keeperWords (s : State) (p : Period) : State :=
  let s := (s.maxWord P.kprStepMax p.stepUs).setWord P.kprNandRefresh p.refresh
  let s := s.setBit P.kprStatus 10 p.refreshing
  let s := s.when (s.sys.mode == .replay && s.kpr.now % 1000 == 0) fun s =>
    { s.setWord P.replaySpeed (w32 ((s.replay.executed - s.replay.second) * 100 / 8000)) with replay.second := s.replay.executed }
  s.each (List.range 2) fun s n =>
    (s.setWord (P.kprLink n) (w32 ((p.links[n]?).elim 0 (·.val)))).incBy (P.kprRxErr n) (p.rxErr.getD n 0)

/-- Plant time read and saved (R35): from the time unit while the core die runs, else carried forward on the Keeper's oscillator. (DEDUCED, log entry 90) -/
def State.saveTime (s : State) (p : Period) : State :=
  let t := if s.coreUp then s.tickStart else s.time.keeper + p.ns
  { s with time.keeper := t, time.saved := t }

/-- HOUSEKEEPING_PERIOD (R431). (DEDUCED, log entry 90) -/
def execHousekeepingPeriod (p : Period) (s : State) : Res :=
  .next <|
    if !s.sys.keeperUp then s
    else
      let hour := decide (3600000 ≤ s.kpr.hourMs + 10)
      let s := s.keeperClock
      let sm := s.samples p
      let s := s.each sm.zipIdx fun s x => s.sample p x.2 x.1
      let s := s.supervise p
      let s := { s with sys.lamps := s.lampsNow }
      let s := (s.saveTime p).lifeStep sm hour
      let s := s.dropResps p
      let s := s.when (!s.coreUp) fun s => s.applyDue fun _ => true
      let s := (s.serve p p.reach).recStep p.records p.recordUs
      (s.keeperWords p).stnJournals

end Sys2Proof.Machine
end

