-- ==== Sys2Proof/Machine/Stations.lean ====
section
/-!
DEFINITION. The meanings of the station commands (file 05, and R534, R535 of file 19): a station is named by the port of the
trunk it is on and its serial number.
-/

namespace Sys2Proof.Machine

/-! ### The trunk's time and claims -/

/-- STATION_RATE_SEARCH (R132, R137): a station powers up or restarts (`restart`), or its dwell at one rate ends without a
confirmed rate and it tries the next. -/
def execStationRateSearch (p : Fin 16) (serial : U32) (restart : Bool) (s : State) : Res :=
  .next <| s.modStn (stnKey p serial) fun t =>
    if restart then t.restart s.plant
    else if t.rateFound then t
    else { t with searchRate := (t.searchRate + 1) % 4, rateCand := none }

/-- STATION_BEACON_RECEIVE (R41, R98, R99, R132, R133, R135, R137, R138, R144). -/
def execStationBeaconReceive (p : Fin 16) (serial : U32) (f : RxFrame) (s : State) : Res :=
  .next <| s.modStn (stnKey p serial) fun t =>
    match f.beacon with
    | some b => if t.rateFound then t.beacon b f.stamp else t.found b f.stamp
    | none => if !f.codeOk then { t with codeErrs := satNat 16 (t.codeErrs + 1) }
              else if !f.crcOk then { t with crcErrs := satNat 16 (t.crcErrs + 1) }
              else t

/-- STATION_BEACON_MISSED (R133, R135, R140): the cycle's beacon instants have passed without a valid beacon. -/
def execStationBeaconMissed (p : Fin 16) (serial : U32) (s : State) : Res :=
  .next <| s.modStn (stnKey p serial) fun t =>
    if !t.rateFound then t
    else { t.nextCycle with missed := t.missed + 1, beaconMisses := satNat 16 (t.beaconMisses + 1) }

/-- STATION_HOLDOVER_EXPIRE (R135): from the fifth consecutive cycle without a beacon. -/
def execStationHoldoverExpire (p : Fin 16) (serial : U32) (s : State) : Res :=
  .next <| s.modStn (stnKey p serial) fun t => if 5 ≤ t.missed then { t with silent := true } else t

/-- STATION_BEACON_LOSS (R132): 32 consecutive cycles without a valid beacon. (DEDUCED, log entry 17) -/
def execStationBeaconLoss (p : Fin 16) (serial : U32) (s : State) : Res :=
  .next <| s.modStn (stnKey p serial) fun t => if 32 ≤ t.missed then t.search else t

/-- STATION_CLAIM_LEARNED (R137): the end of the second consecutive cycle with a valid frame. -/
def execStationClaimLearned (p : Fin 16) (serial : U32) (s : State) : Res :=
  .next <| s.modStn (stnKey p serial) fun t =>
    match t.learnHeard with
    | some c => if !t.learned && decide (2 ≤ t.learnCycles + t.learnNow.toNat) then
        { t with learned := true, claimHigh := c } else t
    | none => t

/-! ### Outputs -/

/-- STATION_BROADCAST_RECEIVE (R138, R139). -/
def execStationBroadcastReceive (p : Fin 16) (serial : U32) (f : RxFrame) (s : State) : Res :=
  .next <| s.modStn (stnKey p serial) fun t =>
    if !t.rateFound then t
    else match f.bcast with
    | some b => t.broadcast b
    | none => if !f.codeOk then { t with codeErrs := satNat 16 (t.codeErrs + 1) }
              else if !f.crcOk then { t with crcErrs := satNat 16 (t.crcErrs + 1) }
              else t

/-- STATION_OUTPUT_APPLY (R139, R140): the earliest staged set, at its apply instant. The station leaves hold. -/
def execStationOutputApply (p : Fin 16) (serial : U32) (s : State) : Res :=
  .next <| s.modStn (stnKey p serial) fun t =>
    match t.stagedOut with
    | (_, l) :: rest =>
      if t.quarantined then { t with stagedOut := rest }
      else { t with stagedOut := rest, outputs := mergeOut t.outputs l, hold := false }
    | [] => t

/-- STATION_OUTPUT_TIMEOUT (R16, R140): the cycles without a broadcast taken have reached the output timeout. -/
def execStationOutputTimeout (p : Fin 16) (serial : U32) (s : State) : Res :=
  .next <| s.modStn (stnKey p serial) fun t =>
    if t.cur.outTimeout ≤ t.missedOutputs ∧ t.hold = false then
      { t with hold := true, outputs := t.holdOrSafe, outTimeouts := satNat 16 (t.outTimeouts + 1) }
    else t

/-! ### Frames of a station -/

/-- STATION_INPUT_LAUNCH (R71, R102, R103, R111, R136): the input frame of one part with its 64 input points, or in
COMMISSION training frame `train`. -/
def execStationInputLaunch (p : Fin 16) (serial : U32) (part : Fin 4) (word : U64) (train : Option (Fin 32)) (s : State) :
    Res :=
  .next <| s.modStn (stnKey p serial) fun t =>
    let slot := t.cur.entries.any fun e => e.pos == t.pos && e.part == part.val && !e.noInput
    if !slot then t
    else match train with
    | some i =>
      if t.mayDrive && !t.quarantined then
        { t with
          lastLaunch := frameBytes 9 0 t.addr t.seq
            ((List.range 8).map fun k => BitVec.ofNat 8 (37 * (8 * i.val + k) + 0x5B)) }
      else t
    | none =>
      if t.mayLaunch then
        { t with
          inputs := (part.val, word) :: t.inputs.filter (·.1 != part.val)
          lastLaunch := frameBytes 2 (8 * t.hold.toNat + 4 * t.diag.toNat + part.val) t.addr t.seq
            (beBytes 8 word.toNat) }
      else t

/-- STATION_ANNOUNCE_NO_ANSWER (R146): w is doubled, up to 256. -/
def execStationAnnounceNoAnswer (p : Fin 16) (serial : U32) (s : State) : Res :=
  .next <| s.modStn (stnKey p serial) fun t =>
    if t.addr = 0xFF then { t with window := min 256 (2 * t.window) } else t

/-- STATION_HUSH_EXPIRE (R146). -/
def execStationHushExpire (p : Fin 16) (serial : U32) (s : State) : Res :=
  .next <| s.modStn (stnKey p serial) fun t => { t with hushed := none }

/-- STATION_JABBER (R59): 250 µs of continuous transmission. -/
def execStationJabber (p : Fin 16) (serial : U32) (s : State) : Res :=
  .next <| s.modStn (stnKey p serial) fun t => { t with jabber := true }

/-- STATION_JABBER_RELEASE (R59): the line has been idle at the station for 1 s. -/
def execStationJabberRelease (p : Fin 16) (serial : U32) (s : State) : Res :=
  .next <| s.modStn (stnKey p serial) fun t => { t with jabber := false }

/-- STATION_RANGING_REPLY (R60, R107): the reply leaves T_R after the request's start byte reached the station. (DEDUCED, log entry 18) -/
def execStationRangingReply (p : Fin 16) (serial : U32) (f : RxFrame) (s : State) : Res :=
  .next <| s.modStn (stnKey p serial) fun t =>
    if t.mayDrive && !t.quarantined && f.codeOk && f.crcOk && f.type == 7 && f.byte 1 == t.addr then
      { t with lastLaunch := frameBytes 8 0 t.addr t.seq [] }
    else t

/-! ### Management commands (R142) -/

/-- IDENTIFY (R142). -/
def execIdentify (p : Fin 16) (serial : U32) (r : MReq) (s : State) : Res :=
  .next <| s.stnRequest p serial r false true fun t =>
    t.answer r 0 (BitVec.ofNat 8 (t.levelOf serial) :: beBytes 4 serial.toNat)
      (beBytes 2 (Config.stnVendor serial).toNat ++ beBytes 2 (Config.stnProduct serial).toNat ++
        beBytes 4 (t.versionOf serial).toNat)

/-- SET_ADDR (R142, R143, R146, R149). -/
def execSetAddr (p : Fin 16) (serial : U32) (r : MReq) (s : State) : Res :=
  .next <| s.stnRequest p serial r true true fun t =>
    if r.byte 2 = 0 ∨ 0xC0 < r.byte 2 then t.answer r 2 zero5 []
    else { t.answer r 0 zero5 [] with
           addr := r.byte 2, prevAddr := some t.addr, quarantined := false, window := 4, hushed := none }

/-- CFG_SLOTS (R142): the entries are held from the index given on. -/
def execCfgSlots (p : Fin 16) (serial : U32) (r : MReq) (s : State) : Res :=
  .next <| s.stnRequest p serial r false false fun t =>
    if r.byte 2 = 0 ∨ 7 < r.byte 2 then t.answer r 2 zero5 []
    else
      let new := r.slots
      let held := new ++ t.slotsIn.filter fun x => !(new.any (·.1 == x.1))
      { t with slotsIn := held }.answer r 0 [BitVec.ofNat 8 held.length, 0, 0, 0, 0] []

/-- CFG_TIMING (R142). -/
def execCfgTiming (p : Fin 16) (serial : U32) (r : MReq) (s : State) : Res :=
  .next <| s.stnRequest p serial r false false fun t =>
    if r.byte 2 = 0 ∨ 16 < r.byte 2 ∨ r.byte 3 = 0 ∨ 15 < r.byte 3 then t.answer r 2 zero5 []
    else
      { t with timingIn := some (r.byte 2, r.byte 3, r.byte 4, r.byte 5, r.be 8 4, r.be 12 4) }.answer r 0 zero5 []

/-- CFG_COMMIT (R144). (DEDUCED, log entry 19) -/
def execCfgCommit (p : Fin 16) (serial : U32) (r : MReq) (s : State) : Res :=
  .next <| s.stnRequest p serial r false false fun t => t.commit r

/-- READ_DIAG (R142). (DEDUCED, log entry 20) -/
def execReadDiag (p : Fin 16) (serial : U32) (r : MReq) (s : State) : Res :=
  .next <| s.stnRequest p serial r false false fun t =>
    let secs := (s.plant - t.restartAt) / 1000000000
    { t.answer r 0
        (BitVec.ofNat 8 (t.quarantined.toNat + 2 * t.hold.toNat + 4 * (!t.learned).toNat) :: beBytes 4 secs)
        (beBytes 2 t.refusedClaims ++ beBytes 2 t.seqMismatch ++ beBytes 2 t.beaconMisses ++ beBytes 2 t.outTimeouts ++
          beBytes 2 t.crcErrs ++ beBytes 2 t.codeErrs ++ beBytes 2 t.lostArbs ++ [0, 0]) with diag := false }

/-- QUARANTINE (R142, R149): the outputs go to their safe values at once. -/
def execQuarantine (p : Fin 16) (serial : U32) (r : MReq) (s : State) : Res :=
  .next <| s.stnRequest p serial r true false fun t =>
    { t.answer r 0 zero5 [] with quarantined := true, outputs := t.safe, stagedOut := [] }

/-- RELEASE (R142, R149). -/
def execRelease (p : Fin 16) (serial : U32) (r : MReq) (s : State) : Res :=
  .next <| s.stnRequest p serial r true true fun t => { t.answer r 0 zero5 [] with quarantined := false }

/-- HUSH (R142, R143, R146): sent to 0xFF, never answered; a silence of 0 means 60 s. -/
def execHush (p : Fin 16) (serial : U32) (r : MReq) (s : State) : Res :=
  .next <| s.modStn (stnKey p serial) fun t =>
    if t.rateFound && t.addr == 0xFF && r.addr == 0xFF#8 && r.be 3 4 == serial.toNat && !t.quarantined then
      { t with hushed := some (if r.byte 2 = 0 then 60 else r.byte 2), window := 4 }
    else t

/-- STATION_PROFILE_COMMAND (R140, R142): a command of the maker; its status, the rest of its reply, the output choices it
leaves and the diagnostic flag are the maker's. -/
def execStationProfileCommand (p : Fin 16) (serial : U32) (r : MReq) (status : U8) (reply : List Byte)
    (holdMask safeVals : List (Nat × U64)) (diag : Bool) (s : State) : Res :=
  .next <| s.stnRequest p serial r false false fun t =>
    if r.mcmd < 0x40 ∨ 0x7F < r.mcmd then t.answer r 1 zero5 []
    else { t with holdMask := holdMask, safeVals := safeVals, diag := diag }.answer r status.toNat
           ((reply ++ zero5).take 5) (reply.drop 5)

/-! ### Station updates (R145, R534, R535) -/

/-- UPDATE_FRAME (R145, R534): `r` holds the frame's payload. It is not repeated by tag: its offset orders it. -/
def execUpdateFrame (p : Fin 16) (serial : U32) (r : MReq) (blockOk : Bool) (s : State) : Res :=
  .next <| s.modStn (stnKey p serial) fun t =>
    if !t.rateFound || r.addr.toNat != t.addr || t.quarantined then t else t.updateFrame r blockOk

/-- UPD_BEGIN (R535): a new session discards any partial second bank. -/
def execUpdBegin (p : Fin 16) (serial : U32) (r : MReq) (s : State) : Res :=
  .next <| s.stnRequest p serial r false false fun t =>
    let fresh : StnUpd :=
      { session := r.be 2 2, total := r.be 4 2, version := w32 (r.be 12 4), level := r.byte 6, fill := [], checked := [],
        verified := false, switching := false }
    let u := match t.upd with
      | some u => if u.session = r.be 2 2 then u else fresh
      | none => fresh
    { t with upd := some u }.answer r 0 (0#8 :: beBytes 2 (u.done u.total 0) ++ [0, 0]) []

/-- UPD_VERIFY (R535): `result` is the state of the check of the maker's signature: 0 verified, 1 in progress, 2 failed. -/
def execUpdVerify (p : Fin 16) (serial : U32) (r : MReq) (result : Fin 3) (s : State) : Res :=
  .next <| s.stnRequest p serial r false false fun t =>
    match t.upd with
    | none => t.answer r 4 zero5 []
    | some u =>
      if u.session != r.be 2 2 then t.answer r 4 zero5 []
      else { t with upd := some { u with verified := result == 0 } }.answer r 0 [BitVec.ofNat 8 result.val, 0, 0, 0, 0] []

/-- UPD_ACTIVATE (R535): 0x04 unless the last `UPD_VERIFY` reported verified. -/
def execUpdActivate (p : Fin 16) (serial : U32) (r : MReq) (s : State) : Res :=
  .next <| s.stnRequest p serial r false false fun t =>
    match t.upd with
    | some u =>
      if u.verified && u.session == r.be 2 2 then
        { t with upd := some { u with switching := true } }.answer r 0 zero5 []
      else t.answer r 4 zero5 []
    | none => t.answer r 4 zero5 []

/-- STATION_BANK_SWITCH (R145, R535): the end of the cycle of the reply to `UPD_ACTIVATE`. -/
def execStationBankSwitch (p : Fin 16) (serial : U32) (s : State) : Res :=
  .next <| s.modStn (stnKey p serial) fun t =>
    match t.upd with
    | some u =>
      if u.switching then
        { t with
          oldVersion := t.version
          oldLevel := t.level
          version := some u.version
          level := some u.level
          onTrial := true
          upd := none }.restart s.plant
      else t
    | none => t

/-- STATION_HEALTH_FALLBACK (R145): the station falls back to its old bank and sends a return notice. (DEDUCED, log entry 20) -/
def execStationHealthFallback (p : Fin 16) (serial : U32) (s : State) : Res :=
  .next <| s.modStn (stnKey p serial) fun t =>
    if t.onTrial then
      { t with version := t.oldVersion, level := t.oldLevel, onTrial := false }.restart s.plant
    else t

/-- STATION_HEALTH_CONFIRMED (R145): the new bank stays; a return notice is sent. -/
def execStationHealthConfirmed (p : Fin 16) (serial : U32) (s : State) : Res :=
  .next <| s.modStn (stnKey p serial) fun t =>
    if t.onTrial then { t with onTrial := false, noticeDue := t.addr != 0xFF } else t

end Sys2Proof.Machine
end

