-- ==== Sys2Proof/Machine/Dispatch.lean ====
section
/-!
DEFINITION. One arm per command: a direct call of its meaning.
-/

namespace Sys2Proof.Machine

def exec (i : Instr) (s : State) : Host.Outcome State Fault Refusal :=
  match i with
  | .resetPor others => Sys2Proof.Machine.execResetPor others s
  | .resetBor p others => Sys2Proof.Machine.execResetBor p others s
  | .resetPin lowNs others => Sys2Proof.Machine.execResetPin lowNs others s
  | .resetWdt sc others => Sys2Proof.Machine.execResetWdt sc others s
  | .resetSwr others => Sys2Proof.Machine.execResetSwr others s
  | .resetClkf d others => Sys2Proof.Machine.execResetClkf d others s
  | .resetLockup ep others => Sys2Proof.Machine.execResetLockup ep others s
  | .deferredRelease d r => Sys2Proof.Machine.execDeferredRelease d r s
  | .deferredReleaseTimeout d => Sys2Proof.Machine.execDeferredReleaseTimeout d s
  | .clkfReleaseRetry d r => Sys2Proof.Machine.execClkfReleaseRetry d r s
  | .clkFallback => Sys2Proof.Machine.execClkFallback s
  | .keeperDomainRelease k => Sys2Proof.Machine.execKeeperDomainRelease k s
  | .bootReleaseStep r => Sys2Proof.Machine.execBootReleaseStep r s
  | .activationCopy ok bankOk => Sys2Proof.Machine.execActivationCopy ok bankOk s
  | .bootEnd => Sys2Proof.Machine.execBootEnd s
  | .mateBreak => Sys2Proof.Machine.execMateBreak s
  | .mainsLoss => Sys2Proof.Machine.execMainsLoss s
  | .swapLeverOut => Sys2Proof.Machine.execSwapLeverOut s
  | .swapLeverIn => Sys2Proof.Machine.execSwapLeverIn s
  | .regionReset r src => Sys2Proof.Machine.execRegionReset r src s
  | .regionRelease r => Sys2Proof.Machine.execRegionRelease r s
  | .regionInitDone r fail volts => Sys2Proof.Machine.execRegionInitDone r fail volts s
  | .modeTransition => Sys2Proof.Machine.execModeTransition s
  | .tickBoundary dev differs cl gaugeLost => Sys2Proof.Machine.execTickBoundary dev differs cl gaugeLost s
  | .tailBeaconLaunch p dev => Sys2Proof.Machine.execTailBeaconLaunch p dev s
  | .tailBroadcastLaunch p differs => Sys2Proof.Machine.execTailBroadcastLaunch p differs s
  | .loopWindow loops gens groups ns => Sys2Proof.Machine.execLoopWindow loops gens groups ns s
  | .programWindowOpen meas => Sys2Proof.Machine.execProgramWindowOpen meas s
  | .runFinish m eff => Sys2Proof.Machine.execRunFinish m eff s
  | .outputCut fault volts => Sys2Proof.Machine.execOutputCut fault volts s
  | .partnerExchReceive h x => Sys2Proof.Machine.execPartnerExchReceive h x s
  | .exchTimeout => Sys2Proof.Machine.execExchTimeout s
  | .beatLaunch txA txB => Sys2Proof.Machine.execBeatLaunch txA txB s
  | .partnerBeatReceive h rx b => Sys2Proof.Machine.execPartnerBeatReceive h rx b s
  | .tickEndDigest reached diff => Sys2Proof.Machine.execTickEndDigest reached diff s
  | .exchangeWindowEnd lockA lockB => Sys2Proof.Machine.execExchangeWindowEnd lockA lockB s
  | .intakeMiss p => Sys2Proof.Machine.execIntakeMiss p s
  | .rxRecordReceive h records => Sys2Proof.Machine.execRxRecordReceive h records s
  | .msgFrameReceive h kind body content => Sys2Proof.Machine.execMsgFrameReceive h kind body content s
  | .xferFrameReceive h addr quarter pass data => Sys2Proof.Machine.execXferFrameReceive h addr quarter pass data s
  | .linkUnusable l => Sys2Proof.Machine.execLinkUnusable l s
  | .linkUsable l => Sys2Proof.Machine.execLinkUsable l s
  | .heartbeatLost => Sys2Proof.Machine.execHeartbeatLost s
  | .alignFault => Sys2Proof.Machine.execAlignFault s
  | .ptpMessageReceive m => Sys2Proof.Machine.execPtpMessageReceive m s
  | .ptpHoldover => Sys2Proof.Machine.execPtpHoldover s
  | .lockstepMismatch l => Sys2Proof.Machine.execLockstepMismatch l s
  | .guardAccessRefused who kind addr len passed errors => Sys2Proof.Machine.execGuardAccessRefused who kind addr len passed errors s
  | .withdrawal => Sys2Proof.Machine.execWithdrawal s
  | .divergenceOutcome => Sys2Proof.Machine.execDivergenceOutcome s
  | .takeover => Sys2Proof.Machine.execTakeover s
  | .listenAloneExpire => Sys2Proof.Machine.execListenAloneExpire s
  | .claimSuspect p => Sys2Proof.Machine.execClaimSuspect p s
  | .localDisagree c => Sys2Proof.Machine.execLocalDisagree c s
  | .handoverTick => Sys2Proof.Machine.execHandoverTick s
  | .hoConfirmTimeout => Sys2Proof.Machine.execHoConfirmTimeout s
  | .hoAckTimeout => Sys2Proof.Machine.execHoAckTimeout s
  | .withdraw cause => Sys2Proof.Machine.execWithdraw cause s
  | .verdict fault k => Sys2Proof.Machine.execVerdict fault k s
  | .chgPropose c hash seed => Sys2Proof.Machine.execChgPropose c hash seed s
  | .chgAck c => Sys2Proof.Machine.execChgAck c s
  | .chgNak c cause => Sys2Proof.Machine.execChgNak c cause s
  | .chgConfirm c => Sys2Proof.Machine.execChgConfirm c s
  | .chgAckTimeout => Sys2Proof.Machine.execChgAckTimeout s
  | .chgConfirmTimeout => Sys2Proof.Machine.execChgConfirmTimeout s
  | .hoPropose x => Sys2Proof.Machine.execHoPropose x s
  | .hoAck x => Sys2Proof.Machine.execHoAck x s
  | .hoConfirm x => Sys2Proof.Machine.execHoConfirm x s
  | .action arg effect fseq => Sys2Proof.Machine.execAction arg effect fseq s
  | .changeCommitTick => Sys2Proof.Machine.execChangeCommitTick s
  | .changeSaveDone => Sys2Proof.Machine.execChangeSaveDone s
  | .retainSave => Sys2Proof.Machine.execRetainSave s
  | .retainSaveDone => Sys2Proof.Machine.execRetainSaveDone s
  | .forceEffect => Sys2Proof.Machine.execForceEffect s
  | .pairChangeEffect => Sys2Proof.Machine.execPairChangeEffect s
  | .relayChangeReceive effect id items => Sys2Proof.Machine.execRelayChangeReceive effect id items s
  | .relayAckTimeout => Sys2Proof.Machine.execRelayAckTimeout s
  | .relayedRequest tag opcode payload => Sys2Proof.Machine.execRelayedRequest tag opcode payload s
  | .maintRecordReceive set ports => Sys2Proof.Machine.execMaintRecordReceive set ports s
  | .joinReq => Sys2Proof.Machine.execJoinReq s
  | .joinReqSend => Sys2Proof.Machine.execJoinReqSend s
  | .joinAccept k => Sys2Proof.Machine.execJoinAccept k s
  | .resyncEnter => Sys2Proof.Machine.execResyncEnter s
  | .joinAcceptTimeout => Sys2Proof.Machine.execJoinAcceptTimeout s
  | .copyPassEnd dirty sent => Sys2Proof.Machine.execCopyPassEnd dirty sent s
  | .cutTick => Sys2Proof.Machine.execCutTick s
  | .cut st => Sys2Proof.Machine.execCut st s
  | .catchupTick items runs => Sys2Proof.Machine.execCatchupTick items runs s
  | .catchupTimeout => Sys2Proof.Machine.execCatchupTimeout s
  | .ready x => Sys2Proof.Machine.execReady x s
  | .join j => Sys2Proof.Machine.execJoin j s
  | .readyTimeout => Sys2Proof.Machine.execReadyTimeout s
  | .joinTick => Sys2Proof.Machine.execJoinTick s
  | .joinAbandon cause => Sys2Proof.Machine.execJoinAbandon cause s
  | .resyncAbandon cause => Sys2Proof.Machine.execResyncAbandon cause s
  | .resyncRetry => Sys2Proof.Machine.execResyncRetry s
  | .trunkBeaconReceive p f => Sys2Proof.Machine.execTrunkBeaconReceive p f s
  | .rateDwellExpire p => Sys2Proof.Machine.execRateDwellExpire p s
  | .slotFrameReceive p i0 f m => Sys2Proof.Machine.execSlotFrameReceive p i0 f m s
  | .partnerBroadcastReceive p f => Sys2Proof.Machine.execPartnerBroadcastReceive p f s
  | .eventFrameReceive p m f => Sys2Proof.Machine.execEventFrameReceive p m f s
  | .mgmtReplyReceive p m f => Sys2Proof.Machine.execMgmtReplyReceive p m f s
  | .rangingReplyReceive p m f other => Sys2Proof.Machine.execRangingReplyReceive p m f other s
  | .trainingFrameReceive p i0 f m => Sys2Proof.Machine.execTrainingFrameReceive p i0 f m s
  | .lineActivityNoStart p inSlot inArbitration => Sys2Proof.Machine.execLineActivityNoStart p inSlot inArbitration s
  | .backgroundCalibration p idle => Sys2Proof.Machine.execBackgroundCalibration p idle s
  | .calStale p => Sys2Proof.Machine.execCalStale p s
  | .eqRetrainEnd p => Sys2Proof.Machine.execEqRetrainEnd p s
  | .breakDeclare p => Sys2Proof.Machine.execBreakDeclare p s
  | .breakClear p => Sys2Proof.Machine.execBreakClear p s
  | .tdrRun p refl => Sys2Proof.Machine.execTdrRun p refl s
  | .tdrWaitTimeout p => Sys2Proof.Machine.execTdrWaitTimeout p s
  | .schedSwitch p => Sys2Proof.Machine.execSchedSwitch p s
  | .eventRound p m others => Sys2Proof.Machine.execEventRound p m others s
  | .eventRoundFramePhase p => Sys2Proof.Machine.execEventRoundFramePhase p s
  | .txqEntrySend p => Sys2Proof.Machine.execTxqEntrySend p s
  | .keeperStationRequest p => Sys2Proof.Machine.execKeeperStationRequest p s
  | .stationDistributionFrame p => Sys2Proof.Machine.execStationDistributionFrame p s
  | .updVerifyPoll p => Sys2Proof.Machine.execUpdVerifyPoll p s
  | .stnAbsentTimeout p => Sys2Proof.Machine.execStnAbsentTimeout p s
  | .stnVerifyTimeout p => Sys2Proof.Machine.execStnVerifyTimeout p s
  | .stnActivateTimeout p => Sys2Proof.Machine.execStnActivateTimeout p s
  | .stationRateSearch p serial restart => Sys2Proof.Machine.execStationRateSearch p serial restart s
  | .stationBeaconReceive p serial f => Sys2Proof.Machine.execStationBeaconReceive p serial f s
  | .stationClaimLearned p serial => Sys2Proof.Machine.execStationClaimLearned p serial s
  | .stationBroadcastReceive p serial f => Sys2Proof.Machine.execStationBroadcastReceive p serial f s
  | .stationOutputApply p serial => Sys2Proof.Machine.execStationOutputApply p serial s
  | .stationOutputTimeout p serial => Sys2Proof.Machine.execStationOutputTimeout p serial s
  | .stationHoldoverExpire p serial => Sys2Proof.Machine.execStationHoldoverExpire p serial s
  | .stationBeaconLoss p serial => Sys2Proof.Machine.execStationBeaconLoss p serial s
  | .stationInputLaunch p serial part word train => Sys2Proof.Machine.execStationInputLaunch p serial part word train s
  | .stationAnnounceNoAnswer p serial => Sys2Proof.Machine.execStationAnnounceNoAnswer p serial s
  | .stationHushExpire p serial => Sys2Proof.Machine.execStationHushExpire p serial s
  | .stationJabber p serial => Sys2Proof.Machine.execStationJabber p serial s
  | .stationRangingReply p serial f => Sys2Proof.Machine.execStationRangingReply p serial f s
  | .identify p serial r => Sys2Proof.Machine.execIdentify p serial r s
  | .setAddr p serial r => Sys2Proof.Machine.execSetAddr p serial r s
  | .cfgSlots p serial r => Sys2Proof.Machine.execCfgSlots p serial r s
  | .cfgTiming p serial r => Sys2Proof.Machine.execCfgTiming p serial r s
  | .cfgCommit p serial r => Sys2Proof.Machine.execCfgCommit p serial r s
  | .readDiag p serial r => Sys2Proof.Machine.execReadDiag p serial r s
  | .quarantine p serial r => Sys2Proof.Machine.execQuarantine p serial r s
  | .release p serial r => Sys2Proof.Machine.execRelease p serial r s
  | .hush p serial r => Sys2Proof.Machine.execHush p serial r s
  | .stationProfileCommand p serial r status reply holdMask safeVals diag => Sys2Proof.Machine.execStationProfileCommand p serial r status reply holdMask safeVals diag s
  | .updateFrame p serial r blockOk => Sys2Proof.Machine.execUpdateFrame p serial r blockOk s
  | .updBegin p serial r => Sys2Proof.Machine.execUpdBegin p serial r s
  | .updVerify p serial r result => Sys2Proof.Machine.execUpdVerify p serial r result s
  | .updActivate p serial r => Sys2Proof.Machine.execUpdActivate p serial r s
  | .stationBankSwitch p serial => Sys2Proof.Machine.execStationBankSwitch p serial s
  | .stationHealthFallback p serial => Sys2Proof.Machine.execStationHealthFallback p serial s
  | .dioSample c raw t => Sys2Proof.Machine.execDioSample c raw t s
  | .dioOverload c thermal => Sys2Proof.Machine.execDioOverload c thermal s
  | .dioOpen c => Sys2Proof.Machine.execDioOpen c s
  | .groupWarning g => Sys2Proof.Machine.execGroupWarning g s
  | .groupOff g => Sys2Proof.Machine.execGroupOff g s
  | .groupRecovering g => Sys2Proof.Machine.execGroupRecovering g s
  | .groupNormal g => Sys2Proof.Machine.execGroupNormal g s
  | .groupOverload g => Sys2Proof.Machine.execGroupOverload g s
  | .clComplianceSet k => Sys2Proof.Machine.execClComplianceSet k s
  | .clComplianceClear k => Sys2Proof.Machine.execClComplianceClear k s
  | .clLiveZero k => Sys2Proof.Machine.execClLiveZero k s
  | .hartReplyReceive k sound long code status data => Sys2Proof.Machine.execHartReplyReceive k sound long code status data s
  | .hartBurstFrame k => Sys2Proof.Machine.execHartBurstFrame k s
  | .captureTrigger unit t dead => Sys2Proof.Machine.execCaptureTrigger unit t dead s
  | .segmentClose unit d => Sys2Proof.Machine.execSegmentClose unit d s
  | .maskViolation unit mask idx d others => Sys2Proof.Machine.execMaskViolation unit mask idx d others s
  | .captureOverrun unit d => Sys2Proof.Machine.execCaptureOverrun unit d s
  | .gaugeSnapshot => Sys2Proof.Machine.execGaugeSnapshot s
  | .gaugeSnapshotDone full => Sys2Proof.Machine.execGaugeSnapshotDone full s
  | .gaugeFold => Sys2Proof.Machine.execGaugeFold s
  | .gaugeWindowCopyDone => Sys2Proof.Machine.execGaugeWindowCopyDone s
  | .replayTick effects digest cells bad held => Sys2Proof.Machine.execReplayTick effects digest cells bad held s
  | .housekeepingPeriod p => Sys2Proof.Machine.execHousekeepingPeriod p s
  | .keeperWatchdogExpire => Sys2Proof.Machine.execKeeperWatchdogExpire s
  | .sensorWarning n => Sys2Proof.Machine.execSensorWarning n s
  | .sensorAlarm n => Sys2Proof.Machine.execSensorAlarm n s
  | .sensorClear n => Sys2Proof.Machine.execSensorClear n s
  | .lifeSave => Sys2Proof.Machine.execLifeSave s
  | .tokenRefill => Sys2Proof.Machine.execTokenRefill s
  | .recorderScan upsets => Sys2Proof.Machine.execRecorderScan upsets s
  | .healthWindowExpire => Sys2Proof.Machine.execHealthWindowExpire s
  | .healthAutoConfirm => Sys2Proof.Machine.execHealthAutoConfirm s
  | .transferExpire => Sys2Proof.Machine.execTransferExpire s
  | .mailboxMessageReceive port mb opcode tag session more gcmOk payload => Sys2Proof.Machine.execMailboxMessageReceive port mb opcode tag session more gcmOk payload s
  | .sessionExpire mb => Sys2Proof.Machine.execSessionExpire mb s
  | .connectionLost port mb => Sys2Proof.Machine.execConnectionLost port mb s
  | .prgMsgOut => Sys2Proof.Machine.execPrgMsgOut s
  | .sessionOpen rq port cert payload secret answer => Sys2Proof.Machine.execSessionOpen rq port cert payload secret answer s
  | .sessionProve rq port payload sigOk => Sys2Proof.Machine.execSessionProve rq port payload sigOk s
  | .sessionClose rq => Sys2Proof.Machine.execSessionClose rq s
  | .keyInstall rq port keyType key sigOk => Sys2Proof.Machine.execKeyInstall rq port keyType key sigOk s
  | .keyRevoke rq serial => Sys2Proof.Machine.execKeyRevoke rq serial s
  | .echo rq data => Sys2Proof.Machine.execEcho rq data s
  | .paramRead rq ids => Sys2Proof.Machine.execParamRead rq ids s
  | .paramWrite rq items => Sys2Proof.Machine.execParamWrite rq items s
  | .tableRead rq tid first count => Sys2Proof.Machine.execTableRead rq tid first count s
  | .tableWrite rq tid first entries => Sys2Proof.Machine.execTableWrite rq tid first entries s
  | .cntClear rq ids => Sys2Proof.Machine.execCntClear rq ids s
  | .tableInfo rq tid => Sys2Proof.Machine.execTableInfo rq tid s
  | .guardArm rq n => Sys2Proof.Machine.execGuardArm rq n s
  | .guardSwitch => Sys2Proof.Machine.execGuardSwitch s
  | .modeRun rq => Sys2Proof.Machine.execModeRun rq s
  | .modeRequest rq n => Sys2Proof.Machine.execModeRequest rq n s
  | .sysRestart rq scope => Sys2Proof.Machine.execSysRestart rq scope s
  | .sysRegionReset rq r => Sys2Proof.Machine.execSysRegionReset rq r s
  | .timeStep rq plant => Sys2Proof.Machine.execTimeStep rq plant s
  | .trkCommission rq port steps addrs => Sys2Proof.Machine.execTrkCommission rq port steps addrs s
  | .trkTdr rq port => Sys2Proof.Machine.execTrkTdr rq port s
  | .trkAssign rq port addr serial => Sys2Proof.Machine.execTrkAssign rq port addr serial s
  | .trkRelease rq port serial => Sys2Proof.Machine.execTrkRelease rq port serial s
  | .schedCommit rq port tick => Sys2Proof.Machine.execSchedCommit rq port tick s
  | .prgChangeStage rq obj pkg signed => Sys2Proof.Machine.execPrgChangeStage rq obj pkg signed s
  | .prgChangeCommit rq tick => Sys2Proof.Machine.execPrgChangeCommit rq tick s
  | .prgChangeDiscard rq => Sys2Proof.Machine.execPrgChangeDiscard rq s
  | .prgForceCommit rq => Sys2Proof.Machine.execPrgForceCommit rq s
  | .prgForceClear rq => Sys2Proof.Machine.execPrgForceClear rq s
  | .prgTaskResume rq task => Sys2Proof.Machine.execPrgTaskResume rq task s
  | .prgMsgSend rq msg => Sys2Proof.Machine.execPrgMsgSend rq msg s
  | .pairHandover rq => Sys2Proof.Machine.execPairHandover rq s
  | .pairWithdraw rq => Sys2Proof.Machine.execPairWithdraw rq s
  | .pairRejoin rq => Sys2Proof.Machine.execPairRejoin rq s
  | .pairClaimRaise rq amount => Sys2Proof.Machine.execPairClaimRaise rq amount s
  | .chkProofRestart rq => Sys2Proof.Machine.execChkProofRestart rq s
  | .chkFaultClear rq => Sys2Proof.Machine.execChkFaultClear rq s
  | .dbgHalt rq n => Sys2Proof.Machine.execDbgHalt rq n s
  | .dbgResume rq n => Sys2Proof.Machine.execDbgResume rq n s
  | .dbgStep rq n count => Sys2Proof.Machine.execDbgStep rq n count s
  | .dbgRegRead rq n first count => Sys2Proof.Machine.execDbgRegRead rq n first count s
  | .dbgRegWrite rq n r value => Sys2Proof.Machine.execDbgRegWrite rq n r value s
  | .dbgMemRead rq n addr len => Sys2Proof.Machine.execDbgMemRead rq n addr len s
  | .dbgMemWrite rq n addr data => Sys2Proof.Machine.execDbgMemWrite rq n addr data s
  | .dbgBreak rq n kind slot addr => Sys2Proof.Machine.execDbgBreak rq n kind slot addr s
  | .dbgReset rq scope => Sys2Proof.Machine.execDbgReset rq scope s
  | .dbgTraceRead rq offset len => Sys2Proof.Machine.execDbgTraceRead rq offset len s
  | .fioManual rq chan value => Sys2Proof.Machine.execFioManual rq chan value s
  | .fioGroupAck rq g => Sys2Proof.Machine.execFioGroupAck rq g s
  | .fioHartScan rq k => Sys2Proof.Machine.execFioHartScan rq k s
  | .fioHartXfer rq k cmd long data => Sys2Proof.Machine.execFioHartXfer rq k cmd long data s
  | .acqArm rq unit => Sys2Proof.Machine.execAcqArm rq unit s
  | .acqStop rq unit d => Sys2Proof.Machine.execAcqStop rq unit d s
  | .acqTrigger rq mask => Sys2Proof.Machine.execAcqTrigger rq mask s
  | .acqExport rq unit first count => Sys2Proof.Machine.execAcqExport rq unit first count s
  | .gaugeMark rq => Sys2Proof.Machine.execGaugeMark rq s
  | .gaugeProtect rq slot set => Sys2Proof.Machine.execGaugeProtect rq slot set s
  | .gaugeExport rq slot offset len => Sys2Proof.Machine.execGaugeExport rq slot offset len s
  | .replayLoad rq hash signed win => Sys2Proof.Machine.execReplayLoad rq hash signed win s
  | .replayStart rq slot tick => Sys2Proof.Machine.execReplayStart rq slot tick s
  | .replayStop rq => Sys2Proof.Machine.execReplayStop rq s
  | .recRead rq chan count first => Sys2Proof.Machine.execRecRead rq chan count first s
  | .recSubscribe rq mask => Sys2Proof.Machine.execRecSubscribe rq mask s
  | .recUser rq code sev count key vals => Sys2Proof.Machine.execRecUser rq code sev count key vals s
  | .recScan rq => Sys2Proof.Machine.execRecScan rq s
  | .imgXferOpen rq kind size hash => Sys2Proof.Machine.execImgXferOpen rq kind size hash s
  | .imgXferData rq num offset data => Sys2Proof.Machine.execImgXferData rq num offset data s
  | .imgXferClose rq num => Sys2Proof.Machine.execImgXferClose rq num s
  | .imgXferDrop rq hash => Sys2Proof.Machine.execImgXferDrop rq hash s
  | .imgStage rq hash signed => Sys2Proof.Machine.execImgStage rq hash signed s
  | .imgChamberClear rq => Sys2Proof.Machine.execImgChamberClear rq s
  | .imgActivate rq => Sys2Proof.Machine.execImgActivate rq s
  | .imgConfirm rq => Sys2Proof.Machine.execImgConfirm rq s
  | .imgRevert rq => Sys2Proof.Machine.execImgRevert rq s
  | .imgInstall rq hash signed pkg words => Sys2Proof.Machine.execImgInstall rq hash signed pkg words s
  | .attest rq nonce signature => Sys2Proof.Machine.execAttest rq nonce signature s
  | .identityRead rq => Sys2Proof.Machine.execIdentityRead rq s
  | .stnStage rq hash signed pkg => Sys2Proof.Machine.execStnStage rq hash signed pkg s
  | .stnStart rq p => Sys2Proof.Machine.execStnStart rq p s
  | .stnStop rq p => Sys2Proof.Machine.execStnStop rq p s
  | .stnDiscard rq hash => Sys2Proof.Machine.execStnDiscard rq hash s
  | .ton m addr input pt => Sys2Proof.Machine.execTon m addr input pt s
  | .tof m addr input pt => Sys2Proof.Machine.execTof m addr input pt s
  | .tp m addr input pt => Sys2Proof.Machine.execTp m addr input pt s
  | .ctu m addr cu r pv => Sys2Proof.Machine.execCtu m addr cu r pv s
  | .ctd m addr cd ld pv => Sys2Proof.Machine.execCtd m addr cd ld pv s
  | .ctud m addr cu cd r ld pv => Sys2Proof.Machine.execCtud m addr cu cd r ld pv s
  | .rTrig m addr clk => Sys2Proof.Machine.execRTrig m addr clk s
  | .fTrig m addr clk => Sys2Proof.Machine.execFTrig m addr clk s
  | .sbTime m => Sys2Proof.Machine.execSbTime m s
  | .sbTaskInfo m => Sys2Proof.Machine.execSbTaskInfo m s
  | .sbStationState m p addr => Sys2Proof.Machine.execSbStationState m p addr s
  | .sbRxqGet m p e => Sys2Proof.Machine.execSbRxqGet m p e s
  | .sbRxqAck m p e => Sys2Proof.Machine.execSbRxqAck m p e s
  | .sbTxqSubmit m p e words => Sys2Proof.Machine.execSbTxqSubmit m p e words s
  | .sbTxqGet m p e free => Sys2Proof.Machine.execSbTxqGet m p e free s
  | .sbMbxRecv m slot => Sys2Proof.Machine.execSbMbxRecv m slot s
  | .sbMbxSend m msg => Sys2Proof.Machine.execSbMbxSend m msg s
  | .sbRand m => Sys2Proof.Machine.execSbRand m s
  | .mainsReturn => Sys2Proof.Machine.execMainsReturn s
  | .hartReplyTimeout k => Sys2Proof.Machine.execHartReplyTimeout k s
  | .dioOpenClear c => Sys2Proof.Machine.execDioOpenClear c s
  | .stationJabberRelease p serial => Sys2Proof.Machine.execStationJabberRelease p serial s
  | .stationHealthConfirmed p serial => Sys2Proof.Machine.execStationHealthConfirmed p serial s
  | .stationBeaconMissed p serial => Sys2Proof.Machine.execStationBeaconMissed p serial s

end Sys2Proof.Machine
end

