-- ==== Sys2Proof/Safety.lean ====
section
/-!
DEFINITION. What counts as a sound state, in the terms that claims use: the canonical form of what State holds sparsely, and a queue of
well-formed commands.
-/

namespace Sys2Proof.Machine

/-- The word file, both byte memories and the stations are in canonical form, so that equal contents are equal data, and every file of
registers has its size: 16 ports, 16 digital and 8 current channels, 32 tasks on 4 EPs, 4 capture units, 32 sensors. -/
def State.canonical (s : State) : Prop :=
  Cmap.wf dfltWord s.words = true ∧ Memory.wf s.pm = true ∧ Memory.wf s.dram = true ∧
    Cmap.wf (fun _ => StnS.fresh) s.stns = true ∧ s.ports.length = 16 ∧ s.fio.dio.length = 16 ∧ s.fio.cl.length = 8 ∧
    s.prog.tasks.length = 32 ∧ s.prog.running.length = 4 ∧ s.acq.units.length = 4 ∧ s.eps.length = 4 ∧ s.kpr.sensors.length = 32

/-- No trunk driver gate is open and no local output is driven: the safe state of R2. -/
def State.gatesClosed (s : State) : Prop := s.sys.mode.emits = false

/-! ### What a command leaves, in the words of the statements -/

/-- A response to a request stands in its mailbox (R439, R441). -/
def State.answered (t : State) (rq : Rq) (opcode status detail : Nat) (data : List Byte) : Prop :=
  ∃ r ∈ t.kpr.resps, r.mb = rq.mb ∧ r.tag = rq.tag ∧ r.session = rq.session ∧ r.opcode = opcode ∧ r.interim = false ∧
    r.payload = respBytes status detail data

/-- The first response of a background command stands in its mailbox (R443). -/
def State.acceptedRq (t : State) (rq : Rq) (opcode : Nat) (data : List Byte) : Prop :=
  ∃ r ∈ t.kpr.resps, r.mb = rq.mb ∧ r.tag = rq.tag ∧ r.session = rq.session ∧ r.opcode = opcode ∧ r.interim = true ∧
    r.payload = respBytes St.accepted 0 data

/-- The final response of a background command stands in its mailbox under its tag (R443). -/
def State.answeredTag (t : State) (mb : Fin 8) (tag : U16) (opcode status detail : Nat) (data : List Byte) : Prop :=
  ∃ r ∈ t.kpr.resps, r.mb = mb ∧ r.tag = tag ∧ r.opcode = opcode ∧ r.interim = false ∧ r.payload = respBytes status detail data

/-- A control message goes to the partner in the next exchange (R292). -/
def State.controls (t : State) (code arg tick : Nat) : Prop :=
  ∃ x ∈ t.sync.ctlOut, x.code = code ∧ x.arg = arg ∧ x.tick = tick

/-- An event is raised on a channel with these values (R486). -/
def State.raises (t : State) (chan : Nat) (name : String) (vals : List Nat) : Prop :=
  ∃ r ∈ t.recorder.raised, r.chan = chan ∧ r.code = .mod name ∧ r.vals = vals.map w32

/-- The words that count a mailbox's responses and their latency (R473). -/
abbrev mbWords (mb : Nat) : List Nat := [P.kprMbReq mb, P.kprMbFail mb, P.kprMbLatMax mb]

/-- No word but those listed reads otherwise. -/
def State.wordsBut (l : List Nat) (s t : State) : Prop := ∀ k, k ∉ l → t.word k = s.word k

/-- From s to t a request is answered and nothing else happens: the response stands in its mailbox, the request entries, the sessions'
counts and the mailbox's counters may change, and all else is as it was (R439 to R442, R473). -/
def State.replies (s t : State) (rq : Rq) (opcode status detail : Nat) (data : List Byte) : Prop :=
  t.answered rq opcode status detail data ∧ t = { s with kpr := t.kpr, words := t.words } ∧
    t.kpr = { s.kpr with reqs := t.kpr.reqs, resps := t.kpr.resps, sessions := t.kpr.sessions } ∧ s.wordsBut (mbWords rq.mb) t

/-- From s to t a background command is accepted and nothing else happens (R443). -/
def State.accepts (s t : State) (rq : Rq) (opcode : Nat) (data : List Byte) : Prop :=
  t.acceptedRq rq opcode data ∧ t = { s with kpr := t.kpr } ∧
    t.kpr = { s.kpr with reqs := t.kpr.reqs, resps := t.kpr.resps, sessions := t.kpr.sessions }

/-- A request came over one of the mailboxes listed, and not from the partner over MB4. -/
def Rq.over (rq : Rq) (mbs : List Nat) : Prop := rq.onAny mbs = true ∧ rq.mb ≠ 4

/-- The run of task m, released at tick k, is the one that its EP executes: it may call system blocks (R190). -/
def State.calls (s : State) (m : Fin 32) (k : Nat) : Prop :=
  (s.task m).released = some k ∧ (s.task m).finished = false ∧ s.prog.running.getD (s.taskEp m) none = some m.val

/-- A call answers these values, and all else but the memory of its instance is as it was. -/
def State.answersCall (s t : State) (l : List U64) : Prop :=
  t.prog = { s.prog with sbResult := l } ∧ t = { s with dram := t.dram, prog := t.prog } ∧ ∀ a, t.pmByte a = s.pmByte a

/-- Nothing but the record of the run of task m that calls, and what is answered to it, differs. -/
def State.runLeaves (s t : State) (m : Fin 32) (e : RunEffects) : Prop :=
  t.task m = { s.task m with acc := e } ∧ t = { s with prog := t.prog } ∧ ∀ j : Fin 32, j ≠ m → t.task j = s.task j

/-- The next count of a counter (R193). -/
def nextCount (cv pv : U32) (up down r ld : Bool) : U32 :=
  if r then 0 else if ld then pv
  else if up && !down then (if cv = 0x7FFFFFFF#32 then cv else cv + 1)
  else if down && !up then (if cv = 0x80000000#32 then cv else cv - 1)
  else cv

/-- A word of the memory of an instance, as the program sees it. -/
def State.instWord (s : State) (a : Nat) : U32 := w32 (s.memGet a 4)

/-- The call of a counter leaves its instance, and answers, as R193 states. -/
def State.counts (s t : State) (a kind : Nat) (cu cd r ld : Bool) (pv : U32) : Prop :=
  let w := s.instWord a
  let cv := nextCount (s.instWord (a + 8)) pv (cu && !w.getLsbD 29 && w.getLsbD 27) (cd && !w.getLsbD 28 && w.getLsbD 27) r ld
  s.answersCall t [if pv.toInt ≤ cv.toInt then 1 else 0, if cv.toInt ≤ 0 then 1 else 0, cv.setWidth 64] ∧
    t.instWord (a + 8) = cv ∧ t.instWord (a + 12) = pv ∧ (t.instWord a).getLsbD 29 = cu ∧ (t.instWord a).getLsbD 28 = cd ∧
    (t.instWord a).getLsbD 27 = true ∧ fieldOf (t.instWord a) 26 24 = kind ∧
    ∀ b, b < a ∨ a + 16 ≤ b → t.dramByte b = s.dramByte b

/-- A sound frame of the sync link with a number not yet seen is acted on; one of the data plane only from a usable link (R282, R283). -/
def State.takesFrame (s : State) (h : LinkFrame) (data : Bool) : Prop :=
  s.coreUp = true ∧ h.sound = true ∧ (data = true → s.usable h.link = true) ∧ ∀ x ∈ s.sync.seen, x.1 ≠ h.fseq

/-- A debugger's request on EP n that this module admits (R331, R332). -/
def State.debugs (s : State) (rq : Rq) (n : U8) : Prop :=
  rq.over [5] ∧ s.coreUp = true ∧ s.sys.mode.debug = true ∧ n.toNat < 4

/-- The core die is in reset, and the reset kept has this source and scope (R417, R418). -/
def State.inReset (t : State) (src : ResetSrc) (sc : ResetScope) : Prop :=
  t.coreUp = false ∧ t.sys.mode = .boot ∧ t.fld P.sysResetCause 31 28 = src.code ∧ t.fld P.sysResetCause 27 24 = sc.code

/-- A module that stands in FAULT-SAFE with nothing under way that could take it elsewhere: no transition or withdrawal waits, no resync runs,
and no request is with its lead (R249, R321, R411). -/
def State.faultLocked (s : State) : Prop :=
  s.sys.mode = .faultSafe ∧ s.sys.pending = none ∧ s.pair.withdrawing = none ∧ s.sync.resync = none ∧ s.kpr.relays = []

/-- Nothing but one station differs between two states. -/
def State.onlyStation (k : Nat) (s t : State) : Prop := t = { s with stns := t.stns } ∧ ∀ j, j ≠ k → t.stn j = s.stn j

/-- Nothing but the word file differs, and in it no word but those listed. -/
def State.onlyWords (l : List Nat) (s t : State) : Prop := t = { s with words := t.words } ∧ ∀ k, k ∉ l → t.word k = s.word k

/-- Every byte of memory reads as before. -/
def State.sameMemory (s t : State) : Prop := (∀ a, t.pmByte a = s.pmByte a) ∧ ∀ a, t.dramByte a = s.dramByte a

/-- A station takes a management request: its rate is found, the request is for it and no repeat of the one last answered, and it is not
in quarantine (R142, R143, R149). -/
def StnS.takes (x : StnS) (serial : U32) (r : MReq) : Prop :=
  x.rateFound = true ∧ x.isRepeat serial r = false ∧ r.addr.toNat = x.addr ∧ x.quarantined = false

end Sys2Proof.Machine
end

