-- ==== Sys2Proof/Certificates/Slice0/Obligations.lean ====
section
/-!
DEFINITION. The statements for the provers.
-/

open Sys2Proof Sys2Proof.Machine

/-- A step runs the front command with the rest of the queue (R21, R439, R444). -/
def Obligations.StepRunsFrontCommand : Prop :=
  ∀ (c : Instr) (rest : List Instr) (s : State), step { s with pending := c :: rest } = exec c { s with pending := rest }

/-- With nothing queued the block idles (the model's choice, log entry 2) (02_tick_and_time.md). -/
def Obligations.EmptyQueueIdles : Prop := ∀ s : State, s.pending = [] → step s = .next s

/-- Every command completes (R26, R452, R453). -/
def Obligations.EveryCommandCompletes : Prop :=
  (∀ (c : Instr) (s : State), ∃ t, exec c s = .next t) ∧ ∀ s : State, ∃ t, step s = .next t

/-- Every step keeps the state sound (14_operating_modes_and_reset.md, 16_parameter_space.md). -/
def Obligations.EveryStepKeepsCanonical : Prop := ∀ s t : State, s.canonical → step s = .next t → t.canonical

/-- The state after reset is sound (R409, R418). -/
def Obligations.ResetIsCanonical : Prop := State.reset.canonical ∧ State.reset.gatesClosed

/-- What reset leaves (R409, R421, R424). -/
def Obligations.ResetState : Prop :=
  State.reset.sys.mode = .boot ∧ State.reset.sys.diesUp = 0 ∧ State.reset.sys.boot = [1, 2, 3, 4, 5, 6] ∧
    State.reset.pending = [] ∧ State.reset.pm = [] ∧ State.reset.dram = [] ∧
    (∀ k, State.reset.word k = dfltWord k) ∧ ∀ p : Fin 16, (State.reset.port p).running = false ∧ (State.reset.port p).cur = none

/-- A read gives what was last written (R9, R458, 16_parameter_space.md). -/
def Obligations.ReadAfterWrite : Prop :=
  ∀ s : State, s.canonical →
    (∀ k j v, (s.setWord k v).word j = if j = k then v else s.word j) ∧
    (∀ k hi lo v, lo ≤ hi → hi < 32 → (s.setFld k hi lo v).fld k hi lo = v % 2 ^ (hi + 1 - lo) ∧
      ∀ b, b < lo ∨ hi < b → (s.setFld k hi lo v).bit k b = s.bit k b) ∧
    (∀ k b v j c, b < 32 → (s.setBit k b v).bit j c = if j = k ∧ c = b then v else s.bit j c) ∧
    (∀ k j, (s.inc k).word j = if j = k then (if s.word k = 0xFFFFFFFF#32 then s.word k else s.word k + 1) else s.word j) ∧
    (∀ a b v, (s.setPmByte a v).pmByte b = if b = a then v else s.pmByte b) ∧
    (∀ a b v, (s.setDramByte a v).dramByte b = if b = a then v else s.dramByte b) ∧
    ∀ a n v, ofLe (leBytes n v) = v % 256 ^ n ∧ (s.pmPut a n v).pmGet a n = v % 256 ^ n

/-- Wrapping values are compared by signed difference (R10). -/
def Obligations.SignedComparison : Prop := ∀ a b : U32, later32 a b = true ↔ 0 < (a - b).toInt

/-- Timers, jabber and searches of a station (R59, R132, R135, R146, 05_trunk_stations_events_queues.md). -/
def Obligations.StationTimers : Prop :=
  ∀ (s : State) (p : Fin 16) (serial : U32), s.canonical →
    let k := stnKey p serial
    let x := s.stn k
    (∃ t, exec (.stationJabber p serial) s = .next t ∧ t.stn k = { x with jabber := true } ∧ s.onlyStation k t) ∧
    (∃ t, exec (.stationJabberRelease p serial) s = .next t ∧ t.stn k = { x with jabber := false } ∧ s.onlyStation k t) ∧
    (∃ t, exec (.stationHushExpire p serial) s = .next t ∧ t.stn k = { x with hushed := none } ∧ s.onlyStation k t) ∧
    (x.addr = 0xFF → ∃ t, exec (.stationAnnounceNoAnswer p serial) s = .next t ∧
      t.stn k = { x with window := min 256 (2 * x.window) } ∧ s.onlyStation k t) ∧
    (∃ t, exec (.stationRateSearch p serial true) s = .next t ∧ (t.stn k).rateFound = false ∧ (t.stn k).learned = false ∧
      (t.stn k).claimHigh = 0 ∧ (t.stn k).outputs = x.safe ∧ (t.stn k).addr = x.addr ∧ s.onlyStation k t) ∧
    (x.rateFound = false → ∃ t, exec (.stationRateSearch p serial false) s = .next t ∧
      t.stn k = { x with searchRate := (x.searchRate + 1) % 4, rateCand := none } ∧ s.onlyStation k t) ∧
    (x.rateFound = true → ∃ t, exec (.stationBeaconMissed p serial) s = .next t ∧ (t.stn k).missed = x.missed + 1 ∧
      (t.stn k).seq = x.seq + 1 ∧ s.onlyStation k t) ∧
    (5 ≤ x.missed → ∃ t, exec (.stationHoldoverExpire p serial) s = .next t ∧ t.stn k = { x with silent := true } ∧
      s.onlyStation k t) ∧
    (32 ≤ x.missed → ∃ t, exec (.stationBeaconLoss p serial) s = .next t ∧ (t.stn k).rateFound = false ∧
      (t.stn k).searchRate = 0 ∧ (t.stn k).claimHigh = x.claimHigh ∧ (t.stn k).learned = x.learned ∧ s.onlyStation k t)

/-- A station fences refused claims and learns the highest (R137, R138, R139, R140). -/
def Obligations.StationClaims : Prop :=
  ∀ (s : State) (p : Fin 16) (serial : U32), s.canonical →
    let k := stnKey p serial
    let x := s.stn k
    (∀ f b, x.rateFound = true → x.learned = true → f.beacon = some b → b.seq ≠ x.seq → b.seq ≠ x.seq + 1 →
      ∃ t, exec (.stationBeaconReceive p serial f) s = .next t ∧
        t.stn k = { x with seqMismatch := satNat 16 (x.seqMismatch + 1) } ∧ s.onlyStation k t) ∧
    (∀ f b, x.rateFound = true → x.learned = true → f.beacon = some b → b.seq = x.seq → sdiff32 b.claim x.claimHigh < -1 →
      ∃ t, exec (.stationBeaconReceive p serial f) s = .next t ∧
        t.stn k = { x with refusedClaims := satNat 16 (x.refusedClaims + 1) } ∧ s.onlyStation k t) ∧
    (∀ f b, x.rateFound = true → x.learned = true → f.beacon = some b → b.seq = x.seq → -1 ≤ sdiff32 b.claim x.claimHigh →
      b.tail = false →
      ∃ t, exec (.stationBeaconReceive p serial f) s = .next t ∧ (t.stn k).missed = 0 ∧ (t.stn k).gotBeacon = true ∧
        (t.stn k).claimHigh = latest32 x.claimHigh b.claim ∧ (t.stn k).cycleStart = b.plant ∧
        (t.stn k).applyTicks = b.apply ∧ s.onlyStation k t) ∧
    (∀ c, x.learnHeard = some c → x.learned = false → 2 ≤ x.learnCycles + x.learnNow.toNat →
      ∃ t, exec (.stationClaimLearned p serial) s = .next t ∧ t.stn k = { x with learned := true, claimHigh := c } ∧
        s.onlyStation k t) ∧
    (∀ f b, x.rateFound = true → x.learned = true → x.silent = false → f.bcast = some b → b.seq = x.seq →
      sdiff32 b.claim x.claimHigh < -1 →
      ∃ t, exec (.stationBroadcastReceive p serial f) s = .next t ∧
        t.stn k = { x with refusedClaims := satNat 16 (x.refusedClaims + 1) } ∧ s.onlyStation k t) ∧
    (∀ f b, x.rateFound = true → x.learned = true → x.silent = false → x.taken = false → x.quarantined = false →
      f.bcast = some b → b.seq = x.seq → -1 ≤ sdiff32 b.claim x.claimHigh →
      ∃ t, exec (.stationBroadcastReceive p serial f) s = .next t ∧ (t.stn k).taken = true ∧ (t.stn k).missedOutputs = 0 ∧
        (t.stn k).claimHigh = latest32 x.claimHigh b.claim ∧ (t.stn k).outputs = x.outputs ∧
        (t.stn k).stagedOut = insertOut (x.cycleStart + x.applyTicks * 125000, x.outputsOf b) x.stagedOut ∧ s.onlyStation k t)

/-- Output instants and frames of a station (R60, R71, R103, R111, R139, R140). -/
def Obligations.StationFrames : Prop :=
  ∀ (s : State) (p : Fin 16) (serial : U32), s.canonical →
    let k := stnKey p serial
    let x := s.stn k
    (∀ a l rest, x.stagedOut = (a, l) :: rest → x.quarantined = false →
      ∃ t, exec (.stationOutputApply p serial) s = .next t ∧
        t.stn k = { x with stagedOut := rest, outputs := mergeOut x.outputs l, hold := false } ∧ s.onlyStation k t) ∧
    (x.cur.outTimeout ≤ x.missedOutputs → x.hold = false →
      ∃ t, exec (.stationOutputTimeout p serial) s = .next t ∧
        t.stn k = { x with hold := true, outputs := x.holdOrSafe, outTimeouts := satNat 16 (x.outTimeouts + 1) } ∧
        s.onlyStation k t) ∧
    (∀ (part : Fin 4) word, (x.cur.entries.any fun e => e.pos == x.pos && e.part == part.val && !e.noInput) = true →
      x.mayLaunch = true →
      ∃ t, exec (.stationInputLaunch p serial part word none) s = .next t ∧
        (t.stn k).lastLaunch =
          frameBytes 2 (8 * x.hold.toNat + 4 * x.diag.toNat + part.val) x.addr x.seq (beBytes 8 word.toNat) ∧
        lookup64 (t.stn k).inputs part = word ∧ s.onlyStation k t) ∧
    (∀ (part : Fin 4) word (i : Fin 32),
      (x.cur.entries.any fun e => e.pos == x.pos && e.part == part.val && !e.noInput) = true → x.mayDrive = true →
      x.quarantined = false →
      ∃ t, exec (.stationInputLaunch p serial part word (some i)) s = .next t ∧
        (t.stn k).lastLaunch = frameBytes 9 0 x.addr x.seq
          ((List.range 8).map fun j => BitVec.ofNat 8 ((37 * (8 * i.val + j) + 0x5B) % 256)) ∧ s.onlyStation k t) ∧
    (∀ f, x.mayDrive = true → x.quarantined = false → f.codeOk = true → f.crcOk = true → f.type = 7 → f.byte 1 = x.addr →
      ∃ t, exec (.stationRangingReply p serial f) s = .next t ∧
        t.stn k = { x with lastLaunch := frameBytes 8 0 x.addr x.seq [] } ∧ s.onlyStation k t)

/-- Management commands of a station (R142, R143, R144, R146, R149). -/
def Obligations.StationManagement : Prop :=
  ∀ (s : State) (p : Fin 16) (serial : U32) (r : MReq), s.canonical →
    let k := stnKey p serial
    let x := s.stn k
    (x.takes serial r →
      (∃ t, exec (.identify p serial r) s = .next t ∧ (t.stn k).lastReq = some (r.addr.toNat, r.mtag) ∧
        (t.stn k).lastReply = frameBytes 6 0 r.addr.toNat x.seq (padWords ([BitVec.ofNat 8 r.mcmd, BitVec.ofNat 8 r.mtag, 0] ++
          (BitVec.ofNat 8 (x.levelOf serial) :: beBytes 4 serial.toNat) ++
          (beBytes 2 (Config.stnVendor serial).toNat ++ beBytes 2 (Config.stnProduct serial).toNat ++
            beBytes 4 (x.versionOf serial).toNat))) ∧ s.onlyStation k t) ∧
      (r.be 3 4 = serial.toNat → 1 ≤ r.byte 2 → r.byte 2 ≤ 0xC0 →
        ∃ t, exec (.setAddr p serial r) s = .next t ∧ (t.stn k).addr = r.byte 2 ∧ (t.stn k).prevAddr = some x.addr ∧
          (t.stn k).quarantined = false ∧ (t.stn k).hushed = none ∧ (t.stn k).lastReq = some (r.addr.toNat, r.mtag) ∧
          s.onlyStation k t) ∧
      (1 ≤ r.byte 2 → r.byte 2 ≤ 7 → ∃ t, exec (.cfgSlots p serial r) s = .next t ∧
        (t.stn k).slotsIn = r.slots ++ x.slotsIn.filter (fun y => !(r.slots.any (·.1 == y.1))) ∧ (t.stn k).cur = x.cur ∧
        s.onlyStation k t) ∧
      (1 ≤ r.byte 2 → r.byte 2 ≤ 16 → 1 ≤ r.byte 3 → r.byte 3 ≤ 15 → ∃ t, exec (.cfgTiming p serial r) s = .next t ∧
        (t.stn k).timingIn = some (r.byte 2, r.byte 3, r.byte 4, r.byte 5, r.be 8 4, r.be 12 4) ∧ (t.stn k).cur = x.cur ∧
        s.onlyStation k t) ∧
      (x.slotsIn.length = r.byte 2 → noClash ((sortBy (·.1) x.slotsIn).map (·.2)) = true → x.rotMask = 0 →
        ∃ t, exec (.cfgCommit p serial r) s = .next t ∧
          ((t.stn k).staged.map fun c => (c.digest, c.entries)) =
            some (w32 (r.be 3 4), (sortBy (·.1) x.slotsIn).map (·.2)) ∧
          (t.stn k).slotsIn = [] ∧ (t.stn k).cur = x.cur ∧ s.onlyStation k t) ∧
      (∃ t, exec (.readDiag p serial r) s = .next t ∧ (t.stn k).diag = false ∧
        (t.stn k).lastReq = some (r.addr.toNat, r.mtag) ∧ (t.stn k).crcErrs = x.crcErrs ∧ s.onlyStation k t) ∧
      (r.be 3 4 = serial.toNat → ∃ t, exec (.quarantine p serial r) s = .next t ∧ (t.stn k).quarantined = true ∧
        (t.stn k).outputs = x.safe ∧ (t.stn k).stagedOut = [] ∧ s.onlyStation k t) ∧
      (∀ status reply hm sv d, 0x40 ≤ r.mcmd → r.mcmd ≤ 0x7F →
        ∃ t, exec (.stationProfileCommand p serial r status reply hm sv d) s = .next t ∧ (t.stn k).holdMask = hm ∧
          (t.stn k).safeVals = sv ∧ (t.stn k).diag = d ∧ s.onlyStation k t)) ∧
    (x.rateFound = true → x.isRepeat serial r = false → r.addr.toNat = x.addr → r.be 3 4 = serial.toNat → x.quarantined = true →
      ∃ t, exec (.release p serial r) s = .next t ∧ (t.stn k).quarantined = false ∧
        (t.stn k).lastReq = some (r.addr.toNat, r.mtag) ∧ s.onlyStation k t) ∧
    (x.rateFound = true → x.addr = 0xFF → r.addr = 0xFF#8 → r.be 3 4 = serial.toNat → x.quarantined = false → r.byte 2 ≠ 0 →
      ∃ t, exec (.hush p serial r) s = .next t ∧ t.stn k = { x with hushed := some (r.byte 2), window := 4 } ∧
        s.onlyStation k t) ∧
    (x.rateFound = true → x.isRepeat serial r = true → x.mayDrive = true →
      ∃ t, exec (.quarantine p serial r) s = .next t ∧ t.stn k = { x with lastLaunch := x.lastReply } ∧ s.onlyStation k t)

/-- Firmware updates of a station (R145, R534, R535). -/
def Obligations.StationUpdate : Prop :=
  ∀ (s : State) (p : Fin 16) (serial : U32) (r : MReq), s.canonical →
    let k := stnKey p serial
    let x := s.stn k
    (x.takes serial r → x.upd = none → ∃ t, exec (.updBegin p serial r) s = .next t ∧
      (t.stn k).upd = some ⟨r.be 2 2, r.be 4 2, w32 (r.be 12 4), r.byte 6, [], [], false, false⟩ ∧ s.onlyStation k t) ∧
    (∀ u n ok, x.rateFound = true → r.addr.toNat = x.addr → x.quarantined = false → x.upd = some u → u.session = r.be 0 2 →
      r.be 2 2 ≠ 0xFFFF → updLength 256 ((r.payload.drop 8).take (r.byte 6)) 0 = some n → r.be 4 2 = u.fillOf (r.be 2 2) →
      ∃ t v, exec (.updateFrame p serial r ok) s = .next t ∧ (t.stn k).upd = some v ∧
        v.fillOf (r.be 2 2) = u.fillOf (r.be 2 2) + n ∧ v.session = u.session ∧ s.onlyStation k t) ∧
    (∀ u res, x.takes serial r → x.upd = some u → u.session = r.be 2 2 →
      ∃ t, exec (.updVerify p serial r res) s = .next t ∧ (t.stn k).upd = some { u with verified := res == 0 } ∧
        s.onlyStation k t) ∧
    (∀ u, x.takes serial r → x.upd = some u → u.session = r.be 2 2 → u.verified = true →
      ∃ t, exec (.updActivate p serial r) s = .next t ∧ (t.stn k).upd = some { u with switching := true } ∧
        s.onlyStation k t) ∧
    (∀ u, x.upd = some u → u.switching = true →
      ∃ t, exec (.stationBankSwitch p serial) s = .next t ∧ (t.stn k).version = some u.version ∧ (t.stn k).onTrial = true ∧
        (t.stn k).oldVersion = x.version ∧ (t.stn k).rateFound = false ∧ s.onlyStation k t) ∧
    (x.onTrial = true →
      (∃ t, exec (.stationHealthFallback p serial) s = .next t ∧ (t.stn k).version = x.oldVersion ∧ (t.stn k).onTrial = false ∧
        (t.stn k).rateFound = false ∧ s.onlyStation k t) ∧
      ∃ t, exec (.stationHealthConfirmed p serial) s = .next t ∧ (t.stn k).onTrial = false ∧ (t.stn k).version = x.version ∧
        s.onlyStation k t)

/-- Sampling and filtering of a digital input (R340, R341, R343, R344, R346). -/
def Obligations.DigitalSample : Prop :=
  ∀ (s : State) (c : Fin 16) (raw : Bool) (at_ : Nat), s.canonical → s.dioMode c = 1 → s.groupValid (c / 4) = true →
    at_ % (s.fld (dioKey c) 9 0 * 1000) = 0 →
    let d := s.dio c
    let ceil := s.fld (dioKey c) 23 16
    ∃ t, exec (.dioSample c raw at_) s = .next t ∧
      (d.reload = true → (t.dio c).c = (if raw then ceil else 0) ∧ (t.dio c).f = raw ∧ (t.dio c).reload = false) ∧
      (d.reload = false →
        (t.dio c).c = (if raw then min (d.c + 1) ceil else d.c - 1) ∧
        ((t.dio c).f ≠ d.f ↔ (t.dio c).c = if d.f then 0 else ceil) ∧
        ((t.dio c).f ≠ d.f → (t.dio c).decided = at_ ∧ (t.dio c).edges = d.edges + 1 ∧ (t.dio c).dir = (t.dio c).f) ∧
        ((t.dio c).f = d.f → (t.dio c).decided = d.decided ∧ (t.dio c).edges = d.edges)) ∧
      t.word (chKey c 1) = w32 (t.dio c).f.toNat ∧ (∀ j : Fin 16, j ≠ c → t.dio j = s.dio j) ∧
      t = { s with fio := t.fio, words := t.words } ∧ t.fio = { s.fio with dio := t.fio.dio } ∧ s.wordsBut [chKey c 1] t

/-- An output without load sets OPEN (R349). -/
def Obligations.OpenDetection : Prop :=
  ∀ (s : State) (c : Fin 16), s.canonical →
    (s.dioMode c = 2 → (s.dio c).on = true → s.bit (dioKey c) 27 = true → s.bit (chKey c 0) 29 = false →
      ∃ t, exec (.dioOpen c) s = .next t ∧ t.bit (chKey c 0) 29 = true ∧ t.raises 4 "DIO_OPEN" [c] ∧
        t = { s with words := t.words, recorder := t.recorder }) ∧
    (∃ t, exec (.dioOpenClear c) s = .next t ∧ t.bit (chKey c 0) 29 = false ∧ t = { s with words := t.words }) ∧
    (s.dioMode c = 2 → (s.emitDio c false).bit (chKey c 0) 29 = false)

/-- Overload of a channel, and the states of a group (R348, R355, R357, R358, R375, R377). -/
def Obligations.OverloadAndGroups : Prop :=
  ∀ s : State, s.canonical →
    (∀ (c : Fin 16) thermal, s.dioMode c = 2 → (s.dio c).on = true →
      ∃ t, exec (.dioOverload c thermal) s = .next t ∧ (t.dio c).on = false ∧
        t.bit (chKey c 0) (if thermal then 30 else 31) = true ∧ t.word P.fioOvlCnt = satInc32 (s.word P.fioOvlCnt) ∧
        t.raises 4 "DIO_OVERLOAD" [c, thermal.toNat] ∧ (∀ j : Fin 16, j ≠ c → t.dio j = s.dio j)) ∧
    (∀ g : Fin 6, s.groupUp g = true → s.sag g = 0 →
      ∃ t, exec (.groupWarning g) s = .next t ∧ t.sag g = 1 ∧ t.bit P.fioStatus (4 + g) = true ∧
        t.word (grpKey g 2) = satInc32 (s.word (grpKey g 2)) ∧ t.raises 4 "GROUP_WARNING" [g] ∧ t.fio = s.fio) ∧
    (∀ g : Fin 6, s.groupUp g = true → s.sag g ≠ 2 →
      ∃ t, exec (.groupOff g) s = .next t ∧ t.sag g = 2 ∧ t.bit P.fioStatus (10 + g) = true ∧
        t.word (grpKey g 3) = satInc32 (s.word (grpKey g 3)) ∧ t.raises 4 "GROUP_OFF" [g] ∧
        (s.sag g ≤ 1 → hasBit t.fio.outage g = true) ∧ (s.sag g = 3 → t.fio.outage = s.fio.outage) ∧
        (∀ j : Fin 4, if g.val < 4 then (t.dio (4 * g + j)).on = false else (t.cl (4 * (g - 4) + j)).drive = 0)) ∧
    (∀ g : Fin 6, s.groupUp g = true → s.sag g = 2 →
      ∃ t, exec (.groupRecovering g) s = .next t ∧ t.sag g = 3 ∧ t = { s with words := t.words }) ∧
    (∀ g : Fin 6, s.groupUp g = true → s.sag g ≠ 0 → s.sag g ≠ 2 →
      ∃ t, exec (.groupNormal g) s = .next t ∧ t.sag g = 0 ∧ t.bit P.fioStatus (10 + g) = false ∧
        t.bit P.fioStatus (4 + g) = false ∧ hasBit t.fio.outage g = false ∧ t.raises 4 "GROUP_NORMAL" [g] ∧
        t.bit (grpKey g 0) 25 = (s.bit (grpKey g 0) 25 || (hasBit s.fio.outage g && !s.bit (grpKey g 0) 31)) ∧
        (∀ j : Fin 4, if g.val < 4 then (t.dio (4 * g + j)).reload = true else (t.cl (4 * (g - 4) + j)).reload = true)) ∧
    (∀ g : Fin 4, s.groupUp g = true → s.bit (grpKey g 0) 24 = false →
      ∃ t, exec (.groupOverload g) s = .next t ∧ t.bit (grpKey g 0) 24 = true ∧ t.raises 4 "GROUP_OVERLOAD" [g] ∧
        ∀ j : Fin 4, (t.dio (4 * g + j)).on = false)

/-- Faults of current loops, and disagreement of local inputs (R273, R363, R367, R375). -/
def Obligations.CurrentLoopFaults : Prop :=
  ∀ s : State, s.canonical →
    (∀ k : Fin 8, s.clSource k = true → s.groupUp (4 + k / 4) = true →
      ∃ t, exec (.clComplianceSet k) s = .next t ∧ t.bit (chKey (16 + k) 0) 28 = true ∧ t = { s with words := t.words }) ∧
    (∀ k : Fin 8, ∃ t, exec (.clComplianceClear k) s = .next t ∧ t.bit (chKey (16 + k) 0) 28 = false ∧ t = { s with words := t.words }) ∧
    (∀ k : Fin 8, s.clMeasure k = true → s.bit (clKey k 0) 28 = true → 8 ≤ (s.cl k).lowRun →
      ∃ t, exec (.clLiveZero k) s = .next t ∧ t.bit (chKey (16 + k) 0) 26 = true ∧
        t.cl k = { s.cl k with valid := false, reload := true } ∧ t = { s with words := t.words, fio := t.fio }) ∧
    ∀ c : Fin 24, (s.word P.pairDisagreeTicks).toNat ≤ s.pair.disagreeRun.getD c 0 → s.bit (plKey c 0) 25 = false →
      ∃ t, exec (.localDisagree c) s = .next t ∧ t.bit (plKey c 0) 25 = true ∧
        t.fld (plKey c 0) 15 0 = satNat 16 (s.fld (plKey c 0) 15 0 + 1) ∧ t.raises 4 "LOCAL_DISAGREE" [c] ∧
        t = { s with words := t.words, recorder := t.recorder } ∧ s.wordsBut [plKey c 0] t

/-- Commands of the local outputs and of HART (R352, R357, R369, R371, R445, R453). -/
def Obligations.FieldCommands : Prop :=
  ∀ (s : State) (rq : Rq), s.canonical → s.coreUp = true →
    (∀ g : Fin 6, rq.over [0, 1] → s.groupUp g = true →
      (s.sag g = 0 → exec (.fioGroupAck rq g) s = .next { s with kpr.staged := s.kpr.staged ++
        [(⟨s.time.tick + 1, [.groupAck g], some rq, 0x0801, false, false, false, s.sync.fseq⟩ : StagedChange)] }) ∧
      (s.sag g ≠ 0 → ∃ t, exec (.fioGroupAck rq g) s = .next t ∧ s.replies t rq 0x0801 St.refused 0 [])) ∧
    (∀ (c : Fin 24) value, rq.over [0] → s.sys.mode = .service →
      (if c.val < 16 then s.dioMode c = 2 else s.clSource (c - 16) = true) →
      (s.fld (plKey c 0) 27 26 ≠ 1 ∨ (s.pair.partner ≠ .trail ∧ s.pair.partner ≠ .lead) →
        exec (.fioManual rq c value) s = .next { s with kpr.staged := s.kpr.staged ++
          [(⟨s.time.tick + 1, [.manual c value], some rq, 0x0800, false, false, false, s.sync.fseq⟩ : StagedChange)] }) ∧
      (s.fld (plKey c 0) 27 26 = 1 → s.pair.partner = .lead →
        ∃ t, exec (.fioManual rq c value) s = .next t ∧ s.replies t rq 0x0800 St.refused 0 [])) ∧
    ∀ k : Fin 8, rq.over [0, 1, 2] → s.sys.mode.hart = true → s.hartMaster k = true → (∀ h ∈ s.fio.hart, h.chan ≠ k.val) →
      s.bgFull rq.mb = false →
      (∃ t u, exec (.fioHartScan rq k) s = .next t ∧ s.accepts u rq 0x0802 [] ∧
        t = { u with fio.hart := u.fio.hart ++
          [(⟨k, rq, true, 1, hartFrame (some 1) [] 0 [], (s.word P.fioHartRetry).toNat, []⟩ : HartS)] }) ∧
      ∀ (cmd : U8) long data, ∃ t u, exec (.fioHartXfer rq k cmd long data) s = .next t ∧ s.accepts u rq 0x0803 [] ∧
        t = { u with fio.hart := u.fio.hart ++
          [(⟨k, rq, false, 0, hartFrame none long cmd.toNat data, (s.word P.fioHartRetry).toNat, []⟩ : HartS)] }

/-- Replies, time-outs and burst frames of HART (R369, R371, 16_parameter_space.md). -/
def Obligations.HartTransactions : Prop :=
  ∀ (s : State) (k : Fin 8), s.canonical →
    (∀ h, s.fio.hart.find? (fun (x : HartS) => x.chan == k.val) = some h → h.rq.mb ≠ 4 →
      (h.scan = false → ∀ long code status data,
        ∃ t, exec (.hartReplyReceive k true long code status data) s = .next t ∧
          t.answered h.rq 0x0803 St.ok 0 ([code, status, BitVec.ofNat 8 data.length, 0] ++ data) ∧
          t.bit (chKey (16 + k) 0) 25 = false ∧ t.fio.hart = s.fio.hart.filter (fun (x : HartS) => x.chan != k.val)) ∧
      (0 < h.retries → ∀ long code status data,
        exec (.hartReplyReceive k false long code status data) s = exec (.hartReplyTimeout k) s) ∧
      (0 < h.retries → exec (.hartReplyTimeout k) s = .next (s.setHart { h with retries := h.retries - 1 } [{ h with retries := h.retries - 1 }])) ∧
      (h.retries = 0 → h.scan = false →
        ∃ t, exec (.hartReplyTimeout k) s = .next t ∧ t.answered h.rq 0x0803 St.timeout 0 [] ∧
          t.bit (chKey (16 + k) 0) 25 = true ∧ t.word P.fioHartErr = satInc32 (s.word P.fioHartErr) ∧
          t.fio.hart = s.fio.hart.filter (fun (x : HartS) => x.chan != k.val))) ∧
    (s.clMeasure k = true → s.bit (clKey k 0) 26 = true →
      ∃ t, exec (.hartBurstFrame k) s = .next t ∧ t.word P.fioHartErr = satInc32 (s.word P.fioHartErr) ∧
        s.onlyWords [P.fioHartErr] t)

/-- Arming, triggering and stopping a capture unit (R379, R380, R381, R382, R383, R390, R452). -/
def Obligations.CaptureUnits : Prop :=
  ∀ s : State, s.canonical →
    (∀ rq (u : Fin 4), rq.over [0, 1] → s.coreUp = true → s.sys.mode.captures = true →
      (s.cuActive u = false → s.cuArmable u = true →
        ∃ t, exec (.acqArm rq u) s = .next t ∧ t.answered rq 0x0900 St.ok 0 (leBytes 8 s.time.tick) ∧
          t.acq.segs = s.acq.segs.filter (·.unit != u.val) ∧ t.fld (cuKey u 0) 16 0 = 0 ∧
          (if s.fld (cuKey u 2) 31 28 = 7 then t.cuState u = 2 ∧ (t.cu u).inSeg = true ∧ (t.cu u).trigTime = s.plant
           else t.cuState u = 1 ∧ t.cu u = CuS.fresh) ∧ t.fld (cuKey u 0) 28 25 = 0) ∧
      (s.cuActive u = true ∨ s.cuArmable u = false →
        ∃ t, exec (.acqArm rq u) s = .next t ∧ s.replies t rq 0x0900 St.refused 0 [])) ∧
    (∀ rq (u : Fin 4) d, rq.over [0, 1] → s.coreUp = true → s.cuActive u = true →
      ∃ t, exec (.acqStop rq u d) s = .next t ∧ t.answered rq 0x0901 St.ok 0 [] ∧ t.cuState u = 3 ∧
        t.fld (cuKey u 0) 28 25 = 1 ∧ (t.cu u).inSeg = false) ∧
    (∀ (u : Fin 4) at_, s.cuActive u = true →
      ((s.cu u).inSeg = false →
        (∃ t, exec (.captureTrigger u at_ false) s = .next t ∧ t.cuState u = 2 ∧ (t.cu u).inSeg = true ∧
          (t.cu u).trigTime = at_ ∧ (t.cu u).missed = (s.cu u).missed ∧ t = { s with words := t.words, acq := t.acq }) ∧
        ∃ t, exec (.captureTrigger u at_ true) s = .next t ∧
          t.cu u = { s.cu u with missed := satNat 32 ((s.cu u).missed + 1) } ∧ t = { s with acq := t.acq }) ∧
      ((s.cu u).inSeg = true → ∀ dead, exec (.captureTrigger u at_ dead) s = .next s)) ∧
    (∀ rq (mask : Fin 16), rq.over [0, 1] → s.coreUp = true → s.sys.mode.captures = true →
      ∃ t, exec (.acqTrigger rq mask) s = .next t ∧ t.answered rq 0x0902 St.ok 0 (leBytes 8 s.plant) ∧
        ∀ u : Fin 4,
          (hasBit mask.val u = true → s.fld (cuKey u 2) 31 28 = 0 → s.cuActive u = true → (s.cu u).inSeg = false →
            t.cuState u = 2 ∧ (t.cu u).inSeg = true ∧ (t.cu u).trigTime = s.plant) ∧
          (hasBit mask.val u = false → t.cu u = s.cu u ∧ t.word (cuKey u 0) = s.word (cuKey u 0))) ∧
    ∀ (u : Fin 4) d, s.cuActive u = true →
      ∃ t, exec (.captureOverrun u d) s = .next t ∧ t.cuState u = 3 ∧ t.fld (cuKey u 0) 28 25 = 5 ∧ (t.cu u).inSeg = false

/-- Segments, mask violations and exports of the acquisition engine (R381, R383, R389, R390). -/
def Obligations.CaptureSegments : Prop :=
  ∀ s : State, s.canonical →
    (∀ (u : Fin 4) d, (s.cu u).inSeg = true →
      let c := s.cu u
      let no := s.fld (cuKey u 0) 16 0
      let size := (s.word (cuKey u 5)).toNat
      let bytes := ((segHeader c (s.fld (cuKey u 1) 31 29) (s.fld (cuKey u 1) 28 25) no none false d).flatMap fun w => leBytes 4 w.toNat) ++ d.bytes
      let at_ := s.segAddr u (no % s.cuSegs u)
      ∃ t, exec (.segmentClose u d) s = .next t ∧
        (∀ i, i < size → i < bytes.length → t.dramByte (at_ + i) = bytes.getD i 0) ∧
        (∀ a, a < at_ ∨ at_ + size ≤ a → t.dramByte a = s.dramByte a) ∧ (∀ a, t.pmByte a = s.pmByte a) ∧
        (⟨u, no, no % s.cuSegs u⟩ : Seg) ∈ t.acq.segs ∧ t.fld (cuKey u 0) 16 0 = satNat 17 (no + 1) ∧
        (s.bit (cuKey u 2) 25 = false → s.cuSegs u ≤ satNat 17 (no + 1) →
          t.cuState u = 3 ∧ t.fld (cuKey u 0) 28 25 = 2 ∧ (t.cu u).inSeg = false) ∧
        (s.bit (cuKey u 2) 25 = true → s.fld (cuKey u 2) 31 28 ≠ 7 → (t.cu u).inSeg = false ∧ t.cuState u = s.cuState u) ∧
        (s.bit (cuKey u 2) 25 = true → s.fld (cuKey u 2) 31 28 = 7 →
          (t.cu u).inSeg = true ∧ (t.cu u).trigTime = d.firstTime + d.count * 10)) ∧
    (∀ (u : Fin 4) (mask : Fin 8) idx d others, (s.cu u).inSeg = true →
      hasBit (s.fld (cuKey u 1) 23 16) mask.val = true → s.bit (cuKey u 2) 26 = false → s.bit (cuKey u 2) 27 = false →
      ∃ t, exec (.maskViolation u mask idx d others) s = .next t ∧ t.cuState u = 3 ∧ t.fld (cuKey u 0) 28 25 = 3 ∧
        (t.cu u).inSeg = false ∧ t.word P.acqViolCnt = satInc32 (s.word P.acqViolCnt) ∧
        t.raises 0 "MASK_VIOLATION" [u, mask, idx]) ∧
    ∀ rq (u : Fin 4) (first : U32) (count : U16), rq.over [0, 1] → s.coreUp = true →
      count.toNat ≤ s.acq.segs.length →
      (∀ i, i < count.toNat → ∃ g ∈ s.acq.segs, g.unit = u.val ∧ g.no = first.toNat + i) →
      (s.acq.exports.map (·.2.2.2)).foldl (· + ·) 0 + count.toNat * (s.word (cuKey u 5)).toNat ≤ 6 * 2 ^ 30 →
      s.bgFull rq.mb = false →
      ∃ t, exec (.acqExport rq u first count) s = .next t ∧
        t.acq.exports = s.acq.exports ++ [(u.val, first.toNat, count.toNat, count.toNat * (s.word (cuKey u 5)).toNat)] ∧
        t.answered rq 0x0903 St.ok 0 (leBytes 4 (count.toNat * (s.word (cuKey u 5)).toNat)) ∧ t.sameMemory s

/-- Snapshots and marked windows of the Gauge (R394, R395, R397, R398, R399, R400, R453). -/
def Obligations.GaugeRecording : Prop :=
  ∀ s : State, s.canonical →
    (s.gauge.recording = true → s.time.tick % ((s.word P.gaugeSnapMin).toNat * 480000) = 0 →
      (s.gauge.snapBusy = false → ∃ t, exec .gaugeSnapshot s = .next t ∧ t.gauge.snapBusy = true ∧
        t.gauge.snaps = s.gauge.snaps ++
          [⟨s.time.tick, s.gauge.snaps.isEmpty, s.pm, s.dram, s.words, s.prog.hash, s.cfgHash⟩] ∧
        t = { s with gauge := t.gauge }) ∧
      (s.gauge.snapBusy = true → ∃ t, exec .gaugeSnapshot s = .next t ∧
        t.word P.gaugeSnapSkip = satInc32 (s.word P.gaugeSnapSkip) ∧ s.onlyWords [P.gaugeSnapSkip] t)) ∧
    (s.gauge.snapBusy = true →
      exec (.gaugeSnapshotDone false) s = .next { s with gauge.snapBusy := false } ∧
      ∃ t, exec (.gaugeSnapshotDone true) s = .next t ∧ t.word P.gaugeSnapSkip = satInc32 (s.word P.gaugeSnapSkip) ∧
        t.gauge = { s.gauge with snapBusy := false, snaps := s.gauge.snaps.dropLast } ∧
        t = { s with words := t.words, gauge := t.gauge }) ∧
    (∀ a n rest, s.gauge.snaps = a :: n :: rest → s.gauge.copying = none → s.ringSize < s.ringUsed + 2 ^ 28 →
      ∃ t, exec .gaugeFold s = .next t ∧ t = { s with gauge := t.gauge } ∧ t.gauge.snaps = { n with full := true } :: rest ∧
        ∀ r, r ∈ t.gauge.ring ↔ r ∈ s.gauge.ring ∧ n.tick ≤ r.2.tick) ∧
    (∀ rq slot, rq.over [0, 1, 2] → s.coreUp = true → s.gauge.snaps ≠ [] → s.conflict 7 true none = none →
      s.windowSlot = some slot → s.gauge.copying = none →
      ∃ t, exec (.gaugeMark rq) s = .next t ∧ t.answered rq 0x0A00 St.ok 0 (leBytes 4 slot) ∧
        t.gauge.copying = some ⟨slot, 1, s.time.tick, if s.gauge.recording then s.time.tick + (s.word P.gaugePostS).toNat * 8000
          else s.time.tick, s.sys.mode.num⟩ ∧ t.bit P.gaugeStatus 6 = true ∧ t.bit (winKey slot 0) 29 = true) ∧
    (∀ m w trunc gap bytes, s.gauge.copying = some m → (m.stop ≤ s.time.tick ∨ s.gauge.recording = false) →
      s.windowOf m = some (w, trunc, gap, bytes) → s.gauge.waiting = none →
      ∃ t, exec .gaugeWindowCopyDone s = .next t ∧ t.gauge.copying = none ∧ t.gauge.windows = s.gauge.windows ++ [(m.slot, w)] ∧
        t.bit (winKey m.slot 0) 31 = true ∧ t.bit (winKey m.slot 0) 29 = false ∧ t.fld P.gaugeStatus 6 5 = 0 ∧
        t.raises 0 "GAUGE_WINDOW" [m.slot, m.cause] ∧ t.sameMemory s) ∧
    (∀ rq (slot : Fin 8) set, rq.over [0, 1] → s.bit (winKey slot 0) 31 = true →
      ∃ t, exec (.gaugeProtect rq slot set) s = .next t ∧ t.bit (winKey slot 0) 30 = set ∧
        (s.setBit (winKey slot 0) 30 set).replies t rq 0x0A01 St.ok 0 []) ∧
    ∀ rq (slot : Fin 8) offset (len : Fin 262141) i w, rq.over [0, 1] → s.conflict 7 true none = none →
      s.gauge.windows.find? (fun x => x.1 == slot.val) = some (i, w) →
      ∃ t data, exec (.gaugeExport rq slot offset len) s = .next t ∧ t.answered rq 0x0A02 St.ok 0 data ∧
        data.length = len.val ∧ ((s.exportHeader slot w).drop offset).take len.val <+: data ∧
        t.gauge = { s.gauge with exportAt := some s.plant }

/-- Replay of a window (R401, R402, R403, R404, R406, R453). -/
def Obligations.Replay : Prop :=
  ∀ s : State, s.canonical →
    (∀ rq hash win o slot, rq.over [0] → s.sys.mode = .hold → s.bgFull rq.mb = false →
      s.img.objects.find? (fun o => o.hash == hash && o.kind == 4) = some o → o.slot = some slot →
      ∃ t, exec (.replayLoad rq hash true win) s = .next t ∧ t.answered rq 0x0A10 St.ok 0 (leBytes 4 slot) ∧
        (slot, win) ∈ t.gauge.windows ∧ (∀ x ∈ t.gauge.windows, x.1 = slot → x.2 = win) ∧
        (∀ x ∈ t.img.objects, x.hash ≠ hash) ∧ t.bit (winKey slot 0) 31 = true ∧ t.bit (winKey slot 0) 27 = true) ∧
    (∀ rq (slot : Fin 8) tick i w n, rq.over [0] → s.coreUp = true → s.sys.mode = .replay → s.replay.rq = none →
      s.replayCause slot = 0 → s.gauge.windows.find? (fun x => x.1 == slot.val) = some (i, w) → s.bgFull rq.mb = false →
      (w.snaps.filter (·.tick ≤ tick)).getLast? = some n → Memory.wf n.pm = true →
      ∃ t, exec (.replayStart rq slot tick) s = .next t ∧ t.acceptedRq rq 0x0A11 [] ∧
        t.replay = ⟨some slot, n.tick, n.tick, 0, 0, some rq⟩ ∧ t.fld P.replayStatus 31 28 = 2 ∧
        ∀ a, t.pmByte a = Cmap.get byteDflt n.pm a) ∧
    (∀ slot i w digest, s.replay.slot = some slot → s.fld P.replayStatus 31 28 = 2 →
      s.gauge.windows.find? (fun x => x.1 == slot) = some (i, w) → (∀ r ∈ w.recs, r.tick ≠ s.replay.tick) →
      (s.replay.tick < w.endTick → ∀ held, exec (.replayTick [] digest [] false held) s =
        .next { s with replay.executed := s.replay.executed + 1, replay.tick := s.replay.tick + 1 }) ∧
      (w.endTick ≤ s.replay.tick → ∀ held, ∃ t, exec (.replayTick [] digest [] false held) s = .next t ∧
        t.fld P.replayStatus 31 28 = 4 ∧ t.raises 2 "REPLAY_END" [1] ∧ t.sameMemory s) ∧
      ∀ rq held, s.replay.rq = some rq → rq.mb ≠ 4 → ∃ t data, exec (.replayTick [] digest [] true held) s = .next t ∧
        t.fld P.replayStatus 31 28 = 4 ∧ t.raises 2 "REPLAY_END" [7] ∧ t.answered rq 0x0A11 St.ok 0 data ∧
        t.replay.rq = none ∧ t.sameMemory s) ∧
    ∀ rq, rq.over [0] → s.coreUp = true → s.sys.mode = .replay → s.fld P.replayStatus 31 28 = 2 →
      ∃ t, exec (.replayStop rq) s = .next t ∧ t.answered rq 0x0A12 St.ok 0 [] ∧ t.fld P.replayStatus 31 28 = 4 ∧
        t.raises 2 "REPLAY_END" [6] ∧ t.replay.rq = none ∧ t.sameMemory s

/-- Program windows and the ends of runs (R167, R169, R178, R183, 06_program_execution.md). -/
def Obligations.ProgramWindows : Prop :=
  ∀ s : State, s.canonical →
    (s.running = true → (∀ m : Fin 32, (s.task m).newCode = true → (s.task m).migrated = true) →
      ∀ meas, ∃ t, exec (.programWindowOpen meas) s = .next t ∧ t = { s with prog := t.prog } ∧
        (∀ (ep : Fin 4) m, t.prog.running.getD ep none = some m →
          m < 32 ∧ s.taskKind m ≠ 0 ∧ s.taskEp m = ep ∧ s.taskReady m = true ∧ (t.task m).started = true ∧
          ∀ x : Fin 32, s.taskKind x ≠ 0 → s.taskEp x = ep → s.taskReady x = true → s.taskPrio m ≤ s.taskPrio x) ∧
        ∀ ep : Fin 4, t.prog.running.getD ep none = none →
          ∀ x : Fin 32, s.taskKind x ≠ 0 → s.taskEp x = ep → s.taskReady x = false) ∧
    ∀ (m : Fin 32) eff, s.prog.running.getD (s.taskEp m) none = some m.val → s.taskKind m ≠ 3 → eff.inst = [] →
      ∃ t, exec (.runFinish m eff) s = .next t ∧ (t.task m).finished = true ∧
        (t.task m).fresh = some ((s.task m).acc.add eff) ∧ t.bit (statKey m 0) 1 = false ∧
        t.prog.running.getD (s.taskEp m) none ≠ some m.val ∧ t.sameMemory s ∧ t = { s with words := t.words, prog := t.prog }

/-- Timers (R190, R191, R192). -/
def Obligations.Timers : Prop :=
  (∀ (s : State) (m : Fin 32) k (a : Nat) (i : Bool) (pt : U64), s.canonical → s.calls m k → isPrgData a = true →
    isPrgData (a + 31) = true →
    let x := s.timer a
    let now := k * 125000 % 2 ^ 64
    ∀ c y, (c, y) ∈ [(Instr.ton m a i pt, x.ton now pt.toNat i), (Instr.tof m a i pt, x.tof now pt.toNat i),
        (Instr.tp m a i pt, x.tp now pt.toNat i)] →
      ∃ t, exec c s = .next t ∧ s.answersCall t [if y.q then 1 else 0, BitVec.ofNat 64 y.et] ∧
        t.timer a = { y with inPrev := i, primed := true } ∧ ∀ b, b < a ∨ a + 32 ≤ b → t.dramByte b = s.dramByte b) ∧
  ∀ (x : Timer) (now pt : Nat),
    (x.ton now pt false).q = false ∧ (x.ton now pt false).et = 0 ∧
    (x.inPrev = true → x.primed = true → (x.ton now pt true).et = elapsed now x.start pt ∧
      ((x.ton now pt true).q = true ↔ (x.ton now pt true).et = pt)) ∧
    (x.primed = false → now < 2 ^ 64 → (x.ton now pt true).start = now ∧ (x.ton now pt true).et = 0) ∧
    (x.primed = false → x.timing = false → (x.tof now pt false) = x ∧ ∀ i, (x.tp now pt i).q = false) ∧
    (x.tof now pt true).q = true ∧
    (x.primed = true → x.inPrev = false → x.timing = false → now < 2 ^ 64 → 0 < pt →
      (x.tp now pt true).q = true ∧ (x.tp now pt true).start = now)

/-- Counters and edge detectors (R190, R193, R194). -/
def Obligations.CountersAndEdges : Prop :=
  ∀ (s : State) (m : Fin 32) k (a : Nat), s.canonical → s.calls m k → isPrgData a = true → isPrgData (a + 15) = true →
    (∀ cu r pv, ∃ t, exec (.ctu m a cu r pv) s = .next t ∧ s.counts t a 1 cu false r false pv) ∧
    (∀ cd ld pv, ∃ t, exec (.ctd m a cd ld pv) s = .next t ∧ s.counts t a 2 false cd false ld pv) ∧
    (∀ cu cd r ld pv, ∃ t, exec (.ctud m a cu cd r ld pv) s = .next t ∧ s.counts t a 3 cu cd r ld pv) ∧
    ∀ clk : Bool,
      let w := s.instWord a
      let up := w.getLsbD 29 && clk && !w.getLsbD 30
      let down := w.getLsbD 29 && !clk && w.getLsbD 30
      (∃ t, exec (.rTrig m a clk) s = .next t ∧ s.answersCall t [if up then 1 else 0] ∧ (t.instWord a).getLsbD 31 = up ∧
        (t.instWord a).getLsbD 30 = clk ∧ (t.instWord a).getLsbD 29 = true ∧
        ∀ b, b < a ∨ a + 4 ≤ b → t.dramByte b = s.dramByte b) ∧
      ∃ t, exec (.fTrig m a clk) s = .next t ∧ s.answersCall t [if down then 1 else 0] ∧ (t.instWord a).getLsbD 31 = down ∧
        (t.instWord a).getLsbD 30 = clk ∧ (t.instWord a).getLsbD 29 = true ∧
        ∀ b, b < a ∨ a + 4 ≤ b → t.dramByte b = s.dramByte b

/-- The other system blocks (R45, R158, R160, R162, R171, R178, R185, R188, R189, R190). -/
def Obligations.SystemBlocks : Prop :=
  ∀ (s : State) (m : Fin 32) k, s.canonical → s.calls m k →
    exec (.sbTime m) s = .next { s with prog.sbResult :=
      [BitVec.ofNat 64 k, BitVec.ofNat 64 (k * 125000), BitVec.ofNat 64 (k * 125 % 2 ^ 32)] } ∧
    exec (.sbTaskInfo m) s = .next { s with prog.sbResult := (s.entry 0x40C1 m 4).map fun w => w.setWidth 64 } ∧
    (∀ (p : Fin 16) (a : U8), 1 ≤ a.toNat → a.toNat ≤ 192 →
      exec (.sbStationState m p a) s = .next { s with prog.sbResult := ((s.pmByte (inImage p + 0x1B00 + a.toNat - 1)).setWidth 64 ::
        (List.range 4).map fun k => (s.pmByte (inImage p + 0x1800 + partIdx a.toNat k)).setWidth 64) }) ∧
    (∀ (p : Fin 16) (e : Fin 64), exec (.sbRxqGet m p e) s = .next { s with prog.sbResult :=
      (if s.bit (rxKey p e 0) 0 then (s.entry (0x20C6 + 0x100 * p) e 20).map fun w => w.setWidth 64 else []) }) ∧
    (∀ (p : Fin 16) (e : Fin 64), ∃ t, exec (.sbRxqAck m p e) s = .next t ∧
      s.runLeaves t m { (s.task m).acc with rxqAcks := (s.task m).acc.rxqAcks ++ [(p, e)] }) ∧
    (∀ (p e : Fin 16) ws, ∃ t, exec (.sbTxqSubmit m p e ws) s = .next t ∧
      s.runLeaves t m { (s.task m).acc with txqPuts := (s.task m).acc.txqPuts ++ [(p, e, ws)] }) ∧
    (∀ (p e : Fin 16), ∃ t, exec (.sbTxqGet m p e true) s = .next t ∧
      t.prog.sbResult = (s.entry (0x20C7 + 0x100 * p) e 36).map (fun w => w.setWidth 64) ∧
      s.runLeaves t m { (s.task m).acc with txqFrees := (s.task m).acc.txqFrees ++ [(p, e)] }) ∧
    (∀ (slot : Fin 16) j n, s.prog.inboxUsed.find? (·.1 == slot.val) = some (j, n) →
      ∃ t, exec (.sbMbxRecv m slot) s = .next t ∧
        t.prog.sbResult = BitVec.ofNat 64 n :: (Cmap.getAll byteDflt s.pm (inboxSlot slot) n).map (fun b => b.setWidth 64) ∧
        s.runLeaves t m { (s.task m).acc with inboxReads := (s.task m).acc.inboxReads ++ [slot] }) ∧
    (∀ msg, ∃ t, exec (.sbMbxSend m msg) s = .next t ∧
      s.runLeaves t m { (s.task m).acc with outbox := (s.task m).acc.outbox ++ [msg.take 4096] }) ∧
    ∃ t, exec (.sbRand m) s = .next t ∧ t.prog.sbResult = [BitVec.ofNat 64 (ofLe (shake256
        (s.prog.seed ++ leBytes 1 m ++ leBytes 8 k ++ leBytes 4 (s.task m).randCalls) 4))] ∧
      t.task m = { s.task m with randCalls := (s.task m).randCalls + 1 } ∧ t = { s with prog := t.prog }

/-- Retentive saves and messages of the program (R184, R188, R203, R204, R292, R446). -/
def Obligations.RetentiveAndMessages : Prop :=
  ∀ s : State, s.canonical →
    (s.running = true → s.prog.retainNext ≤ s.time.tick → s.chgPhase ≠ 5 → s.chgPhase ≠ 6 →
      (s.prog.retainBusy = none → ∃ t b, exec .retainSave s = .next t ∧ t = { s with prog := t.prog } ∧
        t.prog.retainBusy = some (b, s.prog.retainGen + 1, s.retainCells) ∧ t.prog.retainGen = s.prog.retainGen + 1 ∧
        t.prog.retainNext = s.time.tick + (s.word P.prgRetainPeriod).toNat ∧ ∀ x ∈ t.prog.retainMark, x.1 ≠ b) ∧
      (s.prog.retainBusy ≠ none → ∃ t, exec .retainSave s = .next t ∧
        t.word P.prgRetainSkip = satInc32 (s.word P.prgRetainSkip) ∧
        t.prog = { s.prog with retainNext := s.time.tick + (s.word P.prgRetainPeriod).toNat })) ∧
    (∀ b gen cells, s.prog.retainBusy = some (b, gen, cells) →
      ∃ t, exec .retainSaveDone s = .next t ∧ t.bit P.prgStatus 12 = true ∧
        t.prog = { s.prog with retainBusy := none, retainMark := s.prog.retainMark ++ [(b, gen, s.prog.hash, cells)] } ∧
        t = { s with words := t.words, prog := t.prog } ∧ s.wordsBut [P.prgStatus] t) ∧
    (∀ rq msg, rq.over [3] → s.coreUp = true → s.sys.mode = .standalone ∨ s.sys.mode = .lead → msg.length ≤ 4096 →
      (s.inboxLoad < 16 → ∃ t, exec (.prgMsgSend rq msg) s = .next t ∧
        t.prog = { s.prog with inbox := s.prog.inbox ++ [(s.time.tick + (s.word P.prgMbxDelay).toNat, msg)] } ∧
        t.answered rq 0x0406 St.ok 0 (leBytes 8 (s.time.tick + (s.word P.prgMbxDelay).toNat))) ∧
      (16 ≤ s.inboxLoad → ∃ t, exec (.prgMsgSend rq msg) s = .next t ∧ s.replies t rq 0x0406 St.busy 0 [])) ∧
    (∀ msg rest, s.prog.outbox = msg :: rest → (s.kpr.resps.filter fun r => r.mb == (3 : Fin 8)).length < 16 →
      ∃ t, exec .prgMsgOut s = .next t ∧ t.prog = { s.prog with outbox := rest } ∧
        (∃ r ∈ t.kpr.resps, r.mb = 3 ∧ r.opcode = 0x0407 ∧ r.unsol = true ∧ r.payload = msg) ∧
        t = { s with prog := t.prog, kpr := t.kpr }) ∧
    ∀ rq (task : U8), rq.over [0] → s.coreUp = true → s.sys.mode = .standalone ∨ s.sys.mode = .lead → task.toNat < 32 →
      s.taskKind task.toNat ≠ 0 → (s.task task.toNat).suspended = true →
      ∃ t, exec (.prgTaskResume rq task) s = .next t ∧
        t.kpr.staged = s.kpr.staged ++ [(⟨s.time.tick + 16, [.resume task.toNat], some rq, 0x0405, s.paired, false, false, s.sync.fseq⟩ : StagedChange)] ∧
        t = { s with kpr := t.kpr, sync := t.sync } ∧
        (s.paired = false → s.serving = false → t.sync = s.sync) ∧
        (s.paired = true → ∃ c ∈ t.sync.ctlOut, c.code = 0x20 ∧ c.arg = 3 ∧ c.word = s.sync.fseq ∧ c.tick = s.time.tick + 16)

/-- Forces take effect together at their tick (R199, R200, R292, R445). -/
def Obligations.Forces : Prop :=
  ∀ s : State, s.canonical →
    (∀ rq, rq.over [0, 1] → s.coreUp = true → s.sys.mode = .standalone ∨ s.sys.mode = .lead →
      s.conflict 1 true none = none →
      let eff := s.time.tick + (s.word P.prgForceDelay).toNat
      (∃ t, exec (.prgForceCommit rq) s = .next t ∧
        t.kpr.staged = s.kpr.staged ++ [(⟨eff, [.forces true], some rq, 0x0403, s.paired, false, false, s.sync.fseq⟩ : StagedChange)] ∧
        t = { s with kpr := t.kpr, sync := t.sync } ∧
        (s.paired = true → ∃ c ∈ t.sync.ctlOut, c.code = 0x20 ∧ c.arg = 1 ∧ c.tick = eff)) ∧
      ∃ t, exec (.prgForceClear rq) s = .next t ∧
        t.kpr.staged = s.kpr.staged ++ [(⟨eff, [.forces false], some rq, 0x0404, s.paired, false, false, s.sync.fseq⟩ : StagedChange)] ∧
        t = { s with kpr := t.kpr, sync := t.sync } ∧
        (s.paired = true → ∃ c ∈ t.sync.ctlOut, c.code = 0x20 ∧ c.arg = 2 ∧ c.tick = eff)) ∧
    ∀ c rq commit, s.kpr.staged = [c] → c.effect ≤ s.time.tick → c.items = [.forces commit] → c.rq = some rq → rq.mb ≠ 4 →
      (c.relayed = false ∨ c.acked = true) →
      ∃ t, exec .forceEffect s = .next t ∧ t.kpr.staged = [] ∧ t.answered rq c.opcode St.ok 0 (leBytes 8 c.effect) ∧
        ∀ e w, e < 16384 → w < 64 →
          t.word (tkey 0x40C5 e w) = (if commit then s.word (tkey 0x40C2 e w) else 0) ∧
          t.word (tkey 0x40C2 e w) = if commit then s.word (tkey 0x40C2 e w) else 0

/-- The loop window and the law of a loop (R26, R229, R234, R235, 08_loop_engine.md). -/
def Obligations.LoopWindowAndLaw : Prop :=
  ∀ s : State, s.canonical →
    (s.bit P.loopStatus 7 = true →
      (∀ loops gens groups ns, ∃ t, exec (.loopWindow loops gens groups ns) s = .next t ∧ t.loop.evaluated = true ∧
        t.word P.loopWindowMax = (if (s.word P.loopWindowMax).toNat < ns then w32 ns else s.word P.loopWindowMax)) ∧
      ∀ loops gens groups ns, (∀ l ∈ s.loops, l ∈ loops) → (∀ g ∈ s.gens, g ∈ gens) →
        ∃ t, exec (.loopWindow loops gens groups ns) s = .next t ∧ t.loop.undo = [] ∧
          (∀ l, l ∈ t.loop.lateLoops ↔ l ∈ s.loops ∧ s.loopDue s.time.tick l = true) ∧
          t = { s with words := t.words, loop := t.loop } ∧ s.wordsBut [P.loopWindowMax] t) ∧
    ∀ l : Fin 1024,
      let t := s.loopLaw l
      let pv := s.loopPv l
      let e := if s.bit (lcKey l 0) 30 then F32.sub pv.1 (s.loopSp l) else F32.sub (s.loopSp l) pv.1
      let bad := pv.2 = true ∧ s.fld (lcKey l 0) 23 22 ≠ 2
      t.word (lsKey l 1) = e ∧ t.word (lsKey l 3) = s.lvlVal l (t.fld (lsKey l 0) 31 30) ∧
        (bad → s.fld (lcKey l 0) 23 22 = 1 → t.fld (lsKey l 0) 31 30 = s.fld (lcKey l 0) 25 24) ∧
        (bad → s.fld (lcKey l 0) 23 22 ≠ 1 → t.fld (lsKey l 0) 31 30 = s.fld (lsKey l 0) 31 30) ∧
        (¬ bad → (s.cell (l * 4)).getLsbD 30 = true → t.fld (lsKey l 0) 31 30 = fieldOf (s.cell (l * 4)) 29 28) ∧
        (¬ bad → (s.cell (l * 4)).getLsbD 30 = false →
          t.fld (lsKey l 0) 31 30 ≤ s.fld (lsKey l 0) 31 30 + 1 ∧ s.fld (lsKey l 0) 31 30 ≤ t.fld (lsKey l 0) 31 30 + 1) ∧
        ∀ ovr compl, (s.integrate l ovr compl).bit (lsKey l 0) 28 = ovr ∧ (s.integrate l ovr compl).bit (lsKey l 0) 27 = compl ∧
          (s.bit (lsKey l 0) 29 = true ∨ ovr = true ∨ compl = true ∨ s.bit (lsKey l 0) 26 = true ∨ s.bit (lsKey l 0) 25 = true ∨
            (s.cell (l * 4)).getLsbD 31 = true → (s.integrate l ovr compl).word (lsKey l 2) = s.word (lsKey l 2)) ∧
          s.wordsBut [lsKey l 0, lsKey l 2] (s.integrate l ovr compl)

/-- Staging and committing an online change (R209, R210, R211, R212, R222, R453). -/
def Obligations.StagingChange : Prop :=
  ∀ s : State, s.canonical → s.coreUp = true → s.sys.mode = .standalone ∨ s.sys.mode = .lead →
    (∀ rq obj pkg, rq.over [0] → s.chgPhase ≠ 2 → s.conflict 0 true none = none →
      (∃ o ∈ s.img.objects, o.kind = 2 ∧ o.hash = obj) →
      (s.stageCause pkg s.kpr.ownerKey.isSome = 0 → s.bgFull rq.mb = false →
        (s.paired = false → s.background 0x0400 = none → ∃ t, exec (.prgChangeStage rq obj pkg true) s = .next t ∧
          t.chgPhase = 2 ∧ t.change.package = some pkg ∧ (∀ o ∈ t.img.objects, o.hash ≠ obj) ∧ t.answered rq 0x0400 St.ok 0 []) ∧
        (s.paired = true → ∃ t, exec (.prgChangeStage rq obj pkg true) s = .next t ∧ t.chgPhase = 1 ∧
          t.change.package = some pkg ∧ t.acceptedRq rq 0x0400 [] ∧ ∃ m ∈ t.sync.msgOut, m.kind = 2 ∧ m.body = pkg.hash)) ∧
      ∃ t, exec (.prgChangeStage rq obj pkg false) s = .next t ∧ t.fld P.prgChangeStatus 12 9 = 1 ∧
        t.bit P.prgChangeStatus 8 = true ∧ t.change = s.change ∧ t.answered rq 0x0400 St.verifyFail 1 []) ∧
    (∀ rq, rq.over [0] → 1 ≤ s.chgPhase → s.chgPhase ≤ 3 →
      ∃ t, exec (.prgChangeDiscard rq) s = .next t ∧ t.chgPhase = 0 ∧ t.change.package = none ∧ t.change.agree = none ∧
        t.answered rq 0x0402 St.ok 0 []) ∧
    ∀ rq tick, rq.over [0] → s.chgPhase = 2 → s.bgFull rq.mb = false →
      let c := if tick = 0 then s.time.tick + (s.word P.prgChangeLead).toNat else tick
      s.commitCause c s.time.tick = 0 →
      (s.paired = false → ∃ t, exec (.prgChangeCommit rq tick) s = .next t ∧ t.chgPhase = 4 ∧ t.change.commit = c ∧
        t.change.agree = some .confirmed ∧ t.change.package = s.change.package ∧ t.word P.prgChangeTickLo = lo32 c ∧
        t.acceptedRq rq 0x0401 (leBytes 8 c)) ∧
      (s.paired = true → ∃ t, exec (.prgChangeCommit rq tick) s = .next t ∧ t.chgPhase = 3 ∧ t.change.commit = c ∧
        t.change.agree = some .proposed ∧ t.change.lead = true ∧ t.acceptedRq rq 0x0401 (leBytes 8 c) ∧
        ∃ x ∈ t.sync.ctlOut, x.code = 0x10 ∧ x.tick = c)

/-- Agreeing a commit in three messages (R212, R222, R223, R292). -/
def Obligations.CommitAgreement : Prop :=
  ∀ s : State, s.canonical →
    (∀ c hash seed, s.sys.mode = .trail → s.bit P.pairStatus 25 = false →
      (s.chgPhase = 2 → s.change.package.map (·.program) = some hash →
        s.commitCause c (c - (s.word P.prgChangeLead).toNat) = 0 →
        ∃ t, exec (.chgPropose c hash seed) s = .next t ∧ t.chgPhase = 3 ∧
          t.change = { s.change with commit := c, agree := some .acked, proposedAt := s.time.tick, seed := seed, lead := false,
                                     ackSent := true } ∧ ∃ x ∈ t.sync.ctlOut, x.code = 0x11 ∧ x.tick = c) ∧
      (s.chgPhase ≠ 2 → ∃ t, exec (.chgPropose c hash seed) s = .next t ∧ t.change = s.change ∧ t.chgPhase = s.chgPhase ∧
        t.fld P.prgChangeStatus 12 9 = 6 ∧ t.raises 3 "CHANGE_NAK" [6] ∧
        ∃ x ∈ t.sync.ctlOut, x.code = 0x12 ∧ x.arg = 6 ∧ x.tick = c)) ∧
    (∀ c, s.chgPhase = 3 → s.change.lead = true → s.change.commit = c →
      (s.time.tick + 8 ≤ c → ∃ t, exec (.chgAck c) s = .next t ∧ t.chgPhase = 4 ∧
        t.change = { s.change with agree := some .confirmed } ∧ ∃ x ∈ t.sync.ctlOut, x.code = 0x13 ∧ x.tick = c) ∧
      (∀ cause, ∃ t, exec (.chgNak c cause) s = .next t ∧ t.chgPhase = 2 ∧ t.fld P.prgChangeStatus 12 9 = 11 ∧
        t.bit P.prgChangeStatus 7 = true ∧ t.change = { s.change with agree := none, ackSent := false } ∧
        t.raises 3 "CHANGE_NAK" [cause] ∧ t.raises 2 "CHANGE_ABANDONED" [11]) ∧
      (min (s.change.proposedAt + 8) (c - 8) ≤ s.time.tick → ∃ t, exec .chgAckTimeout s = .next t ∧ t.chgPhase = 2 ∧
        t.change = { s.change with agree := none, ackSent := false } ∧ t.raises 2 "CHANGE_ABANDONED" [0] ∧
        ∃ m ∈ t.sync.msgOut, m.kind = 7)) ∧
    ∀ c, s.chgPhase = 3 → s.change.lead = false → s.change.commit = c →
      (s.time.tick + 4 ≤ c → ∃ t, exec (.chgConfirm c) s = .next t ∧ t.chgPhase = 4 ∧
        t.change = { s.change with agree := some .confirmed } ∧ t = { s with words := t.words, change := t.change }) ∧
      (s.change.ackSent = true → c ≤ s.time.tick + 4 → s.pair.hbMissed < 8 → s.sys.mode = .trail →
        ∃ t, exec .chgConfirmTimeout s = .next t ∧ t.pair = { s.pair with withdrawAt := some (c, 0x07) } ∧ t.chgPhase = 2 ∧
          t.change = { s.change with agree := none, ackSent := false } ∧ t.raises 3 "CHANGE_NO_CONFIRM" [])

/-- The commit tick and the full save of a change (R189, R213, R214, R220). -/
def Obligations.CommitAndSave : Prop :=
  ∀ (s : State) (k : Package), s.canonical → s.change.package = some k →
    (s.chgPhase = 4 → s.change.commit ≤ s.time.tick →
      (∀ m : Fin 32, s.taskKind m ≠ 0 → fieldOf ((k.tasks.getD m []).getD 0 0) 31 30 ≠ 0) →
      ∃ t, exec .changeCommitTick s = .next t ∧ t.chgPhase = 5 ∧ t.prog.seed = s.change.seed ∧ t.prog.retainBusy = none ∧
        t.bit P.loopStatus 6 = !s.bit P.loopStatus 6 ∧
        (∀ m, m ∈ t.change.pending ↔ m < 32 ∧ fieldOf ((k.tasks.getD m []).getD 0 0) 31 30 ≠ 0) ∧
        t.fld P.prgChangeStatus 5 0 = t.change.pending.length ∧ t.sys = s.sys ∧ t.pair = s.pair) ∧
    (s.chgPhase = 6 → ∃ t, exec .changeSaveDone s = .next t ∧ t.chgPhase = 7 ∧ t.change.package = none ∧
      t.prog.hash = k.program ∧ t.prog.package = some (k.after s.prog.package) ∧
      t.prog.retainMark.map (fun b => (b.1, b.2.1, b.2.2.1)) =
        [(0, s.prog.retainGen + 1, k.program), (1, s.prog.retainGen + 2, k.program)] ∧
      t.word P.prgChangeCount = satInc32 (s.word P.prgChangeCount) ∧ t.bit P.prgStatus 12 = true ∧
      t.raises 2 "CHANGE_DONE" [] ∧
      ∀ rq, s.background 0x0401 = some rq → rq.mb ≠ 4 → t.answered rq 0x0401 St.ok 0 (leBytes 8 s.time.tick))

/-- Frames that a trunk port receives (R80, R81, R92, R98, R104, R112, R157, R250, R252, R289, R290). -/
def Obligations.TrunkReception : Prop :=
  ∀ (s : State) (p : Fin 16), s.canonical → s.receives p = true →
    (∀ f, f.codeOk = false →
      (∃ t, exec (.trunkBeaconReceive p f) s = .next t ∧ t.word (P.trkCodeErr p) = satInc32 (s.word (P.trkCodeErr p)) ∧
        s.onlyWords [P.trkCodeErr p] t) ∧
      (∃ t, exec (.partnerBroadcastReceive p f) s = .next t ∧ t.word (P.trkCodeErr p) = satInc32 (s.word (P.trkCodeErr p)) ∧
        s.onlyWords [P.trkCodeErr p] t) ∧
      ∀ i m, ∃ t, exec (.slotFrameReceive p i f m) s = .next t ∧
        t.word (P.trkCodeErr p) = satInc32 (s.word (P.trkCodeErr p)) ∧ s.onlyWords [P.trkCodeErr p] t) ∧
    (∀ f b, f.codeOk = true → f.beacon = some b → b.tail = s.isHead p →
      ∃ t, exec (.trunkBeaconReceive p f) s = .next t ∧ t.pair.high = latest32 s.pair.high b.claim ∧
        t.sys = { s.sys with heardAt := s.plant } ∧ t.pair.claim = s.pair.claim ∧
        (s.sys.mode = .lead → 0 < sdiff32 b.claim s.pair.claim → s.pair.withdrawing = none →
          t.pair.withdrawing = some 4 ∧ t.bit P.pairStatus 17 = true ∧ t.controls 0x01 4 (s.time.tick + 1)) ∧
        s.wordsBut [P.trkStatus p, P.trkRateDet p, P.pairStatus, P.pairDeposedCnt] t ∧ t.sameMemory s) ∧
    (∀ f b, f.codeOk = true → f.bcast = some b → b.tail = s.isHead p → s.sys.mode ≠ .trail →
      ∃ t, exec (.partnerBroadcastReceive p f) s = .next t ∧ t.pair.high = latest32 s.pair.high b.claim ∧
        t.fld (ptKey p 0) 31 24 = b.seq.toNat ∧ t.fld (ptKey p 0) 23 16 = 0 ∧ t.bit (ptKey p 0) 0 = true ∧
        (b.seq = seqOf (s.port p).cycle → (t.port p).partnerBcast = some b.bytes) ∧
        (s.sys.mode = .lead → 0 < sdiff32 b.claim s.pair.claim → s.pair.withdrawing = none → t.pair.withdrawing = some 4)) ∧
    (∀ c, (s.port p).cur = some c →
      (∀ i f m e launch, f.codeOk = true → (c.slots ((s.port p).pos c))[i]? = some (e, launch) → e.eqSet < 1024 →
        (f.crcOk = true → f.type = 2 → f.byte 1 = e.addr → f.byte 0 % 4 = e.part →
          f.byte 2 = (seqOf (s.port p).cycle).toNat → f.bytes.length = 16 →
          let due := (s.port p).cycleStart + launch + (if s.isHead p then (s.delay p e.addr).head else (s.delay p e.addr).tail)
          (due ≤ f.stamp + 250 → f.stamp ≤ due + 250 →
            ∃ t, exec (.slotFrameReceive p i f m) s = .next t ∧
              (t.port p).own = (s.port p).own.filter (·.slot != i) ++
                [(⟨i, f.bytes.getD 0 0, BitVec.ofNat 64 (ofBe (f.payload.take 8)), if s.isHead p then 1 else 2, false⟩ : SlotRec)] ∧
              t.sync.rxOut = s.sync.rxOut ++
                [(⟨p, 1, e.idx, (s.port p).cycle, f.stamp, f.bytes.take 4, f.payload⟩ : RxRecord)]) ∧
          (f.stamp + 250 < due → ∃ t, exec (.slotFrameReceive p i f m) s = .next t ∧
              t.word (P.schedSlotTiming p) = satInc32 (s.word (P.schedSlotTiming p)) ∧ t.sync = s.sync ∧
              (t.port p).own = (s.port p).own)) ∧
        (f.crcOk = false → ∃ t, exec (.slotFrameReceive p i f m) s = .next t ∧
          t.fld (snrKey p e.eqSet 1) 31 16 = satNat 16 (s.fld (snrKey p e.eqSet 1) 31 16 + 1) ∧ t.sync = s.sync ∧
          (t.port p).own = (s.port p).own)) ∧
      (∀ (m : Fin 32) f, f.codeOk = true → f.crcOk = true →
        (f.type = 4 → ∃ t, exec (.eventFrameReceive p m f) s = .next t ∧
          (t.port p).ownQ = (s.port p).ownQ ++
            [(⟨.event, (s.port p).cycleTick + agreeTick (c.framePhaseEnd ((s.port p).pos c) m), m, f.body, f.stamp⟩ : QRec)] ∧
          t.sync.rxOut = s.sync.rxOut ++ [(⟨p, 2, m, (s.port p).cycle, f.stamp, f.bytes.take 4, f.payload⟩ : RxRecord)] ∧
          s.wordsBut [P.trkStrangerCnt p] t) ∧
        (f.type = 6 → ∃ t, exec (.mgmtReplyReceive p m f) s = .next t ∧
          (t.port p).ownQ = (s.port p).ownQ ++ [(⟨.reply, (s.port p).replyAgree c m, m, f.body, f.stamp⟩ : QRec)] ∧
          t = { s with ports := t.ports, sync := t.sync }) ∧
        (f.type = 8 → ∀ other, ∃ t, exec (.rangingReplyReceive p m f other) s = .next t ∧
          (t.port p).ownQ = (s.port p).ownQ ++ [(⟨.ranging, (s.port p).replyAgree c m, m, f.body, f.stamp⟩ : QRec)]) ∧
        (f.type = 8 → ∀ k g, (s.port p).comm = some k → k.ranging = some g → f.byte 1 = g.addr → s.sys.mode.contends = true →
          g.own.length < 15 →
          ∃ t, exec (.rangingReplyReceive p m f none) s = .next t ∧ (t.port p).comm = some { k with ranging := some { g with
            own := g.own ++ [(f.stamp : Int) - (s.port p).frameStart c m - turnaround c.rate], tries := 0, awaiting := none } } ∧
            t = { s with ports := t.ports, sync := t.sync })))

/-- Rate search, training and noise of a port (R71, R73, R77, R79, R81, R92, R103, R163). -/
def Obligations.PortUpkeep : Prop :=
  ∀ (s : State) (p : Fin 16), s.canonical →
    (s.sys.mode = .listen → s.used p = true → s.bit (P.trkStatus p) 14 = false →
      ∃ t, exec (.rateDwellExpire p) s = .next t ∧
        t.port p = { s.port p with searchRate := ((s.port p).searchRate + 1) % 4, rateCand := none, rotEq := 0 } ∧
        t = { s with ports := t.ports }) ∧
    (∀ i f m c e launch n, s.sys.mode = .commission → s.receives p = true → f.codeOk = true → f.crcOk = true →
      (s.port p).cur = some c → (c.slots ((s.port p).pos c))[i]? = some (e, launch) → f.type = 9 → f.byte 1 = e.addr →
      (((s.port p).trainRuns.find? (·.1 == e.eqSet)).map (·.2)).getD 0 = n →
      f.payload.take 8 = (List.range 8).map (fun k => BitVec.ofNat 8 (37 * (8 * n + k) + 0x5B)) →
      (n < 31 → ∃ t, exec (.trainingFrameReceive p i f m) s = .next t ∧
        (t.port p).trainRuns = (e.eqSet, n + 1) :: (s.port p).trainRuns.filter (·.1 != e.eqSet) ∧
        t.setValid p e.eqSet = s.setValid p e.eqSet) ∧
      (n = 31 → ∃ t, exec (.trainingFrameReceive p i f m) s = .next t ∧ t.setValid p e.eqSet = true ∧
        t.fld (eqKey p e.eqSet 0) 30 29 = 1 ∧ ∀ x ∈ (t.port p).trainRuns, x.1 ≠ e.eqSet)) ∧
    (s.used p = true →
      (∀ r, (s.port p).round = some r → r.frame = true → r.winner ≠ none → (s.port p).noiseSeen = false →
        ∃ t, exec (.lineActivityNoStart p false false) s = .next t ∧
          t.word (P.trkCollisions p) = satInc32 (s.word (P.trkCollisions p)) ∧ (t.port p).noiseSeen = true ∧
          s.wordsBut [P.trkCollisions p] t) ∧
      ((s.port p).round = none → ∃ t, exec (.lineActivityNoStart p false false) s = .next t ∧
        t.word (P.trkNoise p) = satInc32 (s.word (P.trkNoise p)) ∧ s.onlyWords [P.trkNoise p] t)) ∧
    (s.used p = true → (s.port p).calibrated = true →
      (∀ idle, idle < 2000 ∨ s.bit (P.trkStatus p) 7 = true → ∃ t, exec (.backgroundCalibration p idle) s = .next t ∧
        t.word (P.trkCalSkip p) = satInc32 (s.word (P.trkCalSkip p)) ∧ (t.port p).calSkipRun = (s.port p).calSkipRun + 1 ∧
        s.wordsBut [P.trkCalSkip p] t) ∧
      ∀ idle, 2000 ≤ idle → s.bit (P.trkStatus p) 7 = false → ∃ t, exec (.backgroundCalibration p idle) s = .next t ∧
        t.bit (P.trkStatus p) 11 = false ∧ (t.port p).calSkipRun = 0 ∧ s.wordsBut [P.trkStatus p] t) ∧
    (10000 ≤ (s.port p).calSkipRun → s.bit (P.trkStatus p) 11 = false → ∃ t, exec (.calStale p) s = .next t ∧
      t.bit (P.trkStatus p) 11 = true ∧ t.raises 1 "CAL_STALE" [p] ∧ s.wordsBut [P.trkStatus p] t) ∧
    (s.word (P.trkEqmode p) = 2#32 → (s.port p).retrainLeft = 0 → ∃ t, exec (.eqRetrainEnd p) s = .next t ∧
      t.word (P.trkEqmode p) = 1#32 ∧ (t.port p).eqMode = 1 ∧
      (∀ i ∈ s.setsInUse p, s.setValid p i = true → t.setValid p i = true ∧ t.fld (eqKey p i 2) 15 0 = 0) ∧
      t.sameMemory s)

/-- Breaks, reflectometry and a late Intake (R83, R85, R86, R87, R116, R173, R453). -/
def Obligations.BreaksAndReflectometry : Prop :=
  ∀ (s : State) (p : Fin 16), s.canonical →
    (2 ≤ (s.port p).brkRun → s.bit (P.trkStatus p) 10 = false → ∃ t, exec (.breakDeclare p) s = .next t ∧
      t.bit (P.trkStatus p) 10 = true ∧
      t.word (P.trkBreakNeigh p) = w32 ((s.port p).brkPair.1 * 256 + (s.port p).brkPair.2) ∧
      t.raises 1 "BREAK" [p, (s.port p).brkPair.1, (s.port p).brkPair.2] ∧
      s.wordsBut [P.trkStatus p, P.trkBreakNeigh p] t) ∧
    (16 ≤ (s.port p).brkClearRun → s.bit (P.trkStatus p) 10 = true → ∃ t, exec (.breakClear p) s = .next t ∧
      t.bit (P.trkStatus p) 10 = false ∧ t.word (P.trkBreakDelay p) = 0xFFFFFFFF#32 ∧
      t.word (P.trkBreakDist p) = 0xFFFFFFFF#32 ∧ t.word (P.trkBreakNeigh p) = 0xFFFF#32 ∧ t.raises 1 "BREAK_CLEAR" [p] ∧
      s.wordsBut [P.trkStatus p, P.trkBreakDelay p, P.trkBreakDist p, P.trkBreakNeigh p] t) ∧
    (∀ rq port, rq.over [0, 1] → s.coreUp = true → s.sys.mode.tdr = true → port.toNat = p.val → s.used p = true →
      (s.port p).tdrPending = none → s.bgFull rq.mb = false →
      ∃ t, exec (.trkTdr rq port) s = .next t ∧ t.acceptedRq rq 0x0301 [] ∧ t.bit (P.trkStatus p) 7 = true ∧
        (t.port p).tdrPending = some (rq.mb, rq.tag) ∧ (t.port p).tdrWait = 0 ∧ s.wordsBut [P.trkStatus p] t) ∧
    (∀ mb tag, (s.port p).tdrPending = some (mb, tag) → mb ≠ 4 →
      (s.gatePulse p = true → ∀ refl : List (Nat × Int), ∃ t, exec (.tdrRun p refl) s = .next t ∧
        t.bit (P.trkStatus p) 7 = false ∧ (t.port p).tdrPending = none ∧
        t.answeredTag mb tag 0x0301 St.ok 0 (leBytes 4 (min 16
          (refl.filter fun r => decide (((s.word (P.trkTdrThr p)).toNat : Int) ≤ r.2) ||
            decide (r.2 ≤ -((s.word (P.trkTdrThr p)).toNat : Int))).length))) ∧
      (64 ≤ (s.port p).tdrWait → ∃ t, exec (.tdrWaitTimeout p) s = .next t ∧ t.bit (P.trkStatus p) 7 = false ∧
        (t.port p).tdrPending = none ∧ t.answeredTag mb tag 0x0301 St.refused 0 [])) ∧
    ((s.port p).missedAt ≠ none → ∃ t, exec (.intakeMiss p) s = .next t ∧
      t.word (P.schedIntakeMiss p) = satInc32 (s.word (P.schedIntakeMiss p)) ∧ t.bit (P.schedStatus p) 11 = true ∧
      (t.port p).own = [] ∧ (t.port p).partner = [] ∧ (t.port p).missedAt = none ∧
      (s.bit (P.schedStatus p) 11 = false → t.raises 1 "INTAKE_LATE" [p]) ∧
      s.wordsBut [P.schedStatus p, P.schedIntakeMiss p] t ∧
      ∀ a, a ≠ 0x4000 * p.val + 0x1BC0 + 24 → t.pmByte a = s.pmByte a)

/-- Launches of a port and event rounds (R57, R98, R101, R104, R107, R120, R122, R160, R161, R255, R576). -/
def Obligations.RoundsAndLaunches : Prop :=
  ∀ (s : State) (p : Fin 16) (c : Sched), s.canonical → (s.port p).cur = some c →
    let q := s.port p
    (q.running = true → s.gateOpen p = true → s.isHead p = false →
      (q.headHeardPrev = false → ∀ dev : Int, ∃ t, exec (.tailBeaconLaunch p dev) s = .next t ∧
        t.bit (P.schedStatus p) 13 = true ∧
        (t.port p).lastBeacon = (⟨true, s.forced, q.pos c == 0, q.switchNext c, c.apply, seqOf q.cycle, s.rotOf q c,
          q.cycleStart + 2000, s.pair.claim⟩ : Beacon).bytes ∧
        (-3 ≤ dev → dev ≤ 3 → t.word (P.trkLaunchErr p) = s.word (P.trkLaunchErr p)) ∧
        (3 < dev → t.word (P.trkLaunchErr p) = satInc32 (s.word (P.trkLaunchErr p)) ∧ t.raises 1 "LAUNCH_ERROR" [p]) ∧
        s.wordsBut [P.schedStatus p, P.trkLaunchErr p] t) ∧
      (s.sys.mode.run = true → ∀ differs, ∃ t, exec (.tailBroadcastLaunch p differs) s = .next t ∧
        (t.port p).lastBcast = (⟨true, q.outForced, q.pos c == 0, seqOf q.cycle, q.outClaim, q.outWords⟩ : Bcast).bytes ∧
        (differs = true → t.pair.faultSeen = true ∧ t.bit (tkey 0x60C1 p 0) 1 = true) ∧
        (differs = false → t = { s with ports := t.ports }))) ∧
    (∀ (m : Fin 32) others, s.receives p = true → m.val < c.rounds →
      (s.sys.mode.contends = false → others ≠ [] →
        ∃ t w, exec (.eventRound p m others) s = .next t ∧ (t.port p).round = some ⟨m, some w, none, false⟩ ∧ w ∈ others ∧
          ∀ x ∈ others, w.1 * 256 + w.2 ≤ x.1 * 256 + x.2) ∧
      (∀ g, s.sys.mode.contends = true → s.gateOpen p = true → q.running = true → s.grantOf p m = some g →
        (∀ x ∈ others, 0xF1 < x.1 * 256 + x.2) →
        ∃ t, exec (.eventRound p m others) s = .next t ∧
          (t.port p).round = some ⟨m, some (0, if s.isHead p then 0xF0 else 0xF1), some g, false⟩)) ∧
    (∀ r, q.round = some r → ∃ t, exec (.eventRoundFramePhase p) s = .next t ∧
      (t.port p).round = some { r with frame := true } ∧
      ∀ k g, r.grant = some .ranging → q.comm = some k → k.ranging = some g →
        (t.port p).lastRequest = frameBytes 7 0 g.addr (seqOf q.cycle) []) ∧
    (∀ m w e, q.round = some ⟨m, w, some (.txq e), true⟩ →
      (s.unreachable p (s.fld (txKey p e 0) 31 24) = true → ∃ t, exec (.txqEntrySend p) s = .next t ∧
        t.fld (txKey p e 0) 7 6 = 3 ∧ t.fld (txKey p e 1) 23 16 = 3 ∧ e ∉ (t.port p).txqOrder ∧
        (t.port p).lastRequest = q.lastRequest ∧ s.wordsBut [txKey p e 0, txKey p e 1] t) ∧
      (s.unreachable p (s.fld (txKey p e 0) 31 24) = false → ∃ t, exec (.txqEntrySend p) s = .next t ∧
        t.fld (txKey p e 1) 15 8 = (s.fld (txKey p e 1) 15 8 + 1) % 256 ∧
        t.fld (txKey p e 4) 7 0 = s.fld (txKey p e 0) 23 16 ∧
        t.fld (txKey p e 4) 15 8 = (e * 8 + q.txqSubs.getD e 0 % 8) % 256 ∧
        (t.port p).txqFlight = q.txqFlight ++ [(e, q.replyAgree c m)] ∧
        (t.port p).lastRequest = frameBytes 5 0 (s.fld (txKey p e 0) 31 24) (seqOf q.cycle)
          ((wordBytes ((List.range 16).map fun i => t.word (txKey p e (4 + i)))).take (8 * s.fld (txKey p e 0) 11 8)) ∧
        s.wordsBut [txKey p e 1, txKey p e 4] t)) ∧
    ∀ m w k, q.round = some ⟨m, w, some .keeper, true⟩ → q.nextKreq = some k →
      ∃ t, exec (.keeperStationRequest p) s = .next t ∧
        (t.port p).lastRequest = frameBytes 5 0 k.addr (seqOf q.cycle) k.payload ∧ (t.port p).keeperCycle = q.cycle ∧
        (k.payload.getD 0 0 = 0x32#8 → (t.port p).kreqs = q.kreqs.erase k) ∧ t = { s with ports := t.ports }

/-- Commands of a trunk and its schedule (R66, R71, R127, R128, R131, R147, R149, R445, R453). -/
def Obligations.TrunkCommands : Prop :=
  ∀ (s : State) (p : Fin 16), s.canonical →
    (∀ rq (port : U8), rq.over [0] → s.coreUp = true → port.toNat = p.val →
      (∀ steps, s.sys.mode = .commission → 1 ≤ steps.toNat → steps.toNat < 16 → s.used p = true → (s.port p).comm = none →
        s.bgFull rq.mb = false → ∃ t k, exec (.trkCommission rq port steps []) s = .next t ∧ t.acceptedRq rq 0x0300 [] ∧
          (t.port p).comm = some k ∧ k.mb = rq.mb ∧ k.tag = rq.tag ∧
          (steps.toNat = 2 → (∀ x ∈ (s.port p).kreqs, x.origin ≠ .commission) →
            ∃ g, k.ranging = some g ∧ g.addr = (if s.isHead p then 0xF1 else 0xF0) ∧ g.own = [])) ∧
      (∀ addr serial, 1 ≤ addr.toNat → addr.toNat ≤ 192 → s.strangerKnown p serial = true →
        s.sys.mode = .commission ∨ (s.sys.mode = .standalone ∨ s.sys.mode = .lead) ∧ s.stState p addr.toNat = 3 →
        ∃ t x, exec (.trkAssign rq port addr serial) s = .next t ∧ x ∈ t.kpr.staged ∧
          x.items = [.assign p addr.toNat serial] ∧ x.effect = s.time.tick + (if s.paired then 16 else 1) ∧ x.rq = some rq ∧
          t = { s with kpr := t.kpr, sync := t.sync }) ∧
      (∀ serial, s.sys.mode = .commission ∨ s.sys.mode = .standalone ∨ s.sys.mode = .lead → s.strangerKnown p serial = true →
        s.bit (strKey p (s.strangerSlot p serial) 2) 1 = true →
        ∃ t x, exec (.trkRelease rq port serial) s = .next t ∧ (t.port p).kreqs = (s.port p).kreqs ++ [x] ∧
          x.addr = s.serialAddr p serial ∧ x.payload.getD 0 0 = 0x31#8 ∧ (x.payload.drop 3).take 4 = beBytes 4 serial.toNat ∧
          x.awaiting = none ∧ x.origin = .mailbox rq.mb rq.tag ∧ t = { s with kpr := t.kpr, ports := t.ports }) ∧
      ∀ tick, let d := s.schedule p
        (s.sys.mode = .hold ∨ s.sys.mode = .commission ∨ s.sys.mode = .service →
          (s.schedCause p d = 0 → ∃ t, exec (.schedCommit rq port tick) s = .next t ∧ (t.port p).cur = some d ∧
            (t.port p).staged = none ∧ t.word (P.schedDigest p) = d.digest ∧ t.bit (P.schedStatus p) 15 = true ∧
            t.bit (P.schedStatus p) 9 = false ∧ t.answered rq 0x0304 St.ok 0 (leBytes 8 s.time.tick)) ∧
          (s.schedCause p d ≠ 0 → ∃ t, exec (.schedCommit rq port tick) s = .next t ∧ t.ports = s.ports ∧
            t.bit (P.schedStatus p) 9 = true ∧ t.fld (P.schedStatus p) 8 5 = s.schedCause p d % 16 ∧
            t.answered rq 0x0304 St.refused (s.schedCause p d) [])) ∧
        (s.sys.mode = .standalone → s.conflict 4 true (some p.val) = none → s.schedCause p d = 0 → s.bgFull rq.mb = false →
          ∃ t, exec (.schedCommit rq port tick) s = .next t ∧ (t.port p).staged = some (d, s.switchFrom p tick) ∧
            (t.port p).cur = (s.port p).cur ∧ t.bit (P.schedStatus p) 12 = true ∧ t.acceptedRq rq 0x0304 [])) ∧
    ∀ d k, (s.port p).staged = some (d, k) →
      (s.time.tick < k → exec (.schedSwitch p) s = .next s) ∧
      (k ≤ s.time.tick → (∀ o, (s.port p).cur = some o → o.startsAt s.time.tick = true ∧ o.posOf s.time.tick = 0) →
        ∃ t, exec (.schedSwitch p) s = .next t ∧ (t.port p).cur = some d ∧ (t.port p).staged = none ∧
          t.word (P.schedDigest p) = d.digest ∧ t.raises 1 "SCHED_SWITCH" [p] ∧
          ∀ mb tag, (s.port p).commitRq = some (mb, tag) → mb ≠ 4 →
            t.answeredTag mb tag 0x0304 St.ok 0 (leBytes 8 s.time.tick))

/-- Firmware distribution to stations (R532, R533, R534, R535, R536, R540, R543). -/
def Obligations.StationDistribution : Prop :=
  ∀ s : State, s.canonical → s.coreUp = true →
    (∀ rq hash pkg o, rq.over [6] → s.sys.mode = .standalone ∨ s.sys.mode = .lead → s.object 3 hash = some o →
      s.bgFull rq.mb = false → s.imageValid o true [7] = true →
      ∃ t, exec (.stnStage rq hash true pkg) s = .next t ∧
        if fieldOf (s.tplRange) 15 8 ≤ pkg.level ∧ pkg.level ≤ fieldOf (s.tplRange) 7 0 then
          (hash, pkg) ∈ t.img.stnPkgs ∧ t.answered rq 0x0D18 St.ok 0 [] ∧ t.raises 6 "STN_STAGED" [pkg.level]
        else t.img = s.img ∧ t.answered rq 0x0D18 St.refused 6 []) ∧
    (∀ rq, rq.over [6] → s.sys.mode = .standalone ∨ s.sys.mode = .lead →
      (∀ p : Fin 16, ∀ x ∈ s.img.stnPkgs.getLast?, s.conflict 3 true (some p.val) = none → s.bgFull rq.mb = false →
        ∃ t n, exec (.stnStart rq p) s = .next t ∧ t.word (P.imgStnTargets p) = w32 n ∧ n ≤ 192 ∧
          t.acceptedRq rq 0x0D19 (leBytes 2 n) ∧ t.raises 6 "STN_STARTED" [p, n] ∧
          t.get64 (P.imgStnStartLo p) = s.time.tick % 2 ^ 64) ∧
      (∀ p : Fin 16, s.stnRunning p = true → ∃ t, exec (.stnStop rq p) s = .next t ∧ t.fld (P.imgStnStatus p) 31 29 = 3 ∧
        t.word (P.imgStnActive p) = 0#32 ∧ (∀ j ∈ t.img.journals, j.port ≠ p.val) ∧
        (∀ x ∈ (t.port p).serves, x.awaiting ≠ none) ∧ t.answered rq 0x0D1A St.ok 0 []) ∧
      ∀ hash, (∃ x ∈ s.img.stnPkgs, x.1 = hash) → (∀ j ∈ s.img.journals, j.hash ≠ hash) →
        ∃ t, exec (.stnDiscard rq hash) s = .next t ∧ t.img.stnPkgs = s.img.stnPkgs.filter (fun x => x.1 != hash) ∧
          t.answered rq 0x0D1B St.ok 0 []) ∧
    ∀ p : Fin 16,
      (∀ c m w k x, (s.port p).cur = some c → (s.port p).round = some ⟨m, w, some .update, true⟩ → s.stnPkg p = some k →
        (s.port p).serves.find? Serve.ready = some x →
        let f := s.updPayload p k x (8 * (c.evLen - 1)) (128 + (s.port p).tagCount)
        ∃ t, exec (.stationDistributionFrame p) s = .next t ∧
          (t.port p).lastRequest = frameBytes (if f.1 then 0xA else 5) 0 x.addr (seqOf (s.port p).cycle) f.2 ∧
          t.word (P.imgStnFrames p) = satInc32 (s.word (P.imgStnFrames p)) ∧
          (x.attempts = 0 → t.word (P.imgStnRetries p) = s.word (P.imgStnRetries p)) ∧
          ∃ y ∈ (t.port p).serves, y.addr = x.addr ∧ y.attempts = x.attempts + 1 ∧
            y.awaiting = some ((s.port p).replyAgree c m)) ∧
      (∃ t, exec (.updVerifyPoll p) s = .next t ∧ t = { s with ports := t.ports } ∧
        (t.port p).serves = (s.port p).serves.map fun x =>
          if x.step = 2 ∧ x.polled + 8 ≤ (s.port p).cycle then { x with step := 3 } else x) ∧
      ∀ x, (s.port p).serves = [x] → 1 ≤ x.addr → x.addr ≤ 192 →
        (64 ≤ x.absent → ∃ t, exec (.stnAbsentTimeout p) s = .next t ∧ t.fld (upKey p x.addr 0) 31 28 = 6 ∧
          t.fld (upKey p x.addr 0) 27 24 = 2 ∧ t.raises 6 "STN_END" [p, x.addr, 6, 2]) ∧
        (x.step = 2 → x.since + (s.word (P.imgStnVerifyTo p)).toNat * 8000 ≤ s.time.tick →
          ∃ t, exec (.stnVerifyTimeout p) s = .next t ∧ t.fld (upKey p x.addr 0) 31 28 = 6 ∧
            t.fld (upKey p x.addr 0) 27 24 = 5 ∧ t.raises 6 "STN_END" [p, x.addr, 6, 5]) ∧
        (x.step = 5 → x.since + (s.word (P.imgStnActivateTo p)).toNat * 8000 ≤ s.time.tick →
          ∃ t, exec (.stnActivateTimeout p) s = .next t ∧ t.fld (upKey p x.addr 0) 31 28 = 6 ∧
            t.fld (upKey p x.addr 0) 27 24 = 6 ∧ t.raises 6 "STN_END" [p, x.addr, 6, 6])

/-- Transfer of objects (R453, R523, 19_images_identity_update.md). -/
def Obligations.ObjectTransfer : Prop :=
  ∀ s : State, s.canonical →
    (∀ rq, rq.over [6] →
      (∀ kind size hash, hash.length = 32 → 1 ≤ kind.toNat → kind.toNat ≤ 3 → size.toNat ≤ maxSize kind.toNat →
        s.img.xfers.length < 4 → s.transferUsed + size.toNat ≤ 4 * 2 ^ 30 →
        ∃ t, exec (.imgXferOpen rq kind size hash) s = .next t ∧
          t.img = { s.img with
            xfers := s.img.xfers ++ [(⟨s.img.nextNum, kind.toNat, size.toNat, hash, [], [], none⟩ : Xfer)]
            nextNum := (s.img.nextNum + 1) % 2 ^ 32 } ∧
          t.answered rq 0x0D00 St.ok 0 (leBytes 4 s.img.nextNum) ∧ t = { s with kpr := t.kpr, img := t.img, words := t.words } ∧
          s.wordsBut (mbWords rq.mb) t) ∧
      (∀ num x offset data, s.img.xfers.find? (fun x => x.num == num.toNat) = some x → data.length ≤ 262128 → data ≠ [] →
        offset.toNat + data.length ≤ x.size →
        ∃ t y, exec (.imgXferData rq num offset data) s = .next t ∧ y ∈ t.img.xfers ∧
          y = { x with data := y.data, ranges := addRange offset.toNat (offset.toNat + data.length) x.ranges } ∧
          y.data = Cmap.putAll byteDflt x.data offset.toNat data ∧ t.answered rq 0x0D01 St.ok 0 (leBytes 8 y.held) ∧
          t.img.objects = s.img.objects) ∧
      (∀ num x, s.img.xfers.find? (fun x => x.num == num.toNat) = some x → s.bgFull rq.mb = false →
        (x.held ≠ x.size → ∃ t, exec (.imgXferClose rq num) s = .next t ∧ t.answered rq 0x0D02 St.refused 0 [] ∧
          t.img = s.img) ∧
        (x.held = x.size → shake256 (Cmap.getAll byteDflt x.data 0 x.size) 32 = x.hash →
          ∃ t, exec (.imgXferClose rq num) s = .next t ∧ t.answered rq 0x0D02 St.ok 0 [] ∧
            (⟨x.hash, x.kind, x.size, x.data, s.plant, x.slot⟩ : Obj) ∈ t.img.objects ∧
            t.img.xfers = s.img.xfers.filter fun z => z.num != x.num) ∧
        (x.held = x.size → shake256 (Cmap.getAll byteDflt x.data 0 x.size) 32 ≠ x.hash →
          ∃ t, exec (.imgXferClose rq num) s = .next t ∧ t.answered rq 0x0D02 St.verifyFail 0 [] ∧
            t.img.objects = s.img.objects ∧ t.img.xfers = (s.img.xfers.filter fun z => z.num != x.num) ∧
            t.raises 6 "VERIFY_FAIL" [])) ∧
      ∀ hash, (∃ o ∈ s.img.objects, o.hash = hash) → ∃ t, exec (.imgXferDrop rq hash) s = .next t ∧
        t.img = { s.img with objects := s.img.objects.filter fun o => o.hash != hash } ∧ t.answered rq 0x0D03 St.ok 0 []) ∧
    ∃ t, exec .transferExpire s = .next t ∧ t = { s with img := t.img } ∧
      ∀ o, o ∈ t.img.objects ↔ o ∈ s.img.objects ∧ s.plant < o.usedAt + 86400000000000

/-- Staging and activating firmware (R522, R524, R525, R527, R528, R544). -/
def Obligations.FirmwareSets : Prop :=
  ∀ s : State, s.canonical →
    (∀ rq, rq.over [6] →
      (∀ hash o, s.sys.mode ≠ .boot → s.sys.mode ≠ .faultSafe → s.object 1 hash = some o → s.bgFull rq.mb = false →
        (s.imageValid o true [1, 2, 3, 4] = true → ∃ t, exec (.imgStage rq hash true) s = .next t ∧
          t.bit (bankKey (8 + (o.cls - 1)) 0) 27 = true ∧ t.word (bankKey (8 + (o.cls - 1)) 6) = w32 (o.u 12 4) ∧
          (o.cls - 1, w32 (o.u 36 4), o.manifest) ∈ t.img.chamber ∧ (∀ x ∈ t.img.objects, x.hash ≠ hash) ∧
          t.answered rq 0x0D04 St.ok 0 (leBytes 4 (t.word P.imgChamber).toNat) ∧ t.raises 6 "IMG_STAGED" [o.cls]) ∧
        (∃ t, exec (.imgStage rq hash false) s = .next t ∧ t.answered rq 0x0D04 St.verifyFail 0 [] ∧ t.img = s.img ∧
          t.raises 6 "VERIFY_FAIL" [o.cls])) ∧
      (s.bit P.imgStatus 10 = false → ∃ t, exec (.imgChamberClear rq) s = .next t ∧ t.img = { s.img with chamber := [] } ∧
        t.word P.imgChamber = 0#32 ∧ t.answered rq 0x0D05 St.ok 0 []) ∧
      (s.sys.mode = .update → s.img.activating = false →
        (s.activateCause = 0 → ∃ t, exec (.imgActivate rq) s = .next t ∧ t.bit P.imgStatus 10 = true ∧
          t.img = { s.img with activating := true } ∧ t.kpr.restart = some 1 ∧ t.answered rq 0x0D06 St.ok 0 []) ∧
        (s.activateCause ≠ 0 → ∃ t, exec (.imgActivate rq) s = .next t ∧
          s.replies t rq 0x0D06 St.refused s.activateCause []))) ∧
    (s.bit P.imgStatus 10 = true → s.sys.keeperUp = true → s.word P.imgActiveBank = 0#32 ∨ s.word P.imgActiveBank = 1#32 →
      ∀ bankOk, (∃ t, exec (.activationCopy true bankOk) s = .next t ∧
          t.word P.imgActiveBank = 1 - s.word P.imgActiveBank ∧ t.bit P.imgStatus 15 = true ∧ t.bit P.imgStatus 10 = false ∧
          t.word P.imgActivateCnt = satInc32 (s.word P.imgActivateCnt) ∧ t.img.chamber = [] ∧ t.img.oldWords ≠ none ∧
          t.img.healthAt = some s.kpr.now ∧ t.raises 6 "IMG_ACTIVATED" [(1 - s.word P.imgActiveBank).toNat]) ∧
        ∃ t, exec (.activationCopy false bankOk) s = .next t ∧ t.bit P.imgStatus 10 = false ∧ t.img.activating = false ∧
          t.img.chamber = [] ∧ t.word P.imgActiveBank = s.word P.imgActiveBank ∧
          t.word P.imgActivateCnt = s.word P.imgActivateCnt ∧ t.raises 6 "ACTIVATION_COPY_FAIL" []) ∧
    (s.bit P.imgStatus 15 = true →
      (∀ rq, rq.over [0, 6] → s.sys.mode ≠ .faultSafe → s.bit P.chkStatus 14 = false →
        ∃ t, exec (.imgConfirm rq) s = .next t ∧ t.bit P.imgStatus 15 = false ∧ t.bit P.imgStatus 9 = true ∧
          t.img.oldWords = none ∧ t.img.healthAt = none ∧ t.answered rq 0x0D07 St.ok 0 [] ∧ t.raises 6 "IMG_CONFIRMED" []) ∧
      (∀ rq, rq.over [0, 6] → ∃ t, exec (.imgRevert rq) s = .next t ∧ t.img.fallCause = some 3 ∧ t.kpr.restart = some 1 ∧
        t.answered rq 0x0D08 St.ok 0 [] ∧
        (s.sys.mode.run = true → s.pair.withdrawing = none → t.pair.withdrawing = some 0x0B)) ∧
      (∀ at_, s.img.healthAt = some at_ → at_ + 900000 ≤ s.kpr.now → s.img.fallCause = none →
        ∃ t, exec .healthWindowExpire s = .next t ∧ t.img.fallCause = some 1 ∧ t.kpr.restart = some 1 ∧
          (s.sys.mode.run = true → s.pair.withdrawing = none → t.pair.withdrawing = some 0x0B)) ∧
      ∀ at_, s.img.cleanSince = some at_ → s.word P.imgHealthAuto = 1#32 → s.sys.mode.run = true →
        s.bit P.chkStatus 15 = true → s.pair.withdrawing = none →
        at_ + (s.word P.imgHealthRunS).toNat * 1000 ≤ s.kpr.now →
        ∃ t, exec .healthAutoConfirm s = .next t ∧ t.bit P.imgStatus 15 = false ∧ t.bit P.imgStatus 9 = true ∧
          t.img.oldWords = none ∧ t.raises 6 "IMG_CONFIRMED" [])

/-- Installing images, and identity (R522, R529, R538, R539). -/
def Obligations.InstallAndIdentity : Prop :=
  ∀ s : State, s.canonical →
    (∀ rq hash o words, rq.over [6] → s.coreUp = true → s.sys.mode = .hold ∨ s.sys.mode = .service →
      s.object 1 hash = some o → s.bgFull rq.mb = false → s.imageValid o true [5, 6] = true →
      (∀ pkg, o.cls = 6 → ∃ t, exec (.imgInstall rq hash true (some pkg) words) s = .next t ∧ t.sys.prgValid = true ∧
        t.img.programs = pkg :: s.img.programs.take 1 ∧ (∀ x ∈ t.img.objects, x.hash ≠ hash) ∧
        t.answered rq 0x0D09 St.ok 0 (leBytes 8 (s.time.tick + 1)) ∧ t.raises 6 "IMG_INSTALLED" [6]) ∧
      (∀ pkg, o.cls = 5 → ∃ t x, exec (.imgInstall rq hash true pkg words) s = .next t ∧ t.sys.cfgValid = true ∧
        t.img.configs = words :: s.img.configs.take 1 ∧ x ∈ t.kpr.staged ∧ x.items = [.config words] ∧
        x.effect = s.time.tick + 1 ∧ t.raises 6 "IMG_INSTALLED" [5])) ∧
    ∀ rq, rq.over [0, 2, 6] →
      (∀ nonce sig, nonce.length = 32 → s.background 0x0D10 = none → s.bgFull rq.mb = false →
        ∃ t d, exec (.attest rq nonce sig) s = .next t ∧ t.answered rq 0x0D10 St.ok 0 (d ++ sig) ∧
          d.take 4 = leBytes 4 1 ∧ (d.drop 32).take 32 = nonce ∧
          t.word P.imgAttestCnt = satInc32 (s.word P.imgAttestCnt) ∧ t = { s with kpr := t.kpr, words := t.words }) ∧
      (∀ nonce sig, nonce.length ≠ 32 → ∃ t, exec (.attest rq nonce sig) s = .next t ∧
        s.replies t rq 0x0D10 St.badLength 0 []) ∧
      ∃ t, exec (.identityRead rq) s = .next t ∧ s.replies t rq 0x0D11 St.ok 0 s.img.identity

/-- The Keeper's period, sensors and life data (R35, R416, R431, R433, R435, R476, R477, R573). -/
def Obligations.KeeperPeriod : Prop :=
  ∀ s : State, s.canonical →
    (s.sys.keeperUp = true → s.coreUp = false → ∀ p : Period, p.reach = 0 → s.kpr.staged = [] → s.recorder.queue = [] →
      ∃ t, exec (.housekeepingPeriod p) s = .next t ∧ t.kpr.now = s.kpr.now + 10 ∧ t.sys.uptimeMs = s.sys.uptimeMs + 10 ∧
        t.time.keeper = s.time.keeper + p.ns ∧ t.time.saved = s.time.keeper + p.ns ∧
        t.kpr.supervise = [0, 0, 0, 0, 0, 0] ∧ t.sys.mode = s.sys.mode ∧ t.word P.kprNandRefresh = p.refresh ∧
        t.bit P.kprStatus 10 = p.refreshing ∧ t.sameMemory s) ∧
    (s.sys.keeperUp = true → ∃ t, exec .keeperWatchdogExpire s = .next t ∧ t.sys.keeperUp = false ∧ t.coreUp = false ∧
      t.sys.mode = .boot ∧ t.fld P.sysResetCause 31 28 = ResetSrc.wdt.code ∧
      t.fld P.sysResetCause 27 24 = ResetScope.module.code ∧ t.kpr.sessions = [] ∧ t.kpr.ownerKey = s.kpr.ownerKey) ∧
    (∀ n : Fin 32,
      (s.sensLevel n = 0 → 10 ≤ (s.sens n).warn → ∃ t, exec (.sensorWarning n) s = .next t ∧ t.sensLevel n = 1 ∧
        t.word (0xF140 + n) = satInc32 (s.word (0xF140 + n)) ∧ t.word (0xF1A0 + n) = s.word P.sysHours ∧
        t.bit (0xF020 + n) 29 = (s.sens n).low ∧ t.raises 0 "SENSOR_WARNING" [n, (s.word (0xF000 + n)).toNat] ∧
        s.wordsBut [0xF020 + n, 0xF140 + n, 0xF1A0 + n] t) ∧
      (s.sensLevel n < 2 → 10 ≤ (s.sens n).alarm → ∃ t, exec (.sensorAlarm n) s = .next t ∧ t.sensLevel n = 2 ∧
        t.word (0xF160 + n) = satInc32 (s.word (0xF160 + n)) ∧
        t.raises 0 "SENSOR_ALARM" [n, (s.word (0xF000 + n)).toNat] ∧ s.wordsBut [0xF020 + n, 0xF160 + n, 0xF1A0 + n] t) ∧
      (s.sensLevel n = 1 → 100 ≤ (s.sens n).inWarn → ∃ t, exec (.sensorClear n) s = .next t ∧ t.sensLevel n = 0 ∧
        t.raises 0 "SENSOR_CLEAR" [n, (s.word (0xF000 + n)).toNat] ∧ s.wordsBut [0xF020 + n, 0xF1A0 + n] t) ∧
      (s.sensLevel n = 2 → 100 ≤ (s.sens n).inAlarm → (s.sens n).inWarn < 100 →
        ∃ t, exec (.sensorClear n) s = .next t ∧ t.sensLevel n = 1)) ∧
    (s.kpr.lifeDue = true → ∃ t, exec .lifeSave s = .next t ∧
      t = { s with kpr := { s.kpr with lifeSaved := s.kpr.life, lifeDue := false } })

/-- The event recorder's commands (R453, R486, R489, R493, R496, R497, R498). -/
def Obligations.RecorderCommands : Prop :=
  ∀ s : State, s.canonical →
    (∀ rq, rq.over [0, 1, 2] →
      (∀ chan count first, chan.toNat < 8 → 1 ≤ count.toNat → count.toNat ≤ 63 →
        ∃ t, exec (.recRead rq chan count first) s = .next t ∧
          s.replies t rq 0x0B00 St.ok 0 (s.recReply chan.toNat first.toNat count.toNat)) ∧
      (∀ mask, rq.mb.val < 3 → s.recorder.subs.length = 3 → ∃ t, exec (.recSubscribe rq mask) s = .next t ∧
        t.recorder = { s.recorder with subs := s.recorder.subs.set rq.mb.val mask.toNat } ∧
        (∀ c, c < 8 → t.bit (P.recSubscribers c) rq.mb.val = hasBit mask.toNat c) ∧ t.answered rq 0x0B01 St.ok 0 []) ∧
      (∀ code sev count key vals, rq.onAny [0, 1, 2] = true → isUser code = true → sev.toNat ≤ 2 → count.toNat ≤ 12 →
        key.toNat ≤ 4095 → vals.length = count.toNat →
        ∃ t, exec (.recUser rq code sev count key vals) s = .next t ∧
          t.recorder = { s.recorder with raised := s.recorder.raised ++
            [(⟨7, .fixed code, s.evTick, vals, some (sev.toNat, key.toNat)⟩ : Raised)] } ∧
          t.word P.recUserCnt = satInc32 (s.word P.recUserCnt) ∧ t.answered rq 0x0B03 St.ok 0 []) ∧
      ∀ code sev count key vals, isUser code = false → ∃ t, exec (.recUser rq code sev count key vals) s = .next t ∧
        t.recorder = s.recorder ∧ t.word P.recUserRefused = satInc32 (s.word P.recUserRefused) ∧
        t.answered rq 0x0B03 St.outOfRange 0 []) ∧
    (∀ rq, rq.over [0, 1] → s.bgFull rq.mb = false → ∃ t, exec (.recScan rq) s = .next t ∧ s.accepts t rq 0x0B04 []) ∧
    (let due := (s.word P.recScanLast).toNat + (s.word P.recScanHours).toNat ≤ (s.word P.sysHours).toNat;
      (¬ due → s.background 0x0B04 = none → exec (.recorderScan []) s = .next s) ∧
      (due ∨ s.background 0x0B04 ≠ none → ∃ t, exec (.recorderScan []) s = .next t ∧
        t.word P.recScanLast = s.word P.sysHours ∧ t.recorder.slots = s.recorder.slots ∧
        ∀ rq, s.background 0x0B04 = some rq → rq.mb ≠ 4 → t.answered rq 0x0B04 St.ok 0 [])) ∧
    ((s.recorder.buckets.map fun b => b.1).Nodup → ∃ t, exec .tokenRefill s = .next t ∧
      t.recorder.buckets = (s.recorder.buckets.map fun b => (b.1, s.bucket (b.1 / 65536) (BitVec.ofNat 16 b.1))) ∧
      t = { s with recorder := t.recorder, words := t.words } ∧
      s.wordsBut (P.recFloodCodes :: (List.range 8).map P.recStatus) t)

/-- Messages, sessions and keys (R436, R439, R442, R447, R448, R449, R451, R453). -/
def Obligations.SessionsAndKeys : Prop :=
  ∀ s : State, s.canonical →
    (∀ (port : Fin 3) (mb : Fin 8) opcode tag payload, s.sys.keeperUp = true → s.portServes port mb = true →
      (s.kpr.reqs.filter fun r => r.rq.mb == mb && !r.open_).length < 16 → (∀ r ∈ s.kpr.reqs, r.open_ = false) → mb ≠ 4 →
      (s.openOpcode opcode.toNat = true → payload.length ≤ 4096 → ∀ more gcmOk,
        ∃ t, exec (.mailboxMessageReceive port mb opcode tag 0#32 more gcmOk payload) s = .next t ∧
          t.kpr.reqs = s.kpr.reqs ++
            [(⟨⟨mb, tag, 0⟩, opcode.toNat, payload, port, more, false, false, 1, s.kpr.now⟩ : MbReq)] ∧
          (port.val, mb) ∈ t.kpr.connections ∧ t = { s with kpr := t.kpr }) ∧
      ∀ session, session ≠ 0#32 →
        ((∀ x ∈ s.kpr.sessions, x.number ≠ session) → ∀ more gcmOk,
          ∃ t, exec (.mailboxMessageReceive port mb opcode tag session more gcmOk payload) s = .next t ∧
            t.answered ⟨mb, tag, session⟩ opcode.toNat St.noSession 0 []) ∧
        (∀ x ∈ s.kpr.sessions, x.mb = mb → x.number = session → x.port = port.val → ∀ more,
          (∃ t, exec (.mailboxMessageReceive port mb opcode tag session more false payload) s = .next t ∧
            (∀ y ∈ t.kpr.sessions, y.mb ≠ mb) ∧ t.raises 5 "SESSION_CLOSED" [mb]) ∧
          (payload.length ≤ 4096 →
            ∃ t, exec (.mailboxMessageReceive port mb opcode tag session more true payload) s = .next t ∧
              t.kpr.reqs = s.kpr.reqs ++
                [(⟨⟨mb, tag, session⟩, opcode.toNat, payload, port, more, false, false, 1, s.kpr.now⟩ : MbReq)] ∧
              { x with received := x.received + 1, idleMs := 0 } ∈ t.kpr.sessions))) ∧
    (∀ rq (port : Fin 3), rq.over [0, 1, 2, 3, 5, 6] →
      ((∀ x ∈ s.kpr.sessions, x.mb ≠ rq.mb) →
        (∀ cert payload secret answer, (payload.headD 0).toNat = rq.mb.val → s.certOk rq.mb cert = true →
          s.bgFull rq.mb = false → ∃ t, exec (.sessionOpen rq port cert payload secret answer) s = .next t ∧
            (⟨rq.mb, port, cert.roles.toNat, cert.serial.toNat, secret, payload ++ respBytes St.ok 0 answer⟩ : Opening) ∈
              t.kpr.openings ∧ t.answered rq 0x0001 St.ok 0 answer) ∧
        (∀ cert payload secret answer, (payload.headD 0).toNat = rq.mb.val → s.certOk rq.mb cert = false →
          ∃ t, exec (.sessionOpen rq port cert payload secret answer) s = .next t ∧ t.kpr.openings = s.kpr.openings ∧
            t.answered rq 0x0001 St.authFail 0 [] ∧ t.word P.kprAuthFail = satInc32 (s.word P.kprAuthFail) ∧
            t.bit P.kprStatus 8 = true ∧ t.raises 5 "SESSION_REFUSED" [rq.mb]) ∧
        (∀ o payload, s.kpr.openings.find? (fun o => o.mb == rq.mb && o.port == port.val) = some o →
          (∃ t x, exec (.sessionProve rq port payload true) s = .next t ∧ x ∈ t.kpr.sessions ∧ x.mb = rq.mb ∧
            x.number ≠ 0#32 ∧ x.roles = o.roles ∧ x.serial = o.serial ∧ x.port = port.val ∧
            x.keys = shake256 (o.secret ++ shake256 (o.transcript ++ payload) 64) 72 ∧ o ∉ t.kpr.openings ∧
            t.answered rq 0x0002 St.ok 0 (leBytes 4 x.number.toNat ++ leBytes 4 rq.mb) ∧
            t.raises 5 "SESSION_OPENED" [rq.mb, o.serial]) ∧
          ∃ t, exec (.sessionProve rq port payload false) s = .next t ∧ (∀ x ∈ t.kpr.sessions, x.mb ≠ rq.mb) ∧
            t.answered rq 0x0002 St.authFail 0 [] ∧ o ∉ t.kpr.openings)) ∧
      (∃ t, exec (.sessionClose rq) s = .next t ∧ (∀ x ∈ t.kpr.sessions, x.mb ≠ rq.mb) ∧ t.answered rq 0x0003 St.ok 0 []) ∧
      ∀ data, ∃ t, exec (.echo rq data) s = .next t ∧ s.replies t rq 0x0006 St.ok 0 data) ∧
    (∀ mb : Fin 8, (∃ x ∈ s.kpr.sessions, x.mb = mb ∧ (60000 ≤ x.idleMs ∨ 2 ^ 32 ≤ max x.received x.sent ∨
        x.openedAt + 86400000000000 ≤ s.plant)) →
      ∃ t, exec (.sessionExpire mb) s = .next t ∧ t.kpr.sessions = (s.kpr.sessions.filter fun x => x.mb != mb) ∧
        t.raises 5 "SESSION_CLOSED" [mb]) ∧
    (∀ (port : Fin 3) (mb : Fin 8), (port.val, mb) ∈ s.kpr.connections → ∃ t, exec (.connectionLost port mb) s = .next t ∧
      t.kpr.connections = (s.kpr.connections.filter fun c => c != (port.val, mb)) ∧
      (∀ r ∈ t.kpr.resps, r.mb = mb → r.lostAt ≠ none) ∧ (∀ r ∈ t.kpr.reqs, ¬ (r.rq.mb = mb ∧ r.port = port ∧ r.open_ = true)) ∧
      ((∃ x ∈ s.kpr.sessions, x.mb = mb ∧ x.port = port) → ∀ x ∈ t.kpr.sessions, x.mb ≠ mb)) ∧
    ∀ rq, rq.over [0] →
      (∀ (port : Fin 3) (kt : U32) key, s.sys.mode = .hold → key.length = 64 → kt = 1 ∨ kt = 2 →
        (s.kpr.ownerKey = none → s.firstKey rq port = true → ∀ ok, ∃ t, exec (.keyInstall rq port kt key ok) s = .next t ∧
          t.kpr.ownerKey = some (kt.toNat, key) ∧ (∀ c, c < 8 → t.hwOpen c = true) ∧ t.answered rq 0x0004 St.ok 0 []) ∧
        (s.kpr.ownerKey = none → s.firstKey rq port = false → ∀ ok, ∃ t, exec (.keyInstall rq port kt key ok) s = .next t ∧
          s.replies t rq 0x0004 St.refused 0 []) ∧
        ∀ x, s.kpr.ownerKey ≠ none → s.kpr.sessions.find? (fun x => x.mb == rq.mb && x.number == rq.session) = some x →
          hasBit x.roles 4 = true →
          (∃ t, exec (.keyInstall rq port kt key true) s = .next t ∧ t.kpr.ownerKey = some (kt.toNat, key) ∧
            t.answered rq 0x0004 St.ok 0 []) ∧
          ∃ t, exec (.keyInstall rq port kt key false) s = .next t ∧ s.replies t rq 0x0004 St.verifyFail 0 []) ∧
      ∀ serial : U64, serial.toNat ∉ s.kpr.revoked → s.kpr.revoked.length < 256 →
        ∃ t, exec (.keyRevoke rq serial) s = .next t ∧ t.kpr.revoked = s.kpr.revoked ++ [serial.toNat] ∧
          t.answered rq 0x0005 St.ok 0 [] ∧ t.raises 5 "KEY_REVOKED" [serial.toNat]

/-- Reading and writing parameters and tables (R445, R454, R459, R462, R465, R466, R467, R468, R469). -/
def Obligations.ParametersAndTables : Prop :=
  ∀ s : State, s.canonical →
    (∀ rq, rq.over [0, 1, 2, 5, 6] →
      (∀ ids : List U16, ids ≠ [] → ids.length ≤ 256 → ∃ t, exec (.paramRead rq ids) s = .next t ∧
        s.replies t rq 0x0100 St.ok 0 (leBytes 8 s.evTick ++ ids.flatMap fun id =>
          leBytes 2 id.toNat ++ leBytes 2 (s.readItem id.toNat).1 ++ leBytes 4 (s.readItem id.toNat).2.toNat)) ∧
      (∀ (tid : U16) (first : U32) (count : U16) r, tableRow tid.toNat = some r → count ≠ 0#16 →
        first.toNat + count.toNat ≤ r.count tid.toNat → s.available tid.toNat = true →
        ∃ t, exec (.tableRead rq tid first count) s = .next t ∧
          s.replies t rq 0x0102 St.ok 0 (leBytes 8 s.evTick ++ leBytes 4 (4 * r.words) ++ leBytes 2 count.toNat ++
            s.tableBytes tid.toNat first.toNat count.toNat r.words)) ∧
      (∀ (tid : U16) r, tableRow tid.toNat = some r → ∃ t, exec (.tableInfo rq tid) s = .next t ∧
        s.replies t rq 0x0105 St.ok 0 (leBytes 4 (4 * r.words) ++ leBytes 4 (r.count tid.toNat) ++
          leBytes 4 ((if r.pair then 1 else 0) + 2 * if r.rw = [] then 0 else 1))) ∧
      ∀ (tid : U16) first count, tableRow tid.toNat = none →
        (∃ t, exec (.tableRead rq tid first count) s = .next t ∧ s.replies t rq 0x0102 St.unknownId 0 []) ∧
        ∃ t, exec (.tableInfo rq tid) s = .next t ∧ s.replies t rq 0x0105 St.unknownId 0 []) ∧
    ∀ rq, rq.over [0, 1] →
      (∀ items : List (U16 × U32), items ≠ [] → items.length ≤ 64 →
        let l := items.map fun x => (x.1.toNat, x.2)
        (∀ i x st, firstBad l (s.writeStatus rq l) = some (i, x, st) → ∃ t, exec (.paramWrite rq items) s = .next t ∧
          t.answered rq 0x0101 st i [] ∧ t.word P.sysRefuseLast = w32 (x.1 * 65536 + st) ∧ t.kpr.staged = s.kpr.staged ∧
          s.wordsBut (P.sysRefuseLast :: mbWords rq.mb) t) ∧
        (s.sys.mode ≠ .trail → firstBad l (s.writeStatus rq l) = none → (∀ x ∈ l, restartItem x.1 = false) →
          (∀ x ∈ l, x.1 / 0x1000 ≠ 0xC) →
          ∃ t y, exec (.paramWrite rq items) s = .next t ∧ t.kpr.staged = s.kpr.staged ++ [y] ∧
            y.items = (l.map fun x => StagedItem.param x.1 x.2) ∧ y.rq = some rq ∧
            y.effect = s.time.tick + (if s.paired = true ∧ ∃ x ∈ l, pairItem x.1 = true then 16 else 1) ∧
            t.word P.sysWriteCnt = satInc32 (s.word P.sysWriteCnt) ∧ s.wordsBut [P.sysWriteCnt] t)) ∧
      (∀ (tid : U16) first entries, tableRow tid.toNat = none → ∃ t, exec (.tableWrite rq tid first entries) s = .next t ∧
        t.answered rq 0x0103 St.unknownId 0 [] ∧ t.word P.sysRefuseLast = w32 (tid.toNat * 65536 + St.unknownId) ∧
        t.kpr.staged = s.kpr.staged) ∧
      (∀ (tid : U16) (first : U32) entries r, s.sys.mode ≠ .trail → tableRow tid.toNat = some r → r.rw ≠ [] →
        entries ≠ [] → (∀ ws ∈ entries, ws.length = r.words) →
        first.toNat + entries.length ≤ r.count tid.toNat → s.mb1Limited rq = false → s.available tid.toNat = true →
        hasBit r.modes s.sys.mode.num = true → r.base ≠ 0xC0C1 →
        firstBad (entries.zipIdx.map fun x => s.entryAfter r tid.toNat (first.toNat + x.2) x.1).zipIdx
          (fun x => s.entryStatus r.base tid.toNat (first.toNat + x.2) x.1) = none →
        tableItems r tid.toNat first.toNat (entries.zipIdx.map fun x => s.entryAfter r tid.toNat (first.toNat + x.2) x.1) ≠ [] →
        ∃ t y, exec (.tableWrite rq tid first entries) s = .next t ∧ t.kpr.staged = s.kpr.staged ++ [y] ∧
          y.items = tableItems r tid.toNat first.toNat
            (entries.zipIdx.map fun x => s.entryAfter r tid.toNat (first.toNat + x.2) x.1) ∧
          y.effect = s.time.tick + (if s.paired = true ∧ pairItem tid.toNat = true then 16 else 1) ∧ y.rq = some rq ∧
          s.wordsBut [P.sysWriteCnt] t) ∧
      ∀ ids : List U16, ids ≠ [] →
        let l := ids.map fun x => x.toNat
        (∀ i x st, firstBad l s.clearStatus = some (i, x, st) → ∃ t, exec (.cntClear rq ids) s = .next t ∧
          t.answered rq 0x0104 st i [] ∧ t.kpr.staged = s.kpr.staged) ∧
        (s.sys.mode ≠ .trail → firstBad l s.clearStatus = none → ∃ t y, exec (.cntClear rq ids) s = .next t ∧
          t.kpr.staged = s.kpr.staged ++ [y] ∧ y.items = l.map StagedItem.clear ∧ y.rq = some rq ∧
          s.wordsBut [P.sysWriteCnt] t)

/-- Access guards (R503, R504, R508, R509, R510, R511, R513, R514, R515, R518). -/
def Obligations.AccessGuards : Prop :=
  (∀ (s : State) n a len priv kind,
    (s.guardCheck n a len priv kind = none ↔ ∀ i, i < len → ∃ e, e < guardRegions n ∧ (s.curRegion n e).has (a + i) = true ∧
      (s.curRegion n e).grants priv kind = true ∧ ∀ e', e' < guardRegions n → (s.curRegion n e').has (a + i) = true → e' = e) ∧
    (∀ b cause e, s.guardCheck n a len priv kind = some (b, cause, e) → a ≤ b ∧ b < a + len ∧
      s.guardCheck n a (b - a) priv kind = none ∧ (cause = 1 ↔ ∀ e', e' < guardRegions n → (s.curRegion n e').has b = false) ∧
      (cause = 4 ↔ ∃ e', e' < guardRegions n ∧ (s.curRegion n e').has b = true ∧ (s.curRegion n e').corrupt = true))) ∧
  (∀ s : State, s.canonical →
    (∀ who (kind : Fin 3) addr (len : Fin 65) passed, s.guardFinds who kind addr.toNat len passed = none →
      exec (.guardAccessRefused who kind addr len passed []) s = .next s) ∧
    (∀ who (kind : Fin 3) addr (len : Fin 65) passed n f, s.guardFinds who kind addr.toNat len passed = some (n, f) →
      ∃ t, exec (.guardAccessRefused who kind addr len passed []) s = .next t ∧
        t.word (P.guardRefuseCnt n) = satInc32 (s.word (P.guardRefuseCnt n)) ∧ t.bit (P.guardStatus n) 10 = true ∧
        t.word (P.guardLast n 0) = 0x80000000#32 ∧ t.word (P.guardLast n 1) = lo32 f.1 ∧
        t.fld (P.guardLast n 3) 31 28 = f.2.1 ∧ t.word (P.guardLast n 4) = lo32 addr.toNat ∧
        (s.bit (P.guardFirst n 0) 31 = true → t.word (P.guardFirst n 1) = s.word (P.guardFirst n 1)) ∧
        (s.bit (P.guardFirst n 0) 31 = false → t.word (P.guardFirst n 1) = lo32 f.1)) ∧
    (∀ rq (n : Fin 16), rq.over [0, 1] → s.sys.mode ≠ .trail →
      s.writeStatus rq [(0xC001 + 0x100 * n.val, 1)] (0xC001 + 0x100 * n.val, 1) = 0 → restartItem (0xC001 + 0x100 * n.val) = false →
      ∃ t y, exec (.guardArm rq n) s = .next t ∧ t.bit (P.guardStatus n) 15 = true ∧ t.kpr.staged = s.kpr.staged ++ [y] ∧
        y.items = [.guardArm n] ∧ y.rq = some rq ∧ s.wordsBut [P.sysWriteCnt, P.guardStatus n] t) ∧
    ∀ n : Fin 16, (∃ c ∈ s.kpr.staged, c.effect ≤ s.time.tick ∧ .guardArm n ∈ c.items) →
      ((∀ e, e < guardRegions n → (s.shadowRegion n e).corrupt = false) → ∃ t, exec .guardSwitch s = .next t ∧
        (∀ e w, e < guardRegions n → w < 4 → t.word (curKey n e w) = s.word (shadowKey n e w)) ∧
        t.word (P.guardGen n) = satInc32 (s.word (P.guardGen n)) ∧ t.get64 (P.guardArmTickLo n) = s.time.tick % 2 ^ 64 ∧
        t.bit (P.guardStatus n) 15 = false ∧ ∀ c ∈ t.kpr.staged, c.effect ≤ s.time.tick → .guardArm n ∉ c.items) ∧
      ((∃ e, e < guardRegions n ∧ (s.shadowRegion n e).corrupt = true) → ∃ t, exec .guardSwitch s = .next t ∧
        (∀ e w, e < guardRegions n → w < 4 → t.word (curKey n e w) = s.word (curKey n e w)) ∧
        t.word (P.guardRuleCnt n) = satInc32 (s.word (P.guardRuleCnt n)) ∧ t.bit (P.guardStatus n) 11 = true ∧
        t.bit (P.guardStatus n) 15 = false))

/-- What two partners do for each other (R127, R184, R188, R199, R285, R286, R292, R445, R547, R552). -/
def Obligations.RelayedWork : Prop :=
  ∀ s : State, s.canonical →
    (∀ effect id items, s.sys.mode = .trail → s.bit P.pairStatus 25 = false →
      ∃ t, exec (.relayChangeReceive effect id items) s = .next t ∧
        t = { s with kpr := { s.kpr with staged := s.kpr.staged ++
          [(⟨effect, items, none, 0, true, true, true, id⟩ : StagedChange)] } }) ∧
    (∀ effect fseq, s.sys.mode = .trail →
      (∃ t x, exec (.action 1 effect fseq) s = .next t ∧ t.kpr.staged = s.kpr.staged ++ [x] ∧ x.items = [.forces true] ∧
        x.effect = effect ∧ x.id = fseq ∧ x.acked = true ∧ t = { s with kpr := t.kpr }) ∧
      ∀ m, s.sync.msgIn.find? (fun m => m.fseq == fseq) = some m →
        ∃ t, exec (.action 5 effect fseq) s = .next t ∧
          t = { s with prog := { s.prog with inbox := s.prog.inbox ++ [(effect, m.body)] } }) ∧
    (∀ (p : Fin 16) v c rq, s.sys.mode ≠ .resync → s.kpr.staged = [c] → c.relayed = true → c.acked = true →
      c.effect ≤ s.time.tick → c.items = [.param (P.trkSnrWarn p) v] → c.rq = some rq → rq.mb ≠ 4 → c.opcode = 0x0101 →
      ∃ t, exec .pairChangeEffect s = .next t ∧ t.word (P.trkSnrWarn p) = v ∧ t.kpr.staged = [] ∧
        t.answered rq 0x0101 St.ok 0 (leBytes 8 c.effect) ∧ t.raises 0 "PARAM_WRITE" [P.trkSnrWarn p, v.toNat] ∧
        t.sameMemory s) ∧
    (∀ c rq, s.kpr.staged = [c] → c.relayed = true → c.acked = false → c.rq = some rq → rq.mb ≠ 4 →
      (c.effect ≤ s.time.tick + 2 → ∃ t, exec .relayAckTimeout s = .next t ∧ t.kpr.staged = [] ∧
        t.answered rq c.opcode St.timeout 0 [] ∧ ∃ m ∈ t.sync.msgOut, m.kind = 14 ∧ m.body = leBytes 4 c.id.toNat) ∧
      (s.time.tick + 2 < c.effect → exec .relayAckTimeout s = .next s)) ∧
    (∀ tag opcode payload, s.sys.mode = .lead ∨ s.sys.mode = .standalone →
      (s.kpr.reqs.filter fun r => r.rq.mb == 4).length < 16 →
      ∃ t, exec (.relayedRequest tag opcode payload) s = .next t ∧ t = { s with kpr := { s.kpr with reqs := s.kpr.reqs ++
        [(⟨⟨4, tag, 0⟩, opcode, payload, 0, false, false, false, 1, s.kpr.now⟩ : MbReq)] } }) ∧
    (∀ rq (port addr : U8) (serial : U32), rq.over [0] → s.coreUp = true → s.sys.mode = .trail → s.bit P.pairStatus 25 = false →
      ∃ t, exec (.trkAssign rq port addr serial) s = .next t ∧
        t.kpr.relays = s.kpr.relays ++
          [(⟨rq, 0x0302, [port, addr, 0, 0] ++ leBytes 4 serial.toNat⟩ : RelayOut)] ∧
        (∃ m ∈ t.sync.msgOut, m.kind = 4) ∧ t = { s with kpr := t.kpr, sync := t.sync }) ∧
    (∀ (set : U16) ports, ∃ t, exec (.maintRecordReceive set ports) s = .next t ∧ t.maint.partner = set.toNat ∧
      (∀ a, a < 10 → t.bit (tkey 0x00C2 a 0) 30 = hasBit set.toNat a) ∧ t = { s with words := t.words, maint := t.maint, sync := t.sync }) ∧
    (∀ h kind body content, s.coreUp = true → h.sound = false →
      ∃ t, exec (.msgFrameReceive h kind body content) s = .next t ∧ t.word h.link.errKey = satInc32 (s.word h.link.errKey) ∧
        s.onlyWords [h.link.errKey] t) ∧
    ∀ h, s.takesFrame h false →
      (∀ body, ∃ t, exec (.msgFrameReceive h 13 body .none) s = .next t ∧
        t.kpr.staged = (s.kpr.staged.map fun c => if c.id.toNat = ofLe (body.take 4) then { c with acked := true } else c) ∧
        h.fseq ∈ t.sync.seen.map fun x => x.1) ∧
      (∀ body, ∃ t, exec (.msgFrameReceive h 3 body .none) s = .next t ∧
        t.sync.msgIn = ((⟨h.fseq, 3, body⟩ : MsgFrame) :: s.sync.msgIn).take 64) ∧
      ∀ addr (quarter : Fin 4) (pass : U8) data r, s.sync.resync = some r → r.lead = false → r.phase = 2 → r.converted = false →
        s.sys.mode = .resync → 0x1000000000 ≤ addr →
        ∃ t, exec (.xferFrameReceive h addr quarter pass data) s = .next t ∧
          (∀ i, i < 1024 → i < data.length → t.dramByte (addr + 1024 * quarter + i) = data.getD i 0) ∧
          (∀ a, a < addr + 1024 * quarter ∨ addr + 1024 * quarter + 1024 ≤ a → t.dramByte a = s.dramByte a) ∧
          t.pm = s.pm ∧ t.fld P.syncStatus 23 18 = pass.toNat % 64

/-- Resets and what each leaves (R13, R14, R15, R416, R417, R418, R420, R422, R425, R426). -/
def Obligations.ResetSources : Prop :=
  ∀ s : State, s.canonical →
    (∃ t, exec (.resetPor []) s = .next t ∧ t.inReset .por .module ∧ t.sys.keeperUp = false ∧
      t.word P.sysPowerCycles = satInc32 (s.word P.sysPowerCycles) ∧ t.kpr.ownerKey = s.kpr.ownerKey) ∧
    (∃ t, exec (.resetBor .main []) s = .next t ∧ t.inReset .bor (.package .main) ∧ t.sys.keeperUp = s.sys.keeperUp) ∧
    (∃ t, exec (.resetBor .keeper []) s = .next t ∧ t.inReset .bor .module ∧ t.sys.keeperUp = false) ∧
    (∀ ns, 10000 ≤ ns → ∃ t, exec (.resetPin ns []) s = .next t ∧ t.inReset .pin .module ∧ t.sys.keeperUp = false) ∧
    (∀ ns, ns < 1000 → exec (.resetPin ns []) s = .next s) ∧
    (∀ ns, 1000 ≤ ns → ns < 10000 → ∃ t, exec (.resetPin ns []) s = .next t ∧
      (t = { s with free := s.free + 1 } ∨ t.inReset .pin .module)) ∧
    (∃ t, exec (.resetWdt .mainDomain []) s = .next t ∧ t.inReset .wdt .mainDomain ∧ t.sys.keeperUp = s.sys.keeperUp ∧
      t.recorder.raised.length > s.recorder.raised.length) ∧
    (s.kpr.restart = some 0 →
      (s.pair.withdrawing = none → ∃ t, exec (.resetSwr []) s = .next t ∧ t.inReset .swr .mainDomain ∧ t.kpr.restart = none) ∧
      (s.pair.withdrawing ≠ none → exec (.resetSwr []) s = .next s)) ∧
    (∃ t, exec (.resetClkf .core []) s = .next t ∧ t.inReset .clkf (.die .core) ∧ t.bit P.sysClock 0 = true) ∧
    (∃ t, exec (.resetClkf .line []) s = .next t ∧ t.bit P.sysClock 1 = true ∧ hasBit t.sys.diesUp 1 = false ∧
      t.sys.mode = s.sys.mode ∧ t.coreUp = s.coreUp ∧ ∀ p, p < 16 → (t.port p).calibrated = false) ∧
    (∀ ep, ∃ t, exec (.resetLockup (some ep) []) s = .next t ∧ t.inReset .lockup .mainDomain ∧ t.sys.keeperUp = s.sys.keeperUp) ∧
    (∃ t, exec (.resetLockup none []) s = .next t ∧ t.inReset .lockup .module) ∧
    (s.fld P.sysClock 7 6 ≠ 0 → 1 ∉ s.sys.boot → ∃ t, exec .clkFallback s = .next t ∧ t.bit P.sysClock 5 = true ∧
      t.fld P.sysClock 7 6 = 0 ∧ t.raises 0 "CLK_FALLBACK" [strapCode s.sys.clksel] ∧ s.wordsBut [P.sysClock] t) ∧
    (∀ d : Die, ∀ k, (d.num, k) ∈ s.sys.deferred →
      (k + 100 ≤ s.kpr.now → ∃ t, exec (.deferredReleaseTimeout d) s = .next t ∧ t.bit P.sysClock d.num = true ∧
        t.bit P.sysClock (8 + d.num) = false ∧ (∀ x ∈ t.sys.deferred, x.1 ≠ d.num) ∧
        t.fld P.sysResetCause 31 28 = ResetSrc.clkf.code ∧ t.fld P.sysResetCause 23 16 = d.num) ∧
      ∀ r, ∃ t, exec (.deferredRelease d r) s = .next t ∧ exec (.bootReleaseStep r) (s.undefer d.num) = .next t ∧
        (s.sys.boot = [] → t.bit P.sysClock (8 + d.num) = false ∧ ∀ x ∈ t.sys.deferred, x.1 ≠ d.num)) ∧
    (∀ d r, s.bit P.sysClock d.num = true →
      (d ∈ r.unstable → ∃ t, exec (.clkfReleaseRetry d r) s = .next t ∧ (d.num, s.kpr.now) ∈ t.sys.deferred ∧
        t.bit P.sysClock (8 + d.num) = true) ∧
      (d ∉ r.unstable → ∃ t, exec (.clkfReleaseRetry d r) s = .next t ∧
        exec (.bootReleaseStep r) (s.undefer d.num) = .next t)) ∧
    ∀ r : Fin 14,
      (hasBit s.sys.sluices r = true → exec (.regionReset r .wdt) s = .next s ∧
        ∃ t, exec (.regionRelease r) s = .next t ∧ hasBit t.sys.inits r = true ∧ t = { s with sys := t.sys }) ∧
      (hasBit s.sys.sluices r = false → s.regionUp r = true →
        ∃ t, exec (.regionReset r .wdt) s = .next t ∧ hasBit t.sys.sluices r = true ∧
          t.fld P.sysResetCause 31 28 = ResetSrc.wdt.code ∧ t.fld P.sysResetCause 27 24 = 5 ∧
          t.fld P.sysResetCause 23 16 = r ∧ t.raises 0 "RESET" [4, 5, r, 8] ∧ t.sys.mode = s.sys.mode) ∧
      (hasBit s.sys.inits r = true → ∀ volts, ∃ t, exec (.regionInitDone r 0 volts) s = .next t ∧
        hasBit t.sys.inits r = false ∧ hasBit t.sys.sluices r = false ∧ t.raises 0 "SLUICE_OPENED" [r]) ∧
      (hasBit s.sys.inits r = true → r.val < 4 → hasBit s.sys.split r = false → ∀ fail volts, fail ≠ 0 →
        ∃ t, exec (.regionInitDone r fail volts) s = .next t ∧ t.sys.mode = .faultSafe ∧ t.bit P.chkStatus 14 = true ∧
          t.bit P.chkStatus 15 = false ∧ t.sys.proofPending = false)

/-- The way through BOOT, the lever and mains (R35, R268, R411, R415, R419, R424, R562, R564, R566). -/
def Obligations.BootAndLever : Prop :=
  ∀ s : State, s.canonical →
    (s.sys.keeperUp = false → ∀ k, ∃ t, exec (.keeperDomainRelease k) s = .next t ∧ t.sys.keeperUp = true ∧
      t.time.keeper = s.time.saved ∧ t.sys.leverOut = k.leverOut ∧ t.sys.bootselPin = k.bootsel ∧ t.sys.mode = s.sys.mode ∧
      (s.fld P.sysResetCause 31 28 = 1 ∨ s.fld P.sysResetCause 31 28 = 3 →
        t.sys.bootsel = k.bootsel ∧ t.sys.clksel = k.clksel ∧ t.sys.posB = k.posB ∧ t.sys.carrier = k.carrier) ∧
      (s.fld P.sysResetCause 31 28 ≠ 1 → s.fld P.sysResetCause 31 28 ≠ 3 → t.sys.posB = s.sys.posB)) ∧
    (s.sys.keeperUp = true → s.sys.mains = true → s.sys.bootFail = false → s.bit P.imgStatus 10 = false → s.sys.mode = .boot →
      ∀ k rest r, s.sys.boot = k :: rest → (∀ d ∈ s.stepDies k, s.bit P.sysClock d = false) → r.unstable = [] →
        (r.ok = false → ∃ t, exec (.bootReleaseStep r) s = .next t ∧ t.sys.bootFail = true ∧ t.sys.boot = [] ∧
          t.raises 0 "BOOT_STEP_FAIL" [k]) ∧
        (r.ok = true → k = 2 → ∃ t, exec (.bootReleaseStep r) s = .next t ∧ t.coreUp = true ∧ t.sys.boot = rest ∧
          t.time.raw = r.raw ∧ t.time.tick = s.time.keeper / 125000 ∧ t.sys.mode = .boot) ∧
        (r.ok = true → k = 5 → ∃ t, exec (.bootReleaseStep r) s = .next t ∧ hasBit t.sys.diesUp 1 = true ∧ t.sys.boot = rest ∧
          ∀ p, p < 16 → (t.port p).calibrated = !hasBit r.calFail p)) ∧
    (s.sys.mode = .boot → s.sys.keeperUp = true → s.sys.boot = [] →
      ∃ t, exec .bootEnd s = .next t ∧ t.sys.prev = .boot ∧ t.kpr.journal = [] ∧
        t.sys.mode = (if s.sys.bootFail then .faultSafe else if s.sys.toUpdate then .update else if s.sys.leverOut then .hold
          else if (s.sys.proofPending || s.word P.sysBootTarget == 1#32) && (s.sys.prgValid && s.sys.cfgValid && s.sys.split == 0)
            then .listen else .hold)) ∧
    (∃ t, exec .mateBreak s = .next t ∧ t.sys.mateOpen = true ∧
      t.sys.mode = (if s.sys.mode = .faultSafe ∨ s.sys.mode = .boot then s.sys.mode else .hold) ∧
      ∀ p, t.gateOpen p = false) ∧
    (∃ t, exec .mainsLoss s = .next t ∧ t = { s with sys := { s.sys with mains := false } }) ∧
    (∃ t, exec .mainsReturn s = .next t ∧ t = { s with sys := { s.sys with mains := true } }) ∧
    (s.sys.keeperUp = true → s.sys.leverOut = false → s.sys.mains = true →
      (s.sys.mode = .standalone ∨ s.sys.mode = .lead ∧ s.pair.partner ≠ .trail →
        ∃ t, exec .swapLeverOut s = .next t ∧ t.sys = { s.sys with leverOut := true } ∧ t.bit P.pairStatus 20 = true ∧
          t.kpr = { s.kpr with life := { s.kpr.life with leverOuts := s.kpr.life.leverOuts + 1 } } ∧
          t.raises 3 "SWAP_REFUSED" [] ∧ s.wordsBut [P.pairStatus] t) ∧
      (s.sys.mode = .trail → s.pair.withdrawing = none → ∃ t, exec .swapLeverOut s = .next t ∧ t.pair.withdrawing = some 9 ∧
        t.sys.leverOut = true ∧ t.sys.leverTook = true ∧ t.controls 0x01 9 (s.time.tick + 1)) ∧
      (s.mayHandover = true → ¬ (3 ≤ s.chgPhase ∧ s.chgPhase ≤ 6) → ∃ t h, exec .swapLeverOut s = .next t ∧
        t.pair.handover = some h ∧ h.x = s.time.tick + (s.word P.pairHandoverLead).toNat ∧ h.phase = .proposed ∧
        h.oldLead = true ∧ t.pair.afterHandover = some 9) ∧
      (s.sys.mode = .listen → s.sys.pending = none → ∃ t, exec .swapLeverOut s = .next t ∧
        t.sys.pending = some (.hold, .lever) ∧ t.sys.leverTook = true)) ∧
    (s.sys.keeperUp = true → s.sys.leverOut = true →
      ∃ t, exec .swapLeverIn s = .next t ∧ t.sys.leverOut = false ∧ t.sys.leverInAt = some s.kpr.now ∧
        t.bit P.pairStatus 20 = false ∧ s.wordsBut [P.pairStatus] t ∧
        (s.sys.mode = .hold → s.sys.leverTook = true → s.sys.prgValid = true → s.sys.cfgValid = true →
          s.kpr.ownerKey ≠ none → s.sys.split = 0 → s.sys.pending = none → t.sys.pending = some (.listen, .lever)))

/-- Modes by request (R409, R410, R411, R412, R413, R416, R425, R438, R453, R556). -/
def Obligations.ModeRequests : Prop :=
  ∀ s : State, s.canonical →
    (∀ m c, s.sys.pending = some (m, c) → (∀ w, c ≠ .withdrawal w) → s.pair.withdrawing = none →
      ∃ t, exec .modeTransition s = .next t ∧ t.sys.mode = m ∧ t.sys.pending = none ∧ (m ≠ s.sys.mode → t.sys.prev = s.sys.mode) ∧
        (m.emits = false → t.gatesClosed) ∧
        ∀ rq op, s.sys.pendingRq = some (rq, op) → rq.mb ≠ 4 → t.answered rq op St.ok 0 (leBytes 8 s.time.tick)) ∧
    ∀ rq, rq.over [0, 1] → s.mb1Limited rq = false →
      (s.sys.pending = none → s.sys.carrier = 0x12 →
        (s.mayRun = true → s.sys.mode = .hold ∨ s.sys.mode = .service → ∃ t, exec (.modeRun rq) s = .next t ∧
          t = { s with sys := { s.sys with pending := some (.listen, .request), pendingRq := some (rq, 0x0200) } }) ∧
        (s.mayRun = true → s.sys.mode = .listen → ∃ t, exec (.modeRun rq) s = .next t ∧
          t.sys = { s.sys with runStanding := true } ∧ t.answered rq 0x0200 St.ok 0 (leBytes 8 (s.time.tick + 1))) ∧
        (s.mayRun = false → s.sys.mode = .hold ∨ s.sys.mode = .service ∨ s.sys.mode = .listen →
          ∃ t, exec (.modeRun rq) s = .next t ∧ s.replies t rq 0x0200 St.refused 0 [])) ∧
      (∀ (n : U8) m, Mode.ofNum n.toNat = some m → n ≠ 10#8 → s.sys.pending = none →
        (s.sys.mode.listed m = false → m ≠ .update → ∃ t, exec (.modeRequest rq n) s = .next t ∧
          s.replies t rq 0x0201 St.wrongMode 0 []) ∧
        (s.sys.mode.listed m = true → m ≠ .update → m ≠ .commission → s.modeCondition m = true → s.pair.withdrawing = none →
          (s.sys.mode.run = false → s.sys.mode ≠ .update → ∃ t, exec (.modeRequest rq n) s = .next t ∧
            t = { s with sys := { s.sys with pending := some (m, .request), pendingRq := some (rq, 0x0201) } }) ∧
          (s.sys.mode.run = true → ∃ t, exec (.modeRequest rq n) s = .next t ∧
            t.sys = { s.sys with pending := some (m, .withdrawal 0x0B), pendingRq := some (rq, 0x0201) } ∧
            t.pair.withdrawing = some 0x0B ∧ t.controls 0x01 0x0B (s.time.tick + 1) ∧ t.words = s.words))) ∧
      (∀ scope : U32, scope.toNat ≤ 1 → s.sys.mode = .hold ∨ s.sys.mode = .service ∨ s.sys.mode = .listen →
        ∃ t, exec (.sysRestart rq scope) s = .next t ∧ t.kpr.restart = some scope.toNat ∧ t.answered rq 0x0202 St.ok 0 []) ∧
      ∀ r : U8, s.coreUp = true → s.sys.mode ≠ .boot → s.sys.mode ≠ .update →
        (r.toNat < 14 → s.regionUp r.toNat = true → ∃ t, exec (.sysRegionReset rq r) s = .next t ∧
          hasBit t.sys.sluices r.toNat = true ∧ t.answered rq 0x0203 St.ok 0 []) ∧
        (14 ≤ r.toNat → ∃ t, exec (.sysRegionReset rq r) s = .next t ∧ s.replies t rq 0x0203 St.outOfRange 0 [])

/-- Plant time, its sources and its steps (R34, R36, R38, R39, R40, R48, R49). -/
def Obligations.PlantTime : Prop :=
  ∀ s : State, s.canonical →
    (∀ rq plant, rq.over [0, 1] → s.coreUp = true →
      (s.sys.mode.steps = true → ∃ t, exec (.timeStep rq plant) s = .next t ∧
        t.time = { s.time with stepReq := some plant.toNat } ∧ t.bit P.timeStatus 5 = true ∧
        t.answered rq 0x0204 St.ok 0 (leBytes 8 (s.time.tick + 1))) ∧
      (s.sys.mode.steps = false → ∃ t, exec (.timeStep rq plant) s = .next t ∧ t.time = s.time ∧
        t.bit P.timeStatus 1 = true ∧ t.answered rq 0x0204 St.wrongMode 0 [] ∧ t.raises 0 "STEP_REFUSED" [plant.toNat])) ∧
    (∀ m : PtpMsg, s.coreUp = true → s.ptpTakes m = true → s.sys.mode.ptp = true →
      (∀ g, s.time.gm = some g → g ≠ m.gm.toNat * 2 + m.engB.toNat → ∃ t, exec (.ptpMessageReceive m) s = .next t ∧
        t.time = { s.time with gm := none, rateReq := none } ∧ t.bit P.timeStatus 3 = true ∧ t.raises 0 "HOLDOVER" [1]) ∧
      (s.time.gm = none ∨ s.time.gm = some (m.gm.toNat * 2 + m.engB.toNat) →
        ∃ t, exec (.ptpMessageReceive m) s = .next t ∧ t.time.gm = some (m.gm.toNat * 2 + m.engB.toNat) ∧
          t.time.gmOrigin = s.kpr.now ∧ t.bit P.timeStatus 3 = false ∧ t.word P.timeUtcOffset = sat32 m.utc ∧
          (m.offset = none → t.time.stepReq = s.time.stepReq ∧ t.time.rateReq = s.time.rateReq) ∧
          ∀ off, m.offset = some off → t.word P.timeOffsetErr = sat32 off ∧ t.bit P.timeStatus 5 = true ∧
            (s.sys.mode.steps = true → (s.word P.timeLockThr).toNat < off.natAbs →
              t.time.stepReq = some (((s.time.tick + 1 : Nat) * 125000 - off : Int).toNat)) ∧
            (off.natAbs ≤ (s.word P.timeLockThr).toNat → t.bit P.timeStatus 4 = true ∧ ∃ r : Int, t.time.rateReq = some r ∧
              -500000000 ≤ r ∧ r ≤ 500000000))) ∧
    (s.time.gm ≠ none → s.time.gmOrigin + 3000 ≤ s.kpr.now → ∃ t, exec .ptpHoldover s = .next t ∧
      t.time = { s.time with gm := none, rateReq := none } ∧ t.bit P.timeStatus 3 = true ∧ t.raises 0 "HOLDOVER" [1] ∧
      s.wordsBut [P.timeStatus] t) ∧
    (s.sys.mode = .trail → 8 ≤ s.time.alignRun → ∃ t, exec .alignFault s = .next t ∧ t.bit P.timeStatus 0 = true ∧
      t.raises 3 "ALIGN_FAULT" [] ∧
      (s.pair.withdrawing = none → t.pair.withdrawing = some 6 ∧ t.controls 0x01 6 (s.time.tick + 1)) ∧ s.wordsBut [P.timeStatus] t)

/-- The tick and its exchange (R21, R24, R179, R180, R289, R290, R291, R293, R298, R486). -/
def Obligations.TickAndExchange : Prop :=
  ∀ s : State, s.canonical →
    (∀ dev differs cl lost, s.coreUp = true → ∃ t, exec (.tickBoundary dev differs cl lost) s = .next t ∧
      t.time.tick = (match s.time.stepReq with
        | some v => v / 125000
        | none => s.time.tick + 1) ∧
      t.recorder.raised = [] ∧ t.time.rateReq = none ∧ t.time.stepReq = none) ∧
    (∀ dev differs cl lost, s.coreUp = false → exec (.tickBoundary dev differs cl lost) s = .next s) ∧
    (∀ fault volts, s.coreUp = true → ∃ t x, exec (.outputCut fault volts) s = .next t ∧ t.sync.exch = some x ∧ x.tick = s.time.tick ∧
      x.done = t.prog.doneOwn ∧ t.prog.doneOwn = (if s.sys.mode.run then s.completion else 0) ∧ x.snap = s.localSnap ∧
      x.lateLoops = vecOf s.loop.lateLoops ∧ x.lateGens = vecOf s.loop.lateGens ∧ x.lateGroups = vecOf s.loop.lateGroups ∧
      x.ctl.length ≤ 8 ∧ t.prog.running = List.replicate 4 none ∧ t.pair.faultSeen = (s.pair.faultSeen || fault) ∧
      (∀ v0 v1 v2 v3 v4 v5 : U16, volts = [v0, v1, v2, v3, v4, v5] → ∀ g, g < 6 → s.groupUp g = true →
        t.fld (grpKey g 1) 15 0 = (volts.getD g 0).toNat ∧
        t.fld (grpKey g 1) 31 16 = min (s.fld (grpKey g 1) 31 16) (volts.getD g 0).toNat) ∧
      t = { s with prog := t.prog, pair := t.pair, fio := t.fio, kpr := t.kpr, sync := t.sync, words := t.words } ∧
      s.wordsBut ((List.range 6).map fun g => grpKey g 1) t) ∧
    (s.sync.exchIn = none → ∃ t, exec .exchTimeout s = .next t ∧ t = { s with sync := { s.sync with exchLate := true } }) ∧
    (s.sync.exchIn ≠ none → exec .exchTimeout s = .next s) ∧
    (∀ txA txB, s.coreUp = true → ∃ t b, exec (.beatLaunch txA txB) s = .next t ∧ t.sync.beat = some b ∧
      b.tick = s.time.tick ∧ b.tx = txA ∧ b.claim = s.pair.claim ∧ b.mode = s.sys.mode.num ∧ b.wireMask = t.pair.wireDiff ∧
      t.sync.linkA.txs = ((s.time.tick, txA) :: s.sync.linkA.txs).take 16 ∧
      t.sync.linkB.txs = ((s.time.tick, txB) :: s.sync.linkB.txs).take 16) ∧
    (∀ h x, s.takesFrame h true → ∃ t, exec (.partnerExchReceive h x) s = .next t ∧ h.fseq ∈ t.sync.seen.map (fun y => y.1) ∧
      (h.tick = s.time.tick ∧ s.sync.exchLate = false → t.sync.exchIn = some x ∧ t.word P.syncLate = s.word P.syncLate) ∧
      (h.tick ≠ s.time.tick ∨ s.sync.exchLate = true →
        t.sync.exchIn = s.sync.exchIn ∧ t.word P.syncLate = satInc32 (s.word P.syncLate))) ∧
    (∀ h rx b, s.takesFrame h true → levelsChanged s.sync.beatLast b = false →
      ∃ t, exec (.partnerBeatReceive h rx b) s = .next t ∧ t.pair.partnerMode = b.mode ∧ t.word P.pairPartnerClaim = b.claim ∧
        t.sync.beatLast = some b ∧ t.pair.partnerWireDiff = b.wireMask ∧ (t.link h.link).lastRx = rx ∧
        (h.tick = s.time.tick → t.pair.hbSeen = true ∧ t.sync.beatIn = some b) ∧
        (h.tick ≠ s.time.tick → t.pair.hbSeen = s.pair.hbSeen ∧ t.sync.beatIn = s.sync.beatIn) ∧
        ∀ k t1 : Nat, (s.link h.link).txs.find? (fun x => x.1 == b.echoTick) = some (k, t1) →
          t.word h.link.delayKey = sat32 ((((rx : Int) - t1) - ((b.tx : Int) - b.echoRx)) / 2)) ∧
    (∀ h (r : RxRecord) c, s.takesFrame h true →
      (s.agreesPair = true → r.kind = 3 → (s.port r.port).cur = some c →
        r.cycle % 2 ^ 32 = (s.port r.port).cycle % 2 ^ 32 →
        ∃ t, exec (.rxRecordReceive h [r]) s = .next t ∧
          (s.time.tick ≤ (s.port r.port).cycleTick + c.inputTick ((s.port r.port).pos c) →
            (t.port r.port).partnerVec = true ∧ t.word P.syncLate = s.word P.syncLate) ∧
          ((s.port r.port).cycleTick + c.inputTick ((s.port r.port).pos c) < s.time.tick →
            t.ports = s.ports ∧ t.word P.syncLate = satInc32 (s.word P.syncLate))) ∧
      (s.agreesPair = false → ∃ t, exec (.rxRecordReceive h [r]) s = .next t ∧ t.ports = s.ports)) ∧
    (∀ lockA lockB, s.coreUp = true → ∃ t, exec (.exchangeWindowEnd lockA lockB) s = .next t ∧ t.pair.hbSeen = false ∧
      t.sync.beatIn = none ∧
      (s.sys.mode.emits = false →
        t.pair.hbMissed = (if s.pair.hbSeen then 0 else s.pair.hbMissed + 1) ∧
        (8 ≤ t.pair.hbMissed → t.pair.partner = .absent) ∧
        ∀ l, (t.link l).silent = (if (s.link l).frames then 0 else (s.link l).silent + 1) ∧ (t.link l).frames = false ∧
          (t.link l).theta = none)) ∧
    (s.sys.mode = .trail → s.inPair = true → 8 ≤ s.pair.hbMissed → s.trunksSilent = true →
      s.silenceRule.pair.takeoverDue = true) ∧
    (s.sys.mode = .lead → s.inPair = true → 8 ≤ s.pair.hbMissed → s.trunksSilent = true →
      s.silenceRule.pair.partner = .absent ∧ s.silenceRule.raises 3 "PARTNER_ABSENT" [])

/-- Links, heartbeats and the comparators (R263, R282, R284, R316, R317, R320, R322, R326, R329, R335). -/
def Obligations.LinksAndLockstep : Prop :=
  ∀ s : State, s.canonical →
    (∀ l : Link,
      (s.usable l = true → 8 ≤ (s.link l).silent ∨ 8 ≤ (s.link l).beyond → ∃ t, exec (.linkUnusable l) s = .next t ∧
        t.usable l = false ∧ t.bit P.syncStatus l.downBit = true ∧ t.raises 3 "LINK_DOWN" [l.usableBit] ∧
        s.wordsBut [P.syncStatus] t ∧ t = { s with words := t.words, recorder := t.recorder }) ∧
      ((s.link l).silent < 8 → (s.link l).beyond < 8 → exec (.linkUnusable l) s = .next s) ∧
      (s.usable l = false → 64 ≤ (s.link l).good → ∃ t, exec (.linkUsable l) s = .next t ∧ t.usable l = true ∧
        t.raises 3 "LINK_UP" [l.usableBit] ∧ s.wordsBut [P.syncStatus] t ∧
        t = { s with words := t.words, recorder := t.recorder }) ∧
      ((s.link l).good < 64 → exec (.linkUsable l) s = .next s)) ∧
    (s.pair.hbSeen = false → 7 ≤ s.pair.hbMissed → s.bit P.pairStatus 24 = false → ∃ t, exec .heartbeatLost s = .next t ∧
      t.bit P.pairStatus 24 = true ∧ t.raises 3 "HEARTBEAT_LOST" [] ∧ t.bit P.pairStatus 25 = (s.inPair || s.bit P.pairStatus 25) ∧
      s.wordsBut [P.pairStatus] t ∧ t = { s with words := t.words, recorder := t.recorder }) ∧
    (s.pair.hbSeen = true ∨ s.pair.hbMissed < 7 → exec .heartbeatLost s = .next s) ∧
    (∀ reached, s.coreUp = true → ∃ t, exec (.tickEndDigest reached []) s = .next t ∧ t = { s with eps := t.eps } ∧
      ∀ n, n < 4 → (t.ep n).liveness = (s.ep n).liveness + (if hasBit reached n then 1 else 0)) ∧
    (∀ reached (n : Fin 4) (d : U64), s.coreUp = true → hasBit s.sys.split n = false →
      ∃ t, exec (.tickEndDigest reached [(n, d)]) s = .next t ∧ t.sys.mode = .faultSafe ∧ t.bit P.chkStatus 9 = true ∧
        t.word P.chkMismatchCnt = satInc32 (s.word P.chkMismatchCnt) ∧ t.raises 0 "LOCKSTEP_MISMATCH" [n, 7] ∧ t.gatesClosed ∧
        ∀ i, i < 8 → t.word (tkey 0x70C0 1 i) = (s.faultEntry (n, 7, 0, d)).getD i 0) ∧
    (∀ reached (n : Fin 4) (d : U64), s.coreUp = true → hasBit s.sys.split n = true →
      ∃ t, exec (.tickEndDigest reached [(n, d)]) s = .next t ∧ t = { s with eps := t.eps }) ∧
    (∀ (l : List Mismatch) m, s.coreUp = true → (∀ x ∈ l, hasBit s.sys.split x.1 = false) → firstMismatch l = some m →
      (m ∈ l ∧ ∀ x ∈ l, 8 * m.1.val + m.2.1.val ≤ 8 * x.1.val + x.2.1.val) ∧
      ∃ t, exec (.lockstepMismatch l) s = .next t ∧ t.sys.mode = .faultSafe ∧ t.gatesClosed ∧ t.bit P.chkStatus 9 = true ∧
        (t.word P.chkMismatchCnt).toNat = min (2 ^ 32 - 1) ((s.word P.chkMismatchCnt).toNat + l.length) ∧
        t.raises 0 "LOCKSTEP_MISMATCH" [m.1, m.2.1] ∧
        (s.sys.mode.emits = true → t.controls 0x01 1 s.time.tick ∧ t.fld P.pairStatus 13 9 = 1) ∧
        ∀ i, i < 8 → t.word (tkey 0x70C0 1 i) = (s.faultEntry m).getD i 0 ∧
          t.word (tkey 0x70C0 0 i) =
            (if s.bit (tkey 0x70C0 0 0) 26 then s.word (tkey 0x70C0 0 i) else (s.faultEntry m).getD i 0)) ∧
    (∀ m : Mismatch, s.coreUp = true → hasBit s.sys.split m.1 = true → ∃ t, exec (.lockstepMismatch [m]) s = .next t ∧
      t.raises 0 "SPLIT_CORE_ERROR" [m.1, m.2.1] ∧ t = { s with recorder := t.recorder }) ∧
    (∀ rq, rq.over [0, 1] → s.coreUp = true →
      (s.sys.mode ≠ .trail → ∃ t, exec (.chkProofRestart rq) s = .next t ∧ s.replies t rq 0x0700 St.wrongMode 0 []) ∧
      (s.sys.mode = .trail →
        s.pair.partner ≠ .lead ∨ s.bit P.pairStatus 23 = true ∨ s.bit P.pairStatus 22 = true ∨ s.sys.split ≠ 0 ∨
          s.bit P.pairStatus 25 = true →
        ∃ t, exec (.chkProofRestart rq) s = .next t ∧ s.replies t rq 0x0700 St.refused 0 []) ∧
      (s.sys.mode = .trail → s.pair.partner = .lead → s.bit P.pairStatus 23 = false → s.bit P.pairStatus 22 = false →
        s.sys.split = 0 → s.bit P.pairStatus 25 = false → s.pair.withdrawing = none →
        (s.conflict 5 true none = none → ∃ t, exec (.chkProofRestart rq) s = .next t ∧
          t.kpr.relays = s.kpr.relays ++ [(⟨rq, 0x0700, []⟩ : RelayOut)] ∧ (∃ m ∈ t.sync.msgOut, m.kind = 4) ∧
          t = { s with kpr := t.kpr, sync := t.sync }) ∧
        ∀ a, s.conflict 5 true none = some a → ∃ t, exec (.chkProofRestart rq) s = .next t ∧
          t.answered rq 0x0700 St.busyConflict a [])) ∧
    ∀ rq, rq.over [0] → ∃ t, exec (.chkFaultClear rq) s = .next t ∧ t.answered rq 0x0701 St.ok 0 [] ∧
      (∀ e w, e < 2 → w < 8 → t.word (tkey 0x70C0 e w) = dfltWord (tkey 0x70C0 e w)) ∧
      ∀ k, k ∉ mbWords rq.mb → (∀ e w, e < 2 → w < 8 → k ≠ tkey 0x70C0 e w) → t.word k = s.word k

/-- Withdrawal, divergence and takeover (R248, R249, R250, R251, R253, R256, R257, R258, R260, R261, R262, R413). -/
def Obligations.WithdrawalAndTakeover : Prop :=
  ∀ s : State, s.canonical →
    (∀ cause, s.pair.withdrawing = some cause → cause < 32 → s.sys.pending = none →
      (cause ≠ 0x0B ∨ s.pair.takeoverDue = false) →
      ∃ t, exec .withdrawal s = .next t ∧
        t.sys.mode = (if cause = 1 ∨ cause = 2 then .faultSafe else if cause = 9 then .hold else if cause = 0x0B then .update
          else .listen) ∧
        t.fld P.pairStatus 13 9 = cause ∧ t.pair.withdrawing = none ∧ t.pair.handover = none ∧ t.pair.resolution = none ∧
        t.gatesClosed ∧ t.raises 3 "WITHDRAWAL" [cause, t.sys.mode.num] ∧
        (s.sys.mode.role ≠ t.sys.mode.role → t.pair.claim = 0 ∧ t.raises 3 "ROLE" [s.sys.mode.role, t.sys.mode.role])) ∧
    (∀ cause m c, s.pair.withdrawing = some cause → s.sys.pending = some (m, c) → c.rank < 4 →
      (cause ≠ 0x0B ∨ s.pair.takeoverDue = false) →
      ∃ t, exec .withdrawal s = .next t ∧ t.raises 0 "MODE_CAUSE_DROPPED" [cause] ∧
        t = { s with pair := { s.pair with withdrawing := none }, recorder := t.recorder }) ∧
    (s.pair.withdrawing = none → exec .withdrawal s = .next s) ∧
    (∀ cause : U8, ∃ t, exec (.withdraw cause) s = .next t ∧ t.raises 3 "PARTNER_WITHDRAWN" [cause.toNat] ∧
      t.sys.mode = s.sys.mode ∧
      (s.sys.mode = .trail → t = { s with pair := { s.pair with takeoverDue := true }, recorder := t.recorder }) ∧
      (s.sys.mode ≠ .trail → t.pair.partner = .absent ∧ t.pair.claim = s.pair.claim)) ∧
    (∀ fault k, (∀ r, s.pair.resolution = some r → r.tick = k → ∃ t, exec (.verdict fault k) s = .next t ∧
        t = { s with pair := { s.pair with resolution := some { r with partnerFault := some fault } } }) ∧
      ((∀ r, s.pair.resolution = some r → r.tick ≠ k) → ∃ t, exec (.verdict fault k) s = .next t ∧
        s.onlyWords [P.pairDivergeCnt] t ∧ t.word P.pairDivergeCnt = satInc32 (s.word P.pairDivergeCnt))) ∧
    (∀ r, s.pair.resolution = some r →
      (s.time.tick < r.tick + 2 → exec .divergenceOutcome s = .next s) ∧
      (r.tick + 2 ≤ s.time.tick → ∃ t, exec .divergenceOutcome s = .next t ∧ t.pair.resolution = none ∧
        t.bit P.pairStatus 23 = false ∧
        (r.ownFault = some true → t.sys.mode = .faultSafe ∧ t.fld P.pairStatus 13 9 = 2) ∧
        (r.ownFault = some false →
          (s.sys.mode = .lead → t.sys.mode = .lead ∧ t.pair.claim = s.pair.claim) ∧
          (s.sys.mode = .trail →
            (r.partnerFault = some true → t.sys.mode = .lead ∧ t.pair.claim = s.highest + 2) ∧
            (r.partnerFault = some false → t.sys.mode = .listen ∧ t.fld P.pairStatus 13 9 = 3 ∧ t.bit P.pairStatus 16 = true ∧
              t.word P.pairUnresolvedCnt = satInc32 (s.word P.pairUnresolvedCnt)) ∧
            (r.partnerFault = none → t.sys.mode = .trail ∧ t.pair.waitLead = some r.tick))))) ∧
    (s.pair.takeoverDue = true → s.sys.mode = .trail → ∃ t, exec .takeover s = .next t ∧ t.sys.mode = .lead ∧
      t.pair.claim = s.highest + 2 ∧ t.pair.partner = .absent ∧ t.pair.takeoverDue = false ∧ t.time = s.time ∧
      t.word P.pairTakeoverCnt = satInc32 (s.word P.pairTakeoverCnt) ∧ t.bit P.pairStatus 15 = true ∧
      t.raises 3 "TAKEOVER" [(s.highest + 2).toNat]) ∧
    (s.pair.takeoverDue = false ∨ s.sys.mode ≠ .trail → ∃ t, exec .takeover s = .next t ∧
      t = { s with pair := { s.pair with takeoverDue := false } }) ∧
    (s.sys.mode = .listen → s.alone = true → (∀ p, p < 16 → s.used p = true → s.aloneReady p = true) →
      s.word P.pairAutostart = 1#32 ∨ s.sys.runStanding = true → s.sys.split = 0 → s.bit P.chkStatus 14 = false →
      ∃ t, exec .listenAloneExpire s = .next t ∧ t.sys.mode = .standalone ∧ t.pair.claim = s.highest + 2 ∧
        t.pair.partner = .absent ∧ t.sys.runStanding = false ∧ t.raises 3 "ROLE" [Mode.listen.role, Mode.standalone.role]) ∧
    (s.alone = false ∨ s.sys.mode ≠ .listen → exec .listenAloneExpire s = .next s) ∧
    ∀ p : Fin 16,
      (s.sys.mode = .standalone ∨ s.sys.mode = .lead → 16 ≤ (s.port p).outHoldRun → hasBit s.pair.suspect p = false →
        ∃ t, exec (.claimSuspect p) s = .next t ∧ t.bit P.pairStatus 18 = true ∧ hasBit t.pair.suspect p = true ∧
          t.pair.claim = s.pair.claim ∧ t.raises 3 "CLAIM_SUSPECT" [p] ∧ s.wordsBut [P.pairStatus] t) ∧
      ((s.port p).outHoldRun < 16 → exec (.claimSuspect p) s = .next s)

/-- Planned handover and the pair's commands (R248, R249, R251, R253, R259, R266, R267, R269, R443). -/
def Obligations.HandoverAndPairCommands : Prop :=
  ∀ s : State, s.canonical →
    (∀ rq, rq.over [0] → s.coreUp = true →
      (s.sys.mode ≠ .lead → ∃ t, exec (.pairHandover rq) s = .next t ∧ s.replies t rq 0x0600 St.wrongMode 0 []) ∧
      (s.sys.mode = .lead → s.mayHandover = false → ∃ t, exec (.pairHandover rq) s = .next t ∧
        s.replies t rq 0x0600 St.refused 0 []) ∧
      (s.mayHandover = true → s.bgFull rq.mb = false → ∃ t, exec (.pairHandover rq) s = .next t ∧
        t.acceptedRq rq 0x0600 (leBytes 8 (s.time.tick + (s.word P.pairHandoverLead).toNat)) ∧
        (¬ (3 ≤ s.chgPhase ∧ s.chgPhase ≤ 6) → ∃ h, t.pair.handover = some h ∧ h.phase = .proposed ∧ h.oldLead = true ∧
          h.x = s.time.tick + (s.word P.pairHandoverLead).toNat ∧ t.controls 0x18 0 h.x ∧ t.bit P.pairStatus 22 = true ∧
          s.wordsBut [P.pairStatus] t) ∧
        (3 ≤ s.chgPhase → s.chgPhase ≤ 6 → t.pair = { s.pair with waitHandover := some false } ∧ t.sync = s.sync))) ∧
    (∀ x, s.sys.mode = .trail → s.bit P.pairStatus 23 = false → s.bit P.pairStatus 25 = false →
      ∃ t, exec (.hoPropose x) s = .next t ∧ t.pair = { s.pair with handover := some (⟨x, .acked, false, none⟩ : Handover) } ∧
        t.bit P.pairStatus 22 = true ∧ t.controls 0x19 0 x ∧ s.wordsBut [P.pairStatus] t) ∧
    (∀ h, s.pair.handover = some h →
      (h.oldLead = true → h.phase = .proposed →
        (s.time.tick + 8 ≤ h.x → ∃ t, exec (.hoAck h.x) s = .next t ∧ t.controls 0x1A 0 h.x ∧
          t = { s with pair := { s.pair with handover := some { h with phase := .confirmed } }, sync := t.sync }) ∧
        (h.x < s.time.tick + 8 → exec (.hoAck h.x) s = .next s) ∧
        (s.time.tick + 8 < h.x → exec .hoAckTimeout s = .next s) ∧
        (h.x ≤ s.time.tick + 8 → ∃ t, exec .hoAckTimeout s = .next t ∧ t.pair.handover = none ∧ t.bit P.pairStatus 22 = false ∧
          t.sys.mode = s.sys.mode ∧ t.raises 3 "HANDOVER_ABANDONED" [h.x] ∧
          ∀ rq, s.background 0x0600 = some rq → rq.mb ≠ 4 → t.answered rq 0x0600 St.refused 0 [])) ∧
      (h.oldLead = false →
        (s.time.tick + 4 ≤ h.x → ∃ t, exec (.hoConfirm h.x) s = .next t ∧
          t = { s with pair := { s.pair with handover := some { h with phase := .confirmed } } }) ∧
        (h.phase = .acked → h.x ≤ s.time.tick + 4 → s.bit P.pairStatus 24 = true ∨ 8 ≤ s.pair.hbMissed →
          ∃ t, exec .hoConfirmTimeout s = .next t ∧
            t = { s with pair := { s.pair with handover := some { h with phase := .confirmed } } }) ∧
        (h.phase = .acked → h.x ≤ s.time.tick + 4 → s.bit P.pairStatus 24 = false → s.pair.hbMissed < 8 →
          ∃ t, exec .hoConfirmTimeout s = .next t ∧ t.bit P.pairStatus 22 = false ∧ s.onlyWords [P.pairStatus] { t with pair := s.pair } ∧
            t.pair = { s.pair with handover := none, withdrawAt := some (h.x, 8) })) ∧
      (h.phase ≠ .confirmed ∨ s.time.tick < h.x → exec .handoverTick s = .next s) ∧
      (h.phase = .confirmed → h.x ≤ s.time.tick →
        (s.sys.mode = .lead → ∃ t, exec .handoverTick s = .next t ∧ t.sys.mode = .trail ∧ t.pair.claim = s.pair.claim + 1 ∧
          t.pair.partner = .lead ∧ t.pair.handover = none ∧ t.bit P.pairStatus 22 = false ∧
          t.word P.pairHandoverCnt = satInc32 (s.word P.pairHandoverCnt) ∧
          (∀ c, s.pair.afterHandover = some c → t.pair.withdrawAt = some (h.x + 1, c)) ∧
          ∀ rq, s.background 0x0600 = some rq → rq.mb ≠ 4 → t.answered rq 0x0600 St.ok 0 (leBytes 8 h.x)) ∧
        (s.sys.mode = .trail → ∃ t, exec .handoverTick s = .next t ∧ t.sys.mode = .lead ∧
          t.pair.claim = s.word P.pairPartnerClaim + 2 ∧ t.pair.partner = .trail ∧ t.pair.handover = none ∧
          t.word P.pairHandoverCnt = satInc32 (s.word P.pairHandoverCnt)) ∧
        (s.sys.mode = .standalone → s.sys.pending = none → ∃ t, exec .handoverTick s = .next t ∧ t.sys.mode = .update ∧
          t.fld P.pairStatus 13 9 = 0x0B) ∧
        (s.sys.mode = .resync → ∃ t, exec .handoverTick s = .next t ∧ t.sys.mode = .standalone ∧
          t.pair.claim = s.word P.pairPartnerClaim + 2 ∧ t.pair.partner = .absent ∧ t.sync.resync = none ∧
          t.fld P.syncStatus 31 28 = 0))) ∧
    ∀ rq, rq.over [0] → s.coreUp = true →
      (s.sys.mode.run = true → s.pair.withdrawing = none → s.sys.pending = none → ∃ t, exec (.pairWithdraw rq) s = .next t ∧
        t.pair = { s.pair with withdrawing := some 0x0C } ∧ t.controls 0x01 0x0C (s.time.tick + 1) ∧
        t.answered rq 0x0601 St.ok 0 (leBytes 8 (s.time.tick + 1)) ∧ s.wordsBut (mbWords rq.mb) t) ∧
      (s.sys.mode.run = false → ∃ t, exec (.pairWithdraw rq) s = .next t ∧ s.replies t rq 0x0601 St.wrongMode 0 []) ∧
      (s.sys.mode = .listen → ∃ t, exec (.pairRejoin rq) s = .next t ∧ t.bit P.pairStatus 19 = false ∧ t.pair.withdrawn03 = [] ∧
        t.sync = { s.sync with abandons := [] } ∧ t.answered rq 0x0602 St.ok 0 []) ∧
      (s.sys.mode = .standalone ∨ s.sys.mode = .lead ∧ s.pair.partner = .absent → ∀ amount : U32,
        (2 ≤ amount.toNat → amount.toNat ≤ 0x10000000 → ∃ t x, exec (.pairClaimRaise rq amount) s = .next t ∧
          t = { s with kpr := { s.kpr with staged := s.kpr.staged ++ [x] } } ∧ x.items = [.claim amount] ∧
          x.effect = s.time.tick + 1 ∧ x.rq = some rq ∧ x.relayed = false ∧
          (s.applyItem (some rq) (.claim amount)).pair.claim = s.pair.claim + amount) ∧
        (amount.toNat < 2 ∨ 0x10000000 < amount.toNat → ∃ t, exec (.pairClaimRaise rq amount) s = .next t ∧
          s.replies t rq 0x0603 St.outOfRange 0 []))

/-- Join request, copy and cut (R248, R300, R302, R303, R304, R305, R309, R310, R311, R547). -/
def Obligations.JoinAndCopy : Prop :=
  ∀ s : State, s.canonical →
    (∀ b, s.sync.beatLast = some b →
      (s.mayJoin = true → s.sync.accepted = none →
        (b.orderK ≠ Config.orderCode → ∃ t, exec .joinReqSend s = .next t ∧ t.raises 3 "ORDER_CODE_DIFFERS" [] ∧
          t = { s with recorder := t.recorder }) ∧
        (b.orderK = Config.orderCode → s.levelsOk b = false → ∃ t, exec .joinReqSend s = .next t ∧ t.sync = s.sync ∧
          t.bit P.syncStatus 16 = true ∧ t.raises 3 "LEVEL_REFUSED" [b.pairLevel, b.execLevel] ∧ s.wordsBut [P.syncStatus] t) ∧
        (b.orderK = Config.orderCode → s.levelsOk b = true → ∃ t, exec .joinReqSend s = .next t ∧
          t.sync.joinAsked = some s.time.tick ∧ t.controls 0x30 0 s.time.tick ∧ t.bit P.syncStatus 16 = false ∧
          t.bit P.syncStatus 8 = s.sync.joinAsked.isSome ∧ s.wordsBut [P.syncStatus] t)) ∧
      (s.mayJoin = false ∨ s.sync.accepted ≠ none → exec .joinReqSend s = .next s)) ∧
    (s.sys.mode = .lead ∨ s.sys.mode = .standalone → s.inPair = false → s.sync.resync = none → s.sync.accepted = none →
      (3 ≤ s.chgPhase → s.chgPhase ≤ 6 → ∃ t, exec .joinReq s = .next t ∧ t.bit P.syncStatus 8 = true ∧
        t.sync = { s.sync with joinAsked := some s.time.tick }) ∧
      (¬ (3 ≤ s.chgPhase ∧ s.chgPhase ≤ 6) →
        (s.conflict 6 true none = none → ∃ t, exec .joinReq s = .next t ∧ t.sync.accepted = some (s.time.tick + 16) ∧
          t.controls 0x31 0 (s.time.tick + 16) ∧ t.bit P.syncStatus 8 = false ∧ s.wordsBut [P.syncStatus] t) ∧
        ∀ a, s.conflict 6 true none = some a → ∃ t, exec .joinReq s = .next t ∧ t.sync.accepted = none ∧
          t.controls 0x35 0 s.time.tick ∧ t.bit P.syncStatus 8 = true ∧ t.raises 0 "BUSY_CONFLICT" [0x30, a, 0])) ∧
    (∀ k, (s.sys.mode = .listen → s.sync.joinAsked ≠ none → ∃ t, exec (.joinAccept k) s = .next t ∧
        t.sync = { s.sync with accepted := some k } ∧ t.bit P.syncStatus 8 = false ∧ s.wordsBut [P.syncStatus] t) ∧
      (s.sys.mode ≠ .listen ∨ s.sync.joinAsked = none → exec (.joinAccept k) s = .next s)) ∧
    (∀ k b, s.sync.accepted = some k → s.sync.beatLast = some b →
      (s.time.tick < k → exec .resyncEnter s = .next s) ∧
      (k ≤ s.time.tick → s.sys.mode = .listen ∨ s.sys.mode = .lead ∨ s.sys.mode = .standalone →
        ∃ t r, exec .resyncEnter s = .next t ∧ t.sync.resync = some r ∧ t.sync.accepted = none ∧
          r.lead = (s.sys.mode != .listen) ∧ r.phase = (if s.hashesEqual b then 2 else 1) ∧
          r.converted = (b.execLevel != fieldOf s.levels 23 16) ∧ t.fld P.syncStatus 31 28 = r.phase ∧
          t.bit P.syncStatus 9 = r.converted ∧ r.cutPages = (s.word P.resyncCutPages).toNat ∧
          t.sys.mode = (if s.sys.mode = .listen then .resync else if r.converted then s.sys.mode else .lead))) ∧
    (∀ r, s.sync.resync = some r →
      (r.lead = true → r.start + 24 ≤ s.time.tick → s.pair.partnerMode ≠ Mode.resync.num →
        ∃ t, exec .joinAcceptTimeout s = .next t ∧ t.sync = { s.sync with resync := none } ∧ t.fld P.syncStatus 27 24 = 1 ∧
          t.word P.resyncAbandonCnt = satInc32 (s.word P.resyncAbandonCnt) ∧ t.sys.mode = s.sys.mode ∧
          s.wordsBut [P.syncStatus, P.resyncAbandonCnt, P.resyncLastPages] t) ∧
      (s.time.tick < r.start + 24 ∨ s.pair.partnerMode = Mode.resync.num → exec .joinAcceptTimeout s = .next s) ∧
      (r.lead = true → r.phase = 2 → r.z = 0 → ∀ dirty sent : Nat,
        (dirty ≤ r.cutPages ∨ r.maxPasses ≤ r.pass + 1 ∧ dirty ≤ 131072 → ∃ t, exec (.copyPassEnd dirty sent) s = .next t ∧
          t = { s with sync := { s.sync with resync := some { r with sent := sent, z := s.time.tick + 1 } } }) ∧
        (r.cutPages < dirty → 131072 < dirty → r.maxPasses ≤ r.pass + 1 → ∃ t, exec (.copyPassEnd dirty sent) s = .next t ∧
          t.sync.resync = none ∧ t.fld P.syncStatus 27 24 = 3 ∧ t.sys.mode = s.sys.mode ∧ t.raises 3 "RESYNC_ABANDONED" [3] ∧
          (s.anyLink = true → t.controls 0x35 3 s.time.tick)) ∧
        (r.cutPages < dirty → r.pass + 1 < r.maxPasses → ∃ t, exec (.copyPassEnd dirty sent) s = .next t ∧
          t.sync.resync = some { r with sent := sent, pass := r.pass + 1 } ∧ t.fld P.syncStatus 23 18 = (r.pass + 1) % 64)) ∧
      (r.lead = true → r.phase = 2 → r.z ≠ 0 →
        (r.z ≤ s.time.tick → ∃ t, exec .cutTick s = .next t ∧ t.sync.resync = some { r with phase := 3 } ∧
          t.fld P.syncStatus 31 28 = 3 ∧ t.controls 0x32 0 r.z ∧ s.wordsBut [P.syncStatus] t) ∧
        (s.time.tick < r.z → exec .cutTick s = .next s)) ∧
      (r.lead = false → s.sys.mode = .resync → r.phase = 2 ∨ r.phase = 3 → ∀ st : CutState,
        ∃ t, exec (.cut st) s = .next t ∧
          t.sync.resync = some { r with phase := 4, z := st.z, executed := st.z, cutAt := s.time.tick } ∧
          t.fld P.syncStatus 31 28 = 4 ∧ t.prog.package = some st.program ∧ t.prog.seed = st.seed ∧
          t.change.package = st.change ∧ t.pair.agreedSnap = st.snap ∧ t.prog.inbox = st.inbox ∧ t.bit P.loopStatus 7 = true ∧
          t.time = s.time ∧ t.sys = s.sys ∧
          (r.converted = false → st.pm.Pairwise (fun x y => x.1 ≠ y.1) →
            ∀ x ∈ st.pm, t.pmByte x.1 = x.2)))

/-- Executed ticks, the join and the abandonment (R248, R259, R266, R302, R306, R307, R308, R309, R311). -/
def Obligations.CatchUpAndJoin : Prop :=
  ∀ s : State, s.canonical →
    (∀ r, s.sync.resync = some r →
      (r.lead = false → r.phase = 4 ∨ r.phase = 5 → ∀ items runs, items.exch.tick = r.executed → items.beat.tick = r.executed →
        (s.time.tick < r.executed → exec (.catchupTick items runs) s = .next s) ∧
        (r.executed ≤ s.time.tick →
          ((s.executeTick r.executed items runs).1.executedDiffers (s.executeTick r.executed items runs).2.1
              (s.executeTick r.executed items runs).2.2 items.beat = false →
            ∃ t q, exec (.catchupTick items runs) s = .next t ∧ t.sync.resync = some q ∧ q.executed = r.executed + 1 ∧
              t.sys.mode = s.sys.mode ∧ t.time.tick = s.time.tick ∧ t.pm = (s.executeTick r.executed items runs).1.pm ∧
              (r.phase = 4 → r.executed = s.time.tick → q.phase = 5 ∧ q.x = s.time.tick + 1 ∧ t.fld P.syncStatus 31 28 = 5) ∧
              (r.phase = 5 ∨ r.executed ≠ s.time.tick → q.phase = r.phase ∧ q.x = r.x)) ∧
          ((s.executeTick r.executed items runs).1.executedDiffers (s.executeTick r.executed items runs).2.1
              (s.executeTick r.executed items runs).2.2 items.beat = true →
            ∃ t, exec (.catchupTick items runs) s = .next t ∧ t.sync.resync = none ∧ t.fld P.syncStatus 27 24 = 5 ∧
              (s.sys.mode = .resync → t.sys.mode = .listen)))) ∧
      (r.lead = false → s.sys.mode = .resync →
        (r.phase = 4 → r.cutAt + 8 * r.catchMax ≤ s.time.tick → ∃ t, exec .catchupTimeout s = .next t ∧ t.sys.mode = .listen ∧
          t.sync.resync = none ∧ t.fld P.syncStatus 27 24 = 4 ∧ t.pm = [] ∧ t.raises 3 "RESYNC_ABANDONED" [4]) ∧
        (r.phase = 5 → r.j = 0 → r.converted = false → r.x + 8 < s.time.tick → ∃ t, exec .readyTimeout s = .next t ∧
          t.sys.mode = .listen ∧ t.sync.resync = none ∧ t.fld P.syncStatus 27 24 = 2 ∧ t.pm = []) ∧
        (∀ cause : U8, cause.toNat < 16 → ∃ t, exec (.joinAbandon cause) s = .next t ∧ t.sys.mode = .listen ∧
          t.sync.resync = none ∧ t.fld P.syncStatus 27 24 = cause.toNat ∧ t.sync.ctlOut = s.sync.ctlOut ∧ t.pm = []) ∧
        ∀ cause : U8, (cause = 6 ∨ cause = 9 ∨ cause = 1 ∧ s.anyLink = false ∨ cause = 2 ∧ 8 ≤ s.pair.hbMissed) →
          ∃ t, exec (.resyncAbandon cause) s = .next t ∧ t.sys.mode = .listen ∧ t.sync.resync = none ∧
            t.fld P.syncStatus 27 24 = cause.toNat ∧ t.bit P.syncStatus 17 = true ∧
            t.word P.resyncAbandonCnt = satInc32 (s.word P.resyncAbandonCnt) ∧
            t.sync.retryAt = some (s.plant + 10000000000) ∧ t.pm = [] ∧
            (s.anyLink = true → t.controls 0x35 cause.toNat s.time.tick)) ∧
      (s.time.tick < r.cutAt + 8 * r.catchMax → exec .catchupTimeout s = .next s) ∧
      (s.time.tick ≤ r.x + 8 ∨ r.j ≠ 0 → exec .readyTimeout s = .next s) ∧
      (s.anyLink = true → exec (.resyncAbandon 1) s = .next s) ∧
      (r.lead = true → s.sys.mode ≠ .resync → ∀ cause : U8, cause.toNat < 16 → ∃ t, exec (.joinAbandon cause) s = .next t ∧
        t.sys.mode = s.sys.mode ∧ t.sync = { s.sync with resync := none } ∧ t.fld P.syncStatus 27 24 = cause.toNat) ∧
      (r.lead = true → r.phase = 3 ∨ r.phase = 4 ∨ r.phase = 5 → ∀ x,
        (r.converted = false → ∃ t, exec (.ready x) s = .next t ∧ t.controls 0x34 0 (x + 16) ∧
          t.sync.resync = some { r with phase := 5, x := x, j := x + 16 } ∧ t.fld P.syncStatus 31 28 = 5) ∧
        (r.converted = true → ∃ t, exec (.ready x) s = .next t ∧
          t.sync = { s.sync with resync := some { r with phase := 5, x := x, readySent := true } } ∧
          t.fld P.syncStatus 31 28 = 5)) ∧
      (r.lead = false → r.phase = 5 → r.readySent = true → r.j = 0 → ∀ j, ∃ t, exec (.join j) s = .next t ∧
        t = { s with sync := { s.sync with resync := some { r with j := j } } }) ∧
      (r.j = 0 ∨ s.time.tick < r.j ∨ r.converted = true → exec .joinTick s = .next s) ∧
      (r.j ≠ 0 → r.j ≤ s.time.tick → r.converted = false →
        (r.lead = true → ∃ t, exec .joinTick s = .next t ∧ t.sync = { s.sync with resync := none } ∧ t.pair.partner = .trail ∧
          t.pair.hbMissed = 0 ∧ t.bit P.pairStatus 25 = false ∧ t.fld P.syncStatus 31 28 = 0 ∧ t.sys.mode = s.sys.mode ∧
          t.word P.resyncLastMs = w32 ((r.j - r.start) / 8) ∧ t.raises 3 "PARTNER_JOINED" []) ∧
        (r.lead = false → r.executed = s.time.tick → s.sys.mode = .resync → ∃ t, exec .joinTick s = .next t ∧
          t.sys.mode = .trail ∧ t.pair.claim = s.word P.pairPartnerClaim - 1 ∧ t.pair.partner = .lead ∧
          t.sync.resync = none ∧ t.fld P.syncStatus 31 28 = 0))) ∧
    (s.sync.resync = none →
      (s.sys.mode = .listen → ∀ cause, ∃ t, exec (.joinAbandon cause) s = .next t ∧
        t.sync = { s.sync with accepted := none } ∧ t.bit P.syncStatus 8 = s.sync.joinAsked.isSome) ∧
      ∀ cause, exec (.resyncAbandon cause) s = .next s) ∧
    ∀ k, s.sync.retryAt = some k →
      (k ≤ s.plant → ∃ t, exec .resyncRetry s = .next t ∧ t = { s with sync := { s.sync with retryAt := none } }) ∧
      (s.plant < k → exec .resyncRetry s = .next s)

/-- Debug of an EP (R331, R332, R333, R334, R416, R453, R503). -/
def Obligations.Debug : Prop :=
  ∀ s : State, s.canonical → ∀ rq,
    (∀ n : U8, s.debugs rq n →
      (∃ t pc, exec (.dbgHalt rq n) s = .next t ∧ t.answered rq 0x0710 St.ok 0 (leBytes 8 pc.toNat) ∧
        (t.ep n.toNat).halted = true ∧ (t.ep n.toNat).pc = pc ∧ t.sys = s.sys ∧
        ((s.ep n.toNat).halted = true → pc = (s.ep n.toNat).pc) ∧ ∀ m, m ≠ n.toNat → t.ep m = s.ep m) ∧
      ((s.ep n.toNat).halted = false →
        (∃ t, exec (.dbgResume rq n) s = .next t ∧ s.replies t rq 0x0711 St.refused 0 []) ∧
        (∀ c, ∃ t, exec (.dbgStep rq n c) s = .next t ∧ s.replies t rq 0x0712 St.refused 0 []) ∧
        (∀ a c, ∃ t, exec (.dbgRegRead rq n a c) s = .next t ∧ s.replies t rq 0x0713 St.refused 0 []) ∧
        ∀ r v, ∃ t, exec (.dbgRegWrite rq n r v) s = .next t ∧ s.replies t rq 0x0714 St.refused 0 []) ∧
      ((s.ep n.toNat).halted = true →
        (∃ t, exec (.dbgResume rq n) s = .next t ∧ t.answered rq 0x0711 St.ok 0 [] ∧ (t.ep n.toNat).halted = false ∧
          (t.ep n.toNat).breaks = (s.ep n.toNat).breaks ∧ ∀ m, m ≠ n.toNat → t.ep m = s.ep m) ∧
        (∀ c, ∃ t, exec (.dbgStep rq n c) s = .next t ∧ (t.ep n.toNat).halted = true ∧
          t.answered rq 0x0712 St.ok 0 (leBytes 8 (t.ep n.toNat).pc.toNat) ∧
          (c = 0 → t.ep n.toNat = s.ep n.toNat)) ∧
        (∀ r, ∃ t v, exec (.dbgRegRead rq n r 1) s = .next t ∧ t.answered rq 0x0713 St.ok 0 (leBytes 8 v.toNat) ∧
          (t.ep n.toNat).regs.find? (fun x => x.1 == r.toNat) = some (r.toNat, v) ∧
          ∀ w, (s.ep n.toNat).regs.find? (fun x => x.1 == r.toNat) = some (r.toNat, w) → v = w) ∧
        ∀ r v, ∃ t, exec (.dbgRegWrite rq n r v) s = .next t ∧ t.answered rq 0x0714 St.ok 0 [] ∧
          (t.ep n.toNat).regs.find? (fun x => x.1 == r.toNat) = some (r.toNat, v) ∧
          ∀ q, q ≠ r.toNat → (t.ep n.toNat).regs.find? (fun x => x.1 == q) = (s.ep n.toNat).regs.find? (fun x => x.1 == q)) ∧
      (∀ (addr : U64) (len : U32),
        (4072 < len.toNat → ∃ t, exec (.dbgMemRead rq n addr len) s = .next t ∧ s.replies t rq 0x0715 St.badLength 0 []) ∧
        (len.toNat ≤ 4072 →
          (s.guardFinds (.debug rq 0x0715) 0 addr.toNat len.toNat false = none → ∃ t,
            exec (.dbgMemRead rq n addr len) s = .next t ∧
            s.replies t rq 0x0715 St.ok 0 (s.memBytes addr.toNat len.toNat)) ∧
          ∀ g x, s.guardFinds (.debug rq 0x0715) 0 addr.toNat len.toNat false = some (g, x) → ∃ t,
            exec (.dbgMemRead rq n addr len) s = .next t ∧ t.answered rq 0x0715 St.notPermitted 0 [] ∧ t.sameMemory s)) ∧
      (∀ (addr : U64) (data : List Byte),
        (4072 < data.length → ∃ t, exec (.dbgMemWrite rq n addr data) s = .next t ∧ s.replies t rq 0x0716 St.badLength 0 []) ∧
        (data.length ≤ 4072 →
          (s.guardFinds (.debug rq 0x0716) 1 addr.toNat data.length false = none →
            ∃ t, exec (.dbgMemWrite rq n addr data) s = .next t ∧ t.answered rq 0x0716 St.ok 0 [] ∧
              (0x1000000000 ≤ addr.toNat → t.pm = s.pm ∧ (∀ i, i < data.length → t.dramByte (addr.toNat + i) = data.getD i 0) ∧
                ∀ a, a < addr.toNat ∨ addr.toNat + data.length ≤ a → t.dramByte a = s.dramByte a) ∧
              (0x40000000 ≤ addr.toNat → addr.toNat + data.length ≤ 0x41000000 → t.dram = s.dram ∧
                (∀ i, i < data.length → t.pmByte (addr.toNat - 0x40000000 + i) = data.getD i 0) ∧
                ∀ a, a < addr.toNat - 0x40000000 ∨ addr.toNat - 0x40000000 + data.length ≤ a → t.pmByte a = s.pmByte a)) ∧
          ∀ g x, s.guardFinds (.debug rq 0x0716) 1 addr.toNat data.length false = some (g, x) → ∃ t,
            exec (.dbgMemWrite rq n addr data) s = .next t ∧ t.answered rq 0x0716 St.notPermitted 0 [] ∧ t.sameMemory s)) ∧
      ∀ (kind : U8) (slot : U16) (addr : U64),
        (3 < kind.toNat → ∃ t, exec (.dbgBreak rq n kind slot addr) s = .next t ∧ s.replies t rq 0x0717 St.outOfRange 0 []) ∧
        (kind.toNat ≤ 3 → ∃ t, exec (.dbgBreak rq n kind slot addr) s = .next t ∧ t.answered rq 0x0717 St.ok 0 [] ∧
          (∀ x ∈ (t.ep n.toNat).breaks, x.1 = slot.toNat → kind ≠ 0 ∧ x = (slot.toNat, kind.toNat, addr)) ∧
          (kind ≠ 0 → (slot.toNat, kind.toNat, addr) ∈ (t.ep n.toNat).breaks) ∧
          ∀ x ∈ (s.ep n.toNat).breaks, x.1 ≠ slot.toNat → x ∈ (t.ep n.toNat).breaks)) ∧
    (rq.over [5] → s.coreUp = true → s.sys.mode.debug = false → ∀ n,
      ∃ t, exec (.dbgHalt rq n) s = .next t ∧ s.replies t rq 0x0710 St.wrongMode 0 []) ∧
    (rq.over [5] →
      (s.sys.mode.emits = true ∨ s.sys.mode = .resync → ∀ scope, ∃ t, exec (.dbgReset rq scope) s = .next t ∧
        s.replies t rq 0x0718 St.wrongMode 0 []) ∧
      (s.sys.mode.emits = false → s.sys.mode ≠ .resync →
        (∃ t, exec (.dbgReset rq 0) s = .next t ∧ t.inReset .dbg .mainDomain) ∧
        (∀ scope : U32, 1 ≤ scope.toNat → scope.toNat ≤ 4 → s.regionUp (scope.toNat - 1) = true →
          ∃ t, exec (.dbgReset rq scope) s = .next t ∧ hasBit t.sys.sluices (scope.toNat - 1) = true ∧
            t.answered rq 0x0718 St.ok 0 []) ∧
        ∀ scope : U32, 4 < scope.toNat → ∃ t, exec (.dbgReset rq scope) s = .next t ∧ s.replies t rq 0x0718 St.outOfRange 0 [])) ∧
    (rq.over [5] → s.coreUp = true → ∀ (offset : U64) (len : U32),
      (len.toNat ≤ 4072 → offset.toNat + len.toNat ≤ traceSize → ∃ t bytes, exec (.dbgTraceRead rq offset len) s = .next t ∧
        bytes.length = len.toNat ∧ t.answered rq 0x0719 St.ok 0 bytes ∧ t.sameMemory s ∧ t.eps = s.eps) ∧
      (4072 < len.toNat ∨ traceSize < offset.toNat + len.toNat → ∃ t, exec (.dbgTraceRead rq offset len) s = .next t ∧
        s.replies t rq 0x0719 St.outOfRange 0 []))

/-- Only a reset leads out of FAULT-SAFE (R321, R249, R411). -/
def Obligations.FaultSafeIsLeftByReset : Prop :=
  ∀ s t : State, s.faultLocked → step s = .next t → (t.faultLocked ∨ t.sys.mode = .boot) ∧ t.gatesClosed
end

