-- ==== Sys2Proof/Laws/Canon.lean ====
section
/-!
SUPPORT. The canonical form of State: the map operations keep it, and the shapes that every proof of it meets.
-/

namespace Sys2Proof.Machine

/-! ### The map operations -/

theorem Cmap.above_of_lt {α : Type} (m : List (Nat × α)) (a b : Nat) (h : Cmap.above b m = true) (hab : a < b) :
    Cmap.above a m = true := by
  cases m with
  | nil => rfl
  | cons e m => simp only [Cmap.above, decide_eq_true_eq] at *; omega

theorem Cmap.above_put {α : Type} [DecidableEq α] (d : Nat → α) (m : List (Nat × α)) (k b : Nat) (v : α)
    (hw : Cmap.wf d m = true) (hm : Cmap.above b m = true) (hk : b < k) : Cmap.above b (Cmap.put d m k v) = true := by
  cases m with
  | nil => unfold Cmap.put; split <;> simp [Cmap.above, hk]
  | cons e m =>
    obtain ⟨j, w⟩ := e
    have hj : b < j := by simpa [Cmap.above] using hm
    simp only [Cmap.wf, Bool.and_eq_true] at hw
    unfold Cmap.put
    repeat' split
    · simp [Cmap.above, hj]
    · simp [Cmap.above, hk]
    · exact Cmap.above_of_lt m b j hw.1.2 hj
    · simp [Cmap.above, hk]
    · simp [Cmap.above, hj]

theorem Cmap.wf_put {α : Type} [DecidableEq α] (d : Nat → α) (m : List (Nat × α)) (k : Nat) (v : α) (h : Cmap.wf d m = true) :
    Cmap.wf d (Cmap.put d m k v) = true := by
  induction m with
  | nil => unfold Cmap.put; split <;> simp_all [Cmap.wf, Cmap.above]
  | cons e m ih =>
    obtain ⟨j, w⟩ := e
    have h' := h
    simp only [Cmap.wf, Bool.and_eq_true, decide_eq_true_eq] at h'
    unfold Cmap.put
    repeat' split
    · exact h
    · simp_all [Cmap.wf, Cmap.above]
    · exact h'.2
    · simp_all [Cmap.wf]
    · simp only [Cmap.wf, Bool.and_eq_true, decide_eq_true_eq]
      exact ⟨⟨h'.1.1, Cmap.above_put d m k j v h'.2 h'.1.2 (by omega)⟩, ih h'.2⟩

theorem Cmap.wf_putAll {α : Type} [DecidableEq α] (d : Nat → α) (vs : List α) (m : List (Nat × α)) (k : Nat) (h : Cmap.wf d m = true) :
    Cmap.wf d (Cmap.putAll d m k vs) = true := by
  induction vs generalizing m k with
  | nil => exact h
  | cons v vs ih => exact ih _ _ (Cmap.wf_put d m k v h)

theorem Cmap.above_keep {α : Type} [DecidableEq α] (d : Nat → α) (f : Nat → Bool) (m : List (Nat × α)) (b : Nat)
    (hw : Cmap.wf d m = true) (h : Cmap.above b m = true) : Cmap.above b (Cmap.keep f m) = true := by
  induction m with
  | nil => rfl
  | cons e m ih =>
    obtain ⟨j, w⟩ := e
    simp only [Cmap.wf, Bool.and_eq_true] at hw
    have hj : b < j := by simpa [Cmap.above] using h
    unfold Cmap.keep at ih ⊢
    rw [List.filter_cons]
    split
    · simp [Cmap.above, hj]
    · exact ih hw.2 (Cmap.above_of_lt m b j hw.1.2 hj)

theorem Cmap.wf_keep {α : Type} [DecidableEq α] (d : Nat → α) (f : Nat → Bool) (m : List (Nat × α)) (h : Cmap.wf d m = true) :
    Cmap.wf d (Cmap.keep f m) = true := by
  induction m with
  | nil => rfl
  | cons e m ih =>
    obtain ⟨j, w⟩ := e
    simp only [Cmap.wf, Bool.and_eq_true] at h
    have ha := Cmap.above_keep d f m j h.2 h.1.2
    unfold Cmap.keep at ih ha ⊢
    rw [List.filter_cons]
    split
    · simp [Cmap.wf, ha, ih h.2, (by simpa using h.1.1 : w ≠ d j)]
    · exact ih h.2

/-! ### The shapes of State functions -/

/-- An outcome whose next state is in canonical form. -/
def Res.canonical (r : Res) : Prop := match r with
  | .next t => t.canonical
  | _ => True

theorem Res.canonical_next {s : State} (h : s.canonical) : Res.canonical (.next s) := h

theorem State.canonical_mk {pending words pm dram free time sys pair sync ports stns prog change loop recorder kpr fio acq gauge replay
      img eps maint} :
    (State.mk pending words pm dram free time sys pair sync ports stns prog change loop recorder kpr fio acq gauge replay img eps
      maint).canonical ↔ Cmap.wf dfltWord words = true ∧ Memory.wf pm = true ∧ Memory.wf dram = true ∧
      Cmap.wf (fun _ => StnS.fresh) stns = true ∧ ports.length = 16 ∧ fio.dio.length = 16 ∧ fio.cl.length = 8 ∧
      prog.tasks.length = 32 ∧ prog.running.length = 4 ∧ acq.units.length = 4 ∧ eps.length = 4 ∧ kpr.sensors.length = 32 := Iff.rfl

theorem State.canonical_parts {t : State} (h : t.canonical) :
    Cmap.wf dfltWord t.words = true ∧ Memory.wf t.pm = true ∧ Memory.wf t.dram = true ∧
      Cmap.wf (fun _ => StnS.fresh) t.stns = true ∧ t.ports.length = 16 ∧ t.fio.dio.length = 16 ∧ t.fio.cl.length = 8 ∧
      t.prog.tasks.length = 32 ∧ t.prog.running.length = 4 ∧ t.acq.units.length = 4 ∧ t.eps.length = 4 ∧ t.kpr.sensors.length = 32 := h

theorem State.canonical_prog {t : State} {q : ProgS} (h : t.canonical) (h1 : q.tasks.length = 32) (h2 : q.running.length = 4) :
    ({ t with prog := q }).canonical :=
  ⟨h.1, h.2.1, h.2.2.1, h.2.2.2.1, h.2.2.2.2.1, h.2.2.2.2.2.1, h.2.2.2.2.2.2.1, h1, h2, h.2.2.2.2.2.2.2.2.2⟩

theorem State.canonical.tasks {t : State} (h : t.canonical) : t.prog.tasks.length = 32 := h.2.2.2.2.2.2.2.1
theorem State.canonical.running {t : State} (h : t.canonical) : t.prog.running.length = 4 := h.2.2.2.2.2.2.2.2.1

theorem canonical_of_fst {β : Type} {p : State × β} {t : State} {y : β} (e : p = (t, y)) (h : p.1.canonical) : t.canonical := by
  subst e; exact h

theorem canonical_of_snd {β : Type} {p : β × State} {t : State} {y : β} (e : p = (y, t)) (h : p.2.canonical) : t.canonical := by
  subst e; exact h

theorem canonical_foldl {α : Type} {s : State} {l : List α} {f : State → α → State} (h : s.canonical)
    (hf : ∀ s x, s.canonical → (f s x).canonical) : (l.foldl f s).canonical := by
  induction l generalizing s with
  | nil => exact h
  | cons a l ih => exact ih (hf _ _ h)

theorem canonical_foldl_snd {α β : Type} {p : β × State} {l : List α} {f : β × State → α → β × State} (h : p.2.canonical)
    (hf : ∀ q x, q.2.canonical → (f q x).2.canonical) : (l.foldl f p).2.canonical := by
  induction l generalizing p with
  | nil => exact h
  | cons a l ih => exact ih (hf _ _ h)

theorem canonical_foldl_fst {α β : Type} {p : State × β} {l : List α} {f : State × β → α → State × β} (h : p.1.canonical)
    (hf : ∀ q x, q.1.canonical → (f q x).1.canonical) : (l.foldl f p).1.canonical := by
  induction l generalizing p with
  | nil => exact h
  | cons a l ih => exact ih (hf _ _ h)

theorem canonical_ite {c : Prop} [Decidable c] {a b : State} (ha : a.canonical) (hb : b.canonical) :
    (if c then a else b).canonical := by split <;> assumption

theorem canonical_dite {c : Prop} [Decidable c] {a : c → State} {b : ¬c → State} (ha : ∀ h, (a h).canonical)
    (hb : ∀ h, (b h).canonical) : (dite c a b).canonical := by
  split
  · exact ha _
  · exact hb _

theorem Res.canonical_ite {c : Prop} [Decidable c] {a b : Res} (ha : Res.canonical a) (hb : Res.canonical b) :
    Res.canonical (if c then a else b) := by split <;> assumption

theorem Res.canonical_dite {c : Prop} [Decidable c] {a : c → Res} {b : ¬c → Res} (ha : ∀ h, Res.canonical (a h))
    (hb : ∀ h, Res.canonical (b h)) : Res.canonical (dite c a b) := by
  split
  · exact ha _
  · exact hb _

end Sys2Proof.Machine
end

