-- ==== Sys2Proof/Laws/CanonOps.lean ====
section
/-!
SUPPORT. Every function of Machine/Ops.lean keeps the canonical form of State.
-/

set_option linter.all false

namespace Sys2Proof.Machine

theorem State.setWord_canonical (s : State) (k : Nat) (v : U32) (h_s : (s).canonical) :
    (State.setWord s k v).canonical := by
  exact ⟨Cmap.wf_put _ _ _ _ h_s.1, h_s.2⟩

theorem State.setFld_canonical (s : State) (k hi lo v : Nat) (h_s : (s).canonical) :
    (State.setFld s k hi lo v).canonical := by
  unfold State.setFld
  repeat' first | with_reducible assumption | with_reducible apply State.setWord_canonical

theorem State.setBit_canonical (s : State) (k b : Nat) (v : Bool) (h_s : (s).canonical) :
    (State.setBit s k b v).canonical := by
  unfold State.setBit
  repeat' first | with_reducible assumption | with_reducible apply State.setFld_canonical

theorem State.set64_canonical (s : State) (k v : Nat) (h_s : (s).canonical) :
    (State.set64 s k v).canonical := by
  unfold State.set64
  repeat' first | with_reducible assumption | with_reducible apply State.setWord_canonical

theorem State.inc_canonical (s : State) (k : Nat) (h_s : (s).canonical) :
    (State.inc s k).canonical := by
  unfold State.inc
  repeat' first | with_reducible assumption | with_reducible apply State.setWord_canonical

theorem State.incBy_canonical (s : State) (k n : Nat) (h_s : (s).canonical) :
    (State.incBy s k n).canonical := by
  unfold State.incBy
  repeat' first | with_reducible assumption | with_reducible apply State.setWord_canonical

theorem State.incFld_canonical (s : State) (k hi lo : Nat) (h_s : (s).canonical) :
    (State.incFld s k hi lo).canonical := by
  unfold State.incFld
  repeat' first | with_reducible assumption | with_reducible apply State.setFld_canonical

theorem State.maxWord_canonical (s : State) (k v : Nat) (h_s : (s).canonical) :
    (State.maxWord s k v).canonical := by
  unfold State.maxWord
  repeat' first | with_reducible assumption | with_reducible apply State.setWord_canonical | with_reducible apply canonical_ite

theorem State.setWords_canonical (s : State) (k : Nat) (z0 : List U32) (h_s : (s).canonical) :
    (State.setWords s k z0).canonical := by
  induction z0 generalizing s k with
  | nil => exact h_s
  | cons v vs ih => exact ih _ _ (State.setWord_canonical _ _ _ h_s)

theorem State.clearEntry_canonical (s : State) (tid e n : Nat) (h_s : (s).canonical) :
    (State.clearEntry s tid e n).canonical := by
  unfold State.clearEntry
  repeat' first | with_reducible intro x | with_reducible assumption | with_reducible apply State.setWord_canonical | with_reducible apply canonical_foldl

theorem State.keepWords_canonical (s : State) (f : Nat → Bool) (h_s : (s).canonical) :
    (State.keepWords s f).canonical := by
  exact ⟨Cmap.wf_keep _ _ _ h_s.1, h_s.2⟩

theorem State.setPmByte_canonical (s : State) (a : Nat) (v : Byte) (h_s : (s).canonical) :
    (State.setPmByte s a v).canonical := by
  exact ⟨h_s.1, Cmap.wf_put _ _ _ _ h_s.2.1, h_s.2.2⟩

theorem State.setPm_canonical (s : State) (a : Nat) (bs : List Byte) (h_s : (s).canonical) :
    (State.setPm s a bs).canonical := by
  exact ⟨h_s.1, Cmap.wf_putAll _ _ _ _ h_s.2.1, h_s.2.2⟩

theorem State.pmPut_canonical (s : State) (a n v : Nat) (h_s : (s).canonical) :
    (State.pmPut s a n v).canonical := by
  unfold State.pmPut
  repeat' first | with_reducible assumption | with_reducible apply State.setPm_canonical

theorem State.setDramByte_canonical (s : State) (a : Nat) (v : Byte) (h_s : (s).canonical) :
    (State.setDramByte s a v).canonical := by
  exact ⟨h_s.1, h_s.2.1, Cmap.wf_put _ _ _ _ h_s.2.2.1, h_s.2.2.2⟩

theorem State.setDram_canonical (s : State) (a : Nat) (bs : List Byte) (h_s : (s).canonical) :
    (State.setDram s a bs).canonical := by
  exact ⟨h_s.1, h_s.2.1, Cmap.wf_putAll _ _ _ _ h_s.2.2.1, h_s.2.2.2⟩

theorem State.modPort_canonical (s : State) (p : Nat) (f : PortS → PortS) (h_s : (s).canonical) :
    (State.modPort s p f).canonical := by
  unfold State.modPort
  repeat' first | with_reducible assumption | (simp only [↓State.canonical_mk, List.length_modify, List.length_set, List.length_map, List.length_replicate, List.length_zipIdx]; with_reducible apply State.canonical_parts)

theorem State.setStn_canonical (s : State) (k : Nat) (v : StnS) (h_s : (s).canonical) :
    (State.setStn s k v).canonical := by
  exact ⟨h_s.1, h_s.2.1, h_s.2.2.1, Cmap.wf_put _ _ _ _ h_s.2.2.2.1, h_s.2.2.2.2⟩

theorem State.modStn_canonical (s : State) (k : Nat) (f : StnS → StnS) (h_s : (s).canonical) :
    (State.modStn s k f).canonical := by
  unfold State.modStn
  repeat' first | with_reducible assumption | with_reducible apply State.setStn_canonical

theorem State.ev_canonical (s : State) (chan : Nat) (name : String) (vals : List Nat) (h_s : (s).canonical) :
    (State.ev s chan name vals).canonical := by
  unfold State.ev
  repeat' first | with_reducible assumption | (extract_lets +onlyGivenNames x; clear_value x) | (simp only [↓State.canonical_mk]; with_reducible apply State.canonical_parts)

theorem State.evFixed_canonical (s : State) (chan : Nat) (code : Nat) (vals : List Nat) (h_s : (s).canonical) :
    (State.evFixed s chan code vals).canonical := by
  unfold State.evFixed
  repeat' first | with_reducible assumption | (extract_lets +onlyGivenNames x; clear_value x) | (simp only [↓State.canonical_mk]; with_reducible apply State.canonical_parts)

theorem State.drawWord_canonical (s : State) (h_s : (s).canonical) :
    (State.drawWord s).2.canonical := by
  unfold State.drawWord
  repeat' first | with_reducible assumption | (simp only [↓State.canonical_mk]; with_reducible apply State.canonical_parts)

theorem State.drawBytes_canonical (s : State) (n : Nat) (h_s : (s).canonical) :
    (State.drawBytes s n).2.canonical := by
  unfold State.drawBytes
  repeat' first | with_reducible assumption | (simp only [↓State.canonical_mk]; with_reducible apply State.canonical_parts)

theorem State.when_canonical (s : State) (c : Bool) (f : State → State) (h_s : (s).canonical) (h_f : ∀ (y0 : State), (y0).canonical → (f y0).canonical) :
    (State.when s c f).canonical := by
  unfold State.when
  repeat' first | with_reducible assumption | with_reducible apply h_f | with_reducible apply canonical_ite

theorem State.each_canonical {α : Type} (s : State) (l : List α) (f : State → α → State) (h_s : (s).canonical) (h_f : ∀ (y0 : State) (y1 : α), (y0).canonical → (f y0 y1).canonical) :
    (State.each s l f).canonical := by
  unfold State.each
  induction l generalizing s with
  | nil => exact h_s
  | cons a l ih => exact ih _ (h_f _ _ h_s)

theorem State.keepPm_canonical (s : State) (f : Nat → Bool) (h_s : (s).canonical) :
    (State.keepPm s f).canonical := by
  exact ⟨h_s.1, Cmap.wf_keep _ _ _ h_s.2.1, h_s.2.2⟩

theorem State.keepDram_canonical (s : State) (f : Nat → Bool) (h_s : (s).canonical) :
    (State.keepDram s f).canonical := by
  exact ⟨h_s.1, h_s.2.1, Cmap.wf_keep _ _ _ h_s.2.2.1, h_s.2.2.2⟩

theorem State.clearPm_canonical (s : State) (h_s : (s).canonical) :
    (State.clearPm s).canonical := by
  exact ⟨h_s.1, rfl, h_s.2.2⟩

theorem State.loadMem_canonical (s : State) (pm dram : List (Nat × Byte)) (h_s : (s).canonical) :
    (State.loadMem s pm dram).canonical := by
  unfold State.loadMem
  repeat' first
    | with_reducible intro x
    | with_reducible assumption
    | with_reducible apply State.keepDram_canonical
    | with_reducible apply State.each_canonical
    | with_reducible apply State.setPmByte_canonical
    | with_reducible apply State.setDramByte_canonical
    | with_reducible apply State.clearPm_canonical

end Sys2Proof.Machine
end

