-- ==== Sys2Proof/Laws/CanonKprOps.lean ====
section
/-!
SUPPORT. Every function of Machine/KprOps.lean keeps the canonical form of State.
-/

set_option linter.all false

namespace Sys2Proof.Machine

theorem State.tally_canonical (s : State) (mb status : Nat) (h_s : (s).canonical) :
    (State.tally s mb status).canonical := by
  unfold State.tally
  repeat' first | with_reducible intro x | with_reducible assumption | with_reducible apply State.inc_canonical | with_reducible apply State.when_canonical

theorem State.control_canonical (s : State) (code arg : Nat) (word : U32) (tick : Nat) (h_s : (s).canonical) :
    (State.control s code arg word tick).canonical := by
  unfold State.control
  repeat' first | with_reducible assumption | (extract_lets +onlyGivenNames x; clear_value x) | (simp only [↓State.canonical_mk]; with_reducible apply State.canonical_parts)

theorem State.message_canonical (s : State) (kind : Nat) (body : List Byte) (h_s : (s).canonical) :
    (State.message s kind body).2.canonical := by
  unfold State.message
  repeat' first | with_reducible assumption | (extract_lets +onlyGivenNames x; clear_value x) | (simp only [↓State.canonical_mk]; with_reducible apply State.canonical_parts)

theorem State.putResp_canonical (s : State) (r : MbResp) (h_s : (s).canonical) :
    (State.putResp s r).canonical := by
  unfold State.putResp
  repeat' first | with_reducible assumption | (extract_lets +onlyGivenNames x; have _ : KprS := x; simp only [x]; clear x) | (extract_lets +onlyGivenNames x; clear_value x) | (simp only [↓State.canonical_mk]; with_reducible apply State.canonical_parts)

theorem State.post_canonical (s : State) (rq : Rq) (opcode : Nat) (interim : Bool) (payload : List Byte) (h_s : (s).canonical) :
    (State.post s rq opcode interim payload).canonical := by
  unfold State.post
  repeat' first | with_reducible assumption | with_reducible apply State.message_canonical | with_reducible apply State.putResp_canonical | with_reducible apply canonical_ite

theorem State.unsolicited_canonical (s : State) (mb : Fin 8) (opcode : Nat) (payload : List Byte) (h_s : (s).canonical) :
    (State.unsolicited s mb opcode payload).canonical := by
  unfold State.unsolicited
  repeat' first | with_reducible assumption | with_reducible apply State.putResp_canonical

theorem State.latency_canonical (s : State) (rq : Rq) (opcode : Nat) (h_s : (s).canonical) :
    (State.latency s rq opcode).canonical := by
  unfold State.latency
  repeat' first | with_reducible assumption | with_reducible apply State.maxWord_canonical | split

theorem State.respond_canonical (s : State) (rq : Rq) (opcode status detail : Nat) (data : List Byte) (h_s : (s).canonical) :
    (State.respond s rq opcode status detail data).canonical := by
  unfold State.respond
  repeat' first
    | with_reducible assumption
    | with_reducible apply State.latency_canonical
    | with_reducible apply State.post_canonical
    | with_reducible apply State.tally_canonical
    | (extract_lets +onlyGivenNames x; have _ : KprS := x; simp only [x]; clear x)
    | (simp only [↓State.canonical_mk]; with_reducible apply State.canonical_parts)

theorem State.accept_canonical (s : State) (rq : Rq) (opcode : Nat) (data : List Byte) (h_s : (s).canonical) :
    (State.accept s rq opcode data).canonical := by
  unfold State.accept
  repeat' first
    | with_reducible assumption
    | with_reducible apply State.post_canonical
    | (extract_lets +onlyGivenNames x; have hx : State.canonical x := ?_; clear_value x)
    | (extract_lets +onlyGivenNames x; have _ : KprS := x; simp only [x]; clear x)
    | (simp only [↓State.canonical_mk]; with_reducible apply State.canonical_parts)

theorem State.finish_canonical (s : State) (opcode status detail : Nat) (data : List Byte) (h_s : (s).canonical) :
    (State.finish s opcode status detail data).canonical := by
  unfold State.finish
  repeat' first | with_reducible assumption | with_reducible apply State.respond_canonical | split

theorem State.finishTag_canonical (s : State) (mb : Fin 8) (tag : U16) (opcode status detail : Nat) (data : List Byte) (h_s : (s).canonical) :
    (State.finishTag s mb tag opcode status detail data).canonical := by
  unfold State.finishTag
  repeat' first | with_reducible assumption | with_reducible apply State.respond_canonical | split

theorem State.hold_canonical (s : State) (rq : Rq) (opcode : Nat) (h_s : (s).canonical) :
    (State.hold s rq opcode).canonical := by
  unfold State.hold
  repeat' first | with_reducible assumption | with_reducible apply canonical_ite | (extract_lets +onlyGivenNames x; have _ : KprS := x; simp only [x]; clear x) | (simp only [↓State.canonical_mk]; with_reducible apply State.canonical_parts)

theorem State.closeSession_canonical (s : State) (mb : Fin 8) (h_s : (s).canonical) :
    (State.closeSession s mb).canonical := by
  unfold State.closeSession
  repeat' first
    | with_reducible intro x
    | with_reducible assumption
    | with_reducible apply State.ev_canonical
    | with_reducible apply State.when_canonical
    | with_reducible apply State.each_canonical
    | with_reducible apply State.setBit_canonical
    | with_reducible apply canonical_ite
    | (extract_lets +onlyGivenNames x; have _ : KprS := x; simp only [x]; clear x)
    | (extract_lets +onlyGivenNames x; clear_value x)
    | (simp only [↓State.canonical_mk]; with_reducible apply State.canonical_parts)

theorem State.connLost_canonical (s : State) (port : Nat) (mb : Fin 8) (h_s : (s).canonical) :
    (State.connLost s port mb).canonical := by
  unfold State.connLost
  repeat' first
    | with_reducible intro x
    | with_reducible assumption
    | with_reducible apply State.when_canonical
    | with_reducible apply State.closeSession_canonical
    | with_reducible apply canonical_ite
    | (extract_lets +onlyGivenNames x; have _ : KprS := x; simp only [x]; clear x)
    | (simp only [↓State.canonical_mk]; with_reducible apply State.canonical_parts)

theorem State.portConnsLost_canonical (s : State) (port : Nat) (h_s : (s).canonical) :
    (State.portConnsLost s port).canonical := by
  unfold State.portConnsLost
  repeat' first | with_reducible intro x | with_reducible assumption | with_reducible apply State.each_canonical | with_reducible apply State.connLost_canonical

theorem State.cmd_canonical (s : State) (rq : Rq) (op : Nat) (mbs : List Nat) (main ok : Bool) (f : State → State) (h_s : (s).canonical) (h_f : ∀ (y0 : State), (y0).canonical → (f y0).canonical) :
    (State.cmd s rq op mbs main ok f).canonical := by
  unfold State.cmd
  repeat' first | with_reducible assumption | with_reducible apply h_f | with_reducible apply State.respond_canonical | with_reducible apply canonical_ite

theorem State.bg_canonical (s : State) (rq : Rq) (op : Nat) (data : List Byte) (f : State → State) (h_s : (s).canonical) (h_f : ∀ (y0 : State), (y0).canonical → (f y0).canonical) :
    (State.bg s rq op data f).canonical := by
  unfold State.bg
  repeat' first
    | with_reducible assumption
    | with_reducible apply h_f
    | with_reducible apply State.respond_canonical
    | with_reducible apply State.accept_canonical
    | with_reducible apply canonical_ite

theorem State.relay_canonical (s : State) (rq : Rq) (opcode : Nat) (payload : List Byte) (h_s : (s).canonical) :
    (State.relay s rq opcode payload).canonical := by
  unfold State.relay
  repeat' first
    | with_reducible assumption
    | with_reducible apply State.respond_canonical
    | with_reducible apply canonical_ite
    | (extract_lets +onlyGivenNames x; have _ : KprS := x; simp only [x]; clear x)
    | (extract_lets +onlyGivenNames x; clear_value x)
    | (simp only [↓State.canonical_mk]; with_reducible apply State.canonical_parts)

theorem State.stage_canonical (s : State) (rq : Option Rq) (opcode : Nat) (pairItems : Bool) (items : List StagedItem) (h_s : (s).canonical) :
    (State.stage s rq opcode pairItems items).canonical := by
  unfold State.stage
  repeat' first | with_reducible assumption | with_reducible apply canonical_ite | (extract_lets +onlyGivenNames x; have _ : KprS := x; simp only [x]; clear x) | (simp only [↓State.canonical_mk]; with_reducible apply State.canonical_parts)

end Sys2Proof.Machine
end

