-- ==== Sys2Proof/Laws/CanonAcqOps.lean ====
section
/-!
SUPPORT. Every function of Machine/AcqOps.lean keeps the canonical form of State.
-/

set_option linter.all false

namespace Sys2Proof.Machine

theorem State.modCu_canonical (s : State) (u : Nat) (f : CuS → CuS) (h_s : (s).canonical) :
    (State.modCu s u f).canonical := by
  unfold State.modCu
  repeat' first | with_reducible assumption | (extract_lets +onlyGivenNames x; have _ : AcqS := x; simp only [x]; clear x) | (simp only [↓State.canonical_mk, List.length_modify, List.length_set, List.length_map, List.length_replicate, List.length_zipIdx]; with_reducible apply State.canonical_parts)

theorem State.cuStatus_canonical (s : State) (h_s : (s).canonical) :
    (State.cuStatus s).canonical := by
  unfold State.cuStatus
  repeat' first | with_reducible assumption | with_reducible apply State.setWord_canonical

theorem State.setCu_canonical (s : State) (u st cause : Nat) (h_s : (s).canonical) :
    (State.setCu s u st cause).canonical := by
  unfold State.setCu
  repeat' first | with_reducible assumption | with_reducible apply State.setFld_canonical | with_reducible apply State.cuStatus_canonical

theorem State.cuDrop_canonical (s : State) (u cause : Nat) (h_s : (s).canonical) :
    (State.cuDrop s u cause).canonical := by
  unfold State.cuDrop
  repeat' first | with_reducible assumption | with_reducible apply State.setCu_canonical | with_reducible apply State.modCu_canonical | with_reducible apply canonical_ite

theorem State.cuDropAll_canonical (s : State) (cause : Nat) (h_s : (s).canonical) :
    (State.cuDropAll s cause).canonical := by
  unfold State.cuDropAll
  repeat' first | with_reducible intro x | with_reducible assumption | with_reducible apply State.each_canonical | with_reducible apply State.cuDrop_canonical

theorem State.cuPortLost_canonical (s : State) (p : Nat) (h_s : (s).canonical) :
    (State.cuPortLost s p).canonical := by
  unfold State.cuPortLost
  repeat' first
    | with_reducible intro x
    | with_reducible assumption
    | with_reducible apply State.each_canonical
    | with_reducible apply State.cuDrop_canonical
    | with_reducible apply canonical_ite

theorem State.closeSeg_canonical (s : State) (u : Nat) (viol : Option (Nat × Nat)) (trunc : Bool) (d : SegData) (h_s : (s).canonical) :
    (State.closeSeg s u viol trunc d).canonical := by
  unfold State.closeSeg
  repeat' first
    | with_reducible assumption
    | with_reducible apply State.setDram_canonical
    | with_reducible apply State.incFld_canonical
    | with_reducible apply State.modCu_canonical
    | with_reducible apply canonical_ite
    | (extract_lets +onlyGivenNames x; have _ : AcqS := x; simp only [x]; clear x)
    | (simp only [↓State.canonical_mk]; with_reducible apply State.canonical_parts)

theorem State.cuStop_canonical (s : State) (u cause : Nat) (d : SegData) (h_s : (s).canonical) :
    (State.cuStop s u cause d).canonical := by
  unfold State.cuStop
  repeat' first | with_reducible assumption | with_reducible apply State.closeSeg_canonical | with_reducible apply State.setCu_canonical | with_reducible apply canonical_ite

theorem State.startSeg_canonical (s : State) (u t : Nat) (h_s : (s).canonical) :
    (State.startSeg s u t).canonical := by
  unfold State.startSeg
  repeat' first | with_reducible assumption | with_reducible apply State.setCu_canonical | with_reducible apply State.modCu_canonical

theorem State.gaugeRec_canonical (s : State) (rtype len : Nat) (pm : List (Nat × Byte)) (words : List (Nat × U32)) (data : List Byte) (h_s : (s).canonical) :
    (State.gaugeRec s rtype len pm words data).canonical := by
  unfold State.gaugeRec
  repeat' first | with_reducible assumption | with_reducible apply canonical_ite | (extract_lets +onlyGivenNames x; clear_value x) | (simp only [↓State.canonical_mk]; with_reducible apply State.canonical_parts)

theorem State.gaugeTick_canonical (s : State) (lost : Bool) (h_s : (s).canonical) :
    (State.gaugeTick s lost).canonical := by
  unfold State.gaugeTick
  repeat' first
    | with_reducible assumption
    | with_reducible apply State.inc_canonical
    | with_reducible apply State.setBit_canonical
    | with_reducible apply canonical_ite
    | (extract_lets +onlyGivenNames x; clear_value x)
    | (simp only [↓State.canonical_mk]; with_reducible apply State.canonical_parts)

theorem State.gaugeStart_canonical (s : State) (h_s : (s).canonical) :
    (State.gaugeStart s).canonical := by
  unfold State.gaugeStart
  repeat' first
    | with_reducible assumption
    | with_reducible apply State.setBit_canonical
    | with_reducible apply State.setWord_canonical
    | with_reducible apply canonical_ite
    | (extract_lets +onlyGivenNames x; clear_value x)
    | (simp only [↓State.canonical_mk]; with_reducible apply State.canonical_parts)

theorem State.gaugeStop_canonical (s : State) (h_s : (s).canonical) :
    (State.gaugeStop s).canonical := by
  unfold State.gaugeStop
  repeat' first
    | with_reducible assumption
    | with_reducible apply State.setBit_canonical
    | with_reducible apply canonical_ite
    | (extract_lets +onlyGivenNames x; clear_value x)
    | (simp only [↓State.canonical_mk]; with_reducible apply State.canonical_parts)

theorem State.gaugeLose_canonical (s : State) (h_s : (s).canonical) :
    (State.gaugeLose s).canonical := by
  unfold State.gaugeLose
  repeat' first
    | with_reducible assumption
    | with_reducible apply State.gaugeStop_canonical
    | with_reducible apply State.clearEntry_canonical
    | with_reducible apply State.setFld_canonical
    | (extract_lets +onlyGivenNames x; clear_value x)
    | (simp only [↓State.canonical_mk]; with_reducible apply State.canonical_parts)
    | split

theorem State.startCopy_canonical (s : State) (m : GMark) (h_s : (s).canonical) :
    (State.startCopy s m).canonical := by
  unfold State.startCopy
  repeat' first
    | with_reducible assumption
    | with_reducible apply State.clearEntry_canonical
    | with_reducible apply State.setBit_canonical
    | with_reducible apply State.set64_canonical
    | with_reducible apply State.setWord_canonical
    | (extract_lets +onlyGivenNames x; clear_value x)
    | (simp only [↓State.canonical_mk]; with_reducible apply State.canonical_parts)

theorem State.gaugeMark_canonical (s : State) (cause : Nat) (h_s : (s).canonical) :
    (State.gaugeMark s cause).1.canonical := by
  unfold State.gaugeMark
  repeat' first
    | with_reducible assumption
    | with_reducible apply State.setBit_canonical
    | with_reducible apply State.ev_canonical
    | with_reducible apply State.startCopy_canonical
    | (extract_lets +onlyGivenNames x; have hx : State.canonical x.1 := ?_; clear_value x)
    | (extract_lets +onlyGivenNames x; clear_value x)
    | (simp only [↓State.canonical_mk]; with_reducible apply State.canonical_parts)
    | split

theorem State.gaugeAuto_canonical (s : State) (cause : Nat) (h_s : (s).canonical) :
    (State.gaugeAuto s cause).canonical := by
  unfold State.gaugeAuto
  repeat' first | with_reducible assumption | with_reducible apply State.gaugeMark_canonical | with_reducible apply canonical_ite

end Sys2Proof.Machine
end

