-- ==== Sys2Proof/Laws/CanonAcq.lean ====
section
/-!
SUPPORT. Every function of Machine/Acq.lean keeps the canonical form of State.
-/

set_option linter.all false

namespace Sys2Proof.Machine

theorem execAcqArm_canonical (rq : Rq) (unit : Fin 4) (s : State) (h_s : (s).canonical) :
    Res.canonical (execAcqArm rq unit s) := by
  unfold execAcqArm
  repeat' first
    | with_reducible intro x
    | with_reducible assumption
    | with_reducible apply State.cmd_canonical
    | with_reducible apply State.respond_canonical
    | with_reducible apply State.setFld_canonical
    | with_reducible apply State.setCu_canonical
    | with_reducible apply State.modCu_canonical
    | with_reducible apply State.startSeg_canonical
    | with_reducible apply canonical_ite
    | with_reducible apply Res.canonical_next
    | (simp only [x, ↓State.canonical_mk]; with_reducible apply State.canonical_parts)

theorem execAcqStop_canonical (rq : Rq) (unit : Fin 4) (d : SegData) (s : State) (h_s : (s).canonical) :
    Res.canonical (execAcqStop rq unit d s) := by
  unfold execAcqStop
  repeat' first
    | with_reducible intro x
    | with_reducible assumption
    | with_reducible apply State.cmd_canonical
    | with_reducible apply State.cuStop_canonical
    | with_reducible apply State.respond_canonical
    | with_reducible apply Res.canonical_next

theorem State.trigger_canonical (s : State) (u t : Nat) (dead : Bool) (h_s : (s).canonical) :
    (State.trigger s u t dead).canonical := by
  unfold State.trigger
  repeat' first | with_reducible assumption | with_reducible apply State.modCu_canonical | with_reducible apply State.startSeg_canonical | with_reducible apply canonical_ite

theorem execCaptureTrigger_canonical (unit : Fin 4) (t : Nat) (dead : Bool) (s : State) (h_s : (s).canonical) :
    Res.canonical (execCaptureTrigger unit t dead s) := by
  unfold execCaptureTrigger
  repeat' first | with_reducible assumption | with_reducible apply State.trigger_canonical | with_reducible apply Res.canonical_next

theorem execAcqTrigger_canonical (rq : Rq) (mask : Fin 16) (s : State) (h_s : (s).canonical) :
    Res.canonical (execAcqTrigger rq mask s) := by
  unfold execAcqTrigger
  repeat' first
    | with_reducible intro x
    | with_reducible assumption
    | with_reducible apply State.cmd_canonical
    | with_reducible apply State.each_canonical
    | with_reducible apply State.trigger_canonical
    | with_reducible apply State.respond_canonical
    | with_reducible apply canonical_ite
    | with_reducible apply Res.canonical_next

theorem execSegmentClose_canonical (unit : Fin 4) (d : SegData) (s : State) (h_s : (s).canonical) :
    Res.canonical (execSegmentClose unit d s) := by
  unfold execSegmentClose
  repeat' first
    | with_reducible assumption
    | with_reducible apply State.closeSeg_canonical
    | with_reducible apply State.setCu_canonical
    | with_reducible apply State.startSeg_canonical
    | with_reducible apply canonical_ite
    | with_reducible apply Res.canonical_next

theorem execCaptureOverrun_canonical (unit : Fin 4) (d : SegData) (s : State) (h_s : (s).canonical) :
    Res.canonical (execCaptureOverrun unit d s) := by
  unfold execCaptureOverrun
  repeat' first | with_reducible assumption | with_reducible apply State.cuStop_canonical | with_reducible apply Res.canonical_next

theorem execMaskViolation_canonical (unit : Fin 4) (mask : Fin 8) (idx : Nat) (d : SegData) (others : List SegData) (s : State) (h_s : (s).canonical) :
    Res.canonical (execMaskViolation unit mask idx d others s) := by
  unfold execMaskViolation
  repeat' first
    | with_reducible intro x
    | with_reducible assumption
    | with_reducible apply State.closeSeg_canonical
    | with_reducible apply State.setCu_canonical
    | with_reducible apply State.inc_canonical
    | with_reducible apply State.each_canonical
    | with_reducible apply State.cuStop_canonical
    | with_reducible apply State.gaugeAuto_canonical
    | with_reducible apply State.ev_canonical
    | with_reducible apply canonical_ite
    | with_reducible apply Res.canonical_next

theorem execAcqExport_canonical (rq : Rq) (unit : Fin 4) (first : U32) (count : U16) (s : State) (h_s : (s).canonical) :
    Res.canonical (execAcqExport rq unit first count s) := by
  unfold execAcqExport
  repeat' first
    | with_reducible intro x
    | with_reducible assumption
    | with_reducible apply State.cmd_canonical
    | with_reducible apply State.respond_canonical
    | with_reducible apply State.bg_canonical
    | with_reducible apply canonical_ite
    | with_reducible apply Res.canonical_next
    | (simp only [x, ↓State.canonical_mk]; with_reducible apply State.canonical_parts)

end Sys2Proof.Machine
end

