-- ==== Sys2Proof/Laws/CanonFioOps.lean ====
section
/-!
SUPPORT. Every function of Machine/FioOps.lean keeps the canonical form of State.
-/

set_option linter.all false

namespace Sys2Proof.Machine

theorem State.modDio_canonical (s : State) (c : Nat) (f : DioS → DioS) (h_s : (s).canonical) :
    (State.modDio s c f).canonical := by
  unfold State.modDio
  repeat' first | with_reducible assumption | (extract_lets +onlyGivenNames x; have _ : FioS := x; simp only [x]; clear x) | (simp only [↓State.canonical_mk, List.length_modify, List.length_set, List.length_map, List.length_replicate, List.length_zipIdx]; with_reducible apply State.canonical_parts)

theorem State.modCl_canonical (s : State) (k : Nat) (f : ClS → ClS) (h_s : (s).canonical) :
    (State.modCl s k f).canonical := by
  unfold State.modCl
  repeat' first | with_reducible assumption | (extract_lets +onlyGivenNames x; have _ : FioS := x; simp only [x]; clear x) | (simp only [↓State.canonical_mk, List.length_modify, List.length_set, List.length_map, List.length_replicate, List.length_zipIdx]; with_reducible apply State.canonical_parts)

theorem State.faultSums_canonical (s : State) (g : Nat) (h_s : (s).canonical) :
    (State.faultSums s g).canonical := by
  unfold State.faultSums
  repeat' first | with_reducible assumption | with_reducible apply State.setFld_canonical | with_reducible apply State.setBit_canonical

theorem State.chFault_canonical (s : State) (c b : Nat) (v : Bool) (h_s : (s).canonical) :
    (State.chFault s c b v).canonical := by
  unfold State.chFault
  repeat' first
    | with_reducible intro x
    | with_reducible assumption
    | with_reducible apply State.setBit_canonical
    | with_reducible apply State.when_canonical
    | with_reducible apply State.incFld_canonical
    | with_reducible apply State.faultSums_canonical
    | with_reducible apply canonical_ite

theorem State.groupOutputsOff_canonical (s : State) (g : Nat) (h_s : (s).canonical) :
    (State.groupOutputsOff s g).canonical := by
  unfold State.groupOutputsOff
  repeat' first
    | with_reducible intro x
    | with_reducible assumption
    | with_reducible apply State.each_canonical
    | with_reducible apply State.modDio_canonical
    | with_reducible apply State.modCl_canonical
    | with_reducible apply canonical_ite

theorem State.outputsOff_canonical (s : State) (h_s : (s).canonical) :
    (State.outputsOff s).canonical := by
  unfold State.outputsOff
  repeat' first
    | with_reducible intro x
    | with_reducible assumption
    | with_reducible apply State.each_canonical
    | with_reducible apply State.groupOutputsOff_canonical
    | with_reducible apply State.setBit_canonical

theorem State.groupReload_canonical (s : State) (g : Nat) (h_s : (s).canonical) :
    (State.groupReload s g).canonical := by
  unfold State.groupReload
  repeat' first
    | with_reducible intro x
    | with_reducible assumption
    | with_reducible apply State.each_canonical
    | with_reducible apply State.modDio_canonical
    | with_reducible apply State.modCl_canonical
    | with_reducible apply canonical_ite

theorem State.setSag_canonical (s : State) (g st : Nat) (h_s : (s).canonical) :
    (State.setSag s g st).canonical := by
  unfold State.setSag
  repeat' first | with_reducible assumption | with_reducible apply State.setFld_canonical | with_reducible apply State.setBit_canonical

theorem State.supplies_canonical (s : State) (volts : List U16) (h_s : (s).canonical) :
    (State.supplies s volts).canonical := by
  unfold State.supplies
  repeat' first
    | with_reducible intro x
    | with_reducible assumption
    | with_reducible apply State.each_canonical
    | with_reducible apply State.setFld_canonical
    | with_reducible apply canonical_ite

theorem State.groupStart_canonical (s : State) (g volts : Nat) (h_s : (s).canonical) :
    (State.groupStart s g volts).canonical := by
  unfold State.groupStart
  repeat' first
    | with_reducible assumption
    | with_reducible apply State.setSag_canonical
    | with_reducible apply State.setBit_canonical
    | with_reducible apply State.groupOutputsOff_canonical
    | with_reducible apply State.groupReload_canonical

theorem State.groupReset_canonical (s : State) (g : Nat) (h_s : (s).canonical) :
    (State.groupReset s g).canonical := by
  unfold State.groupReset
  repeat' first
    | with_reducible intro x
    | with_reducible assumption
    | with_reducible apply State.setBit_canonical
    | with_reducible apply State.groupOutputsOff_canonical
    | with_reducible apply State.each_canonical
    | with_reducible apply State.chFault_canonical
    | with_reducible apply State.groupReload_canonical

theorem State.measure_canonical (s : State) (k : Nat) (x : F32) (h_s : (s).canonical) :
    (State.measure s k x).canonical := by
  unfold State.measure
  repeat' first
    | with_reducible assumption
    | with_reducible apply State.modCl_canonical
    | with_reducible apply State.chFault_canonical
    | with_reducible apply State.setWord_canonical
    | with_reducible apply canonical_ite

theorem State.countDiffers_canonical (s : State) (own p : Snap) (h_s : (s).canonical) :
    (State.countDiffers s own p).canonical := by
  unfold State.countDiffers
  repeat' first | with_reducible assumption | (extract_lets +onlyGivenNames x; clear_value x) | (simp only [↓State.canonical_mk]; with_reducible apply State.canonical_parts)

theorem State.clearDisagree_canonical (s : State) (h_s : (s).canonical) :
    (State.clearDisagree s).canonical := by
  unfold State.clearDisagree
  repeat' first
    | with_reducible intro x
    | with_reducible assumption
    | with_reducible apply State.each_canonical
    | with_reducible apply State.setBit_canonical
    | with_reducible apply canonical_ite

theorem State.agreeLocal_canonical (s : State) (own : Snap) (partner : Option Snap) (h_s : (s).canonical) :
    (State.agreeLocal s own partner).canonical := by
  unfold State.agreeLocal
  repeat' first
    | with_reducible assumption
    | with_reducible apply State.countDiffers_canonical
    | with_reducible apply State.clearDisagree_canonical
    | (simp only [x, ↓State.canonical_mk]; with_reducible apply State.canonical_parts)
    | (extract_lets +onlyGivenNames x; have hx : State.canonical x := ?_; clear_value x)
    | (extract_lets +onlyGivenNames x; clear_value x)
    | split

theorem State.emitDio_canonical (s : State) (c : Nat) (cmd : Bool) (h_s : (s).canonical) :
    (State.emitDio s c cmd).canonical := by
  unfold State.emitDio
  repeat' first
    | with_reducible intro x
    | with_reducible assumption
    | with_reducible apply State.chFault_canonical
    | with_reducible apply State.modDio_canonical
    | with_reducible apply State.setWord_canonical
    | with_reducible apply State.when_canonical
    | with_reducible apply canonical_ite

theorem State.emitCl_canonical (s : State) (k : Nat) (cmd : F32) (h_s : (s).canonical) :
    (State.emitCl s k cmd).canonical := by
  unfold State.emitCl
  repeat' first
    | with_reducible assumption
    | with_reducible apply State.chFault_canonical
    | with_reducible apply State.modCl_canonical
    | with_reducible apply State.setWord_canonical
    | with_reducible apply canonical_ite

theorem State.emit_canonical (s : State) (h_s : (s).canonical) :
    (State.emit s).canonical := by
  unfold State.emit
  repeat' first
    | with_reducible intro x
    | with_reducible assumption
    | with_reducible apply State.each_canonical
    | with_reducible apply State.emitDio_canonical
    | with_reducible apply State.emitCl_canonical
    | with_reducible apply State.setBit_canonical
    | with_reducible apply State.outputsOff_canonical
    | with_reducible apply canonical_ite
    | split

theorem State.setHart_canonical (s : State) (h : HartS) (l : List HartS) (h_s : (s).canonical) :
    (State.setHart s h l).canonical := by
  unfold State.setHart
  repeat' first | with_reducible assumption | (extract_lets +onlyGivenNames x; have _ : FioS := x; simp only [x]; clear x) | (simp only [↓State.canonical_mk]; with_reducible apply State.canonical_parts)

theorem State.hartAbandon_canonical (s : State) (h_s : (s).canonical) :
    (State.hartAbandon s).canonical := by
  unfold State.hartAbandon
  repeat' first
    | with_reducible intro x
    | with_reducible assumption
    | with_reducible apply State.each_canonical
    | with_reducible apply State.setHart_canonical
    | with_reducible apply State.respond_canonical

end Sys2Proof.Machine
end

