-- ==== Sys2Proof/Laws/CanonGuardOps.lean ====
section
/-!
SUPPORT. Every function of Machine/GuardOps.lean keeps the canonical form of State.
-/

set_option linter.all false

namespace Sys2Proof.Machine

theorem State.guardFault_canonical (s : State) (n : Nat) (ws : List U32) (h_s : (s).canonical) :
    (State.guardFault s n ws).canonical := by
  unfold State.guardFault
  repeat' first | with_reducible assumption | with_reducible apply State.setWords_canonical | with_reducible apply canonical_ite

theorem State.ruleFault_canonical (s : State) (n e base : Nat) (h_s : (s).canonical) :
    (State.ruleFault s n e base).canonical := by
  unfold State.ruleFault
  repeat' first
    | with_reducible assumption
    | with_reducible apply State.guardFault_canonical
    | with_reducible apply State.inc_canonical
    | with_reducible apply State.setBit_canonical
    | with_reducible apply State.ev_canonical

theorem State.guardSwitch_canonical (s : State) (n : Nat) (h_s : (s).canonical) :
    (State.guardSwitch s n).canonical := by
  unfold State.guardSwitch
  repeat' first
    | with_reducible intro x
    | with_reducible assumption
    | with_reducible apply State.setBit_canonical
    | with_reducible apply State.ruleFault_canonical
    | with_reducible apply State.each_canonical
    | with_reducible apply State.setWords_canonical
    | with_reducible apply State.inc_canonical
    | with_reducible apply State.set64_canonical
    | (extract_lets +onlyGivenNames x; have hx : State.canonical x := ?_; clear_value x)
    | split

theorem State.fwShadow_canonical (s : State) (n : Nat) (h_s : (s).canonical) :
    (State.fwShadow s n).canonical := by
  unfold State.fwShadow
  repeat' first | with_reducible intro x | with_reducible assumption | with_reducible apply State.each_canonical | with_reducible apply State.setWords_canonical

theorem State.guardLoad_canonical (s : State) (h_s : (s).canonical) :
    (State.guardLoad s).canonical := by
  unfold State.guardLoad
  repeat' first
    | with_reducible intro x
    | with_reducible assumption
    | with_reducible apply State.each_canonical
    | with_reducible apply State.fwShadow_canonical
    | with_reducible apply State.guardSwitch_canonical

end Sys2Proof.Machine
end

