-- ==== Sys2Proof/Laws/CanonMem.lean ====
section
/-!
SUPPORT. Every function of Machine/Mem.lean keeps the canonical form of State.
-/

set_option linter.all false

namespace Sys2Proof.Machine

theorem State.putMem_canonical (s : State) (a : Nat) (v : Byte) (h_s : (s).canonical) :
    (State.putMem s a v).canonical := by
  unfold State.putMem
  repeat' first
    | with_reducible assumption
    | with_reducible apply State.setPmByte_canonical
    | with_reducible apply State.setDramByte_canonical
    | with_reducible apply canonical_ite
    | (extract_lets +onlyGivenNames x; clear_value x)
    | (simp only [↓State.canonical_mk]; with_reducible apply State.canonical_parts)

theorem State.putCells_canonical (s : State) (l : List (Nat × Byte)) (h_s : (s).canonical) :
    (State.putCells s l).canonical := by
  unfold State.putCells
  repeat' first | with_reducible intro x | with_reducible assumption | with_reducible apply State.each_canonical | with_reducible apply State.putMem_canonical

theorem State.setPm64_canonical (s : State) (a : Nat) (mask v : U64) (h_s : (s).canonical) :
    (State.setPm64 s a mask v).canonical := by
  unfold State.setPm64
  repeat' first | with_reducible assumption | with_reducible apply State.pmPut_canonical

end Sys2Proof.Machine
end

