-- ==== Sys2Proof/Laws/CanonSched.lean ====
section
/-!
SUPPORT. Nothing of Machine/Sched.lean changes State.
-/
end

