-- ==== Sys2Proof/Laws/CanonLoopOps.lean ====
section
/-!
SUPPORT. Every function of Machine/LoopOps.lean keeps the canonical form of State.
-/

set_option linter.all false

namespace Sys2Proof.Machine

theorem State.writeDest_canonical (s : State) (d : LDest) (out : F32) (code : Nat) (h_s : (s).canonical) :
    (State.writeDest s d out code).canonical := by
  unfold State.writeDest
  repeat' first | with_reducible assumption | with_reducible apply State.setPm64_canonical | with_reducible apply canonical_ite

theorem State.loopLaw_canonical (s : State) (l : Nat) (h_s : (s).canonical) :
    (State.loopLaw s l).canonical := by
  unfold State.loopLaw
  repeat' first | with_reducible assumption | with_reducible apply State.setWord_canonical

theorem State.integrate_canonical (s : State) (l : Nat) (ovr compl : Bool) (h_s : (s).canonical) :
    (State.integrate s l ovr compl).canonical := by
  unfold State.integrate
  repeat' first | with_reducible assumption | with_reducible apply State.setBit_canonical | with_reducible apply State.setWord_canonical | with_reducible apply canonical_ite

theorem State.groupWork_canonical (s : State) (q : Nat) (h_s : (s).canonical) :
    (State.groupWork s q).canonical := by
  unfold State.groupWork
  repeat' first
    | with_reducible intro x
    | with_reducible assumption
    | with_reducible apply State.each_canonical
    | with_reducible apply State.integrate_canonical
    | with_reducible apply State.writeDest_canonical
    | with_reducible apply State.setFld_canonical
    | with_reducible apply State.setWord_canonical

theorem State.loopWork_canonical (s : State) (l : Nat) (h_s : (s).canonical) :
    (State.loopWork s l).canonical := by
  unfold State.loopWork
  repeat' first | with_reducible assumption | with_reducible apply State.integrate_canonical | with_reducible apply State.writeDest_canonical

theorem State.genStep_canonical (s : State) (g : Nat) (h_s : (s).canonical) :
    (State.genStep s g).canonical := by
  unfold State.genStep
  repeat' first | with_reducible assumption | with_reducible apply State.setBit_canonical | with_reducible apply State.setWord_canonical | with_reducible apply canonical_ite

theorem State.loopWindow_canonical (s : State) (k : Nat) (loops gens groups : List Nat) (h_s : (s).canonical) :
    (State.loopWindow s k loops gens groups).canonical := by
  unfold State.loopWindow
  repeat' first
    | with_reducible intro x
    | with_reducible assumption
    | with_reducible apply State.each_canonical
    | with_reducible apply State.genStep_canonical
    | with_reducible apply State.loopLaw_canonical
    | with_reducible apply State.groupWork_canonical
    | with_reducible apply State.loopWork_canonical
    | (extract_lets +onlyGivenNames x; have hx : State.canonical x := ?_; clear_value x)
    | (extract_lets +onlyGivenNames x; clear_value x)
    | (simp only [↓State.canonical_mk]; with_reducible apply State.canonical_parts)

theorem State.unitLate_canonical (s : State) (tid u flag misses : Nat) (h_s : (s).canonical) :
    (State.unitLate s tid u flag misses).canonical := by
  unfold State.unitLate
  repeat' first
    | with_reducible intro x
    | with_reducible assumption
    | with_reducible apply State.setBit_canonical
    | with_reducible apply State.inc_canonical
    | with_reducible apply State.when_canonical
    | with_reducible apply State.ev_canonical
    | with_reducible apply canonical_ite

theorem State.restoreUnit_canonical (s : State) (u : LoopUndo) (h_s : (s).canonical) :
    (State.restoreUnit s u).canonical := by
  unfold State.restoreUnit
  repeat' first
    | with_reducible assumption
    | with_reducible apply State.setWords_canonical
    | with_reducible apply State.setPm64_canonical
    | with_reducible apply State.inc_canonical
    | with_reducible apply State.setBit_canonical
    | split

theorem State.settleLoops_canonical (s : State) (pLoops pGens pGroups : List Nat) (h_s : (s).canonical) :
    (State.settleLoops s pLoops pGens pGroups).canonical := by
  unfold State.settleLoops
  repeat' first
    | with_reducible intro x
    | with_reducible assumption
    | with_reducible apply State.each_canonical
    | with_reducible apply State.restoreUnit_canonical
    | with_reducible apply State.setBit_canonical
    | with_reducible apply State.unitLate_canonical
    | with_reducible apply canonical_ite
    | (extract_lets +onlyGivenNames x; have hx : State.canonical x := ?_; clear_value x)
    | (extract_lets +onlyGivenNames x; clear_value x)
    | (simp only [↓State.canonical_mk]; with_reducible apply State.canonical_parts)

theorem State.loopFigures_canonical (s : State) (h_s : (s).canonical) :
    (State.loopFigures s).canonical := by
  unfold State.loopFigures
  repeat' first | with_reducible assumption | with_reducible apply State.setWord_canonical

theorem State.loadLoops_canonical (s : State) (ws : List (Nat × Nat × Nat × U32)) (whole : Bool) (h_s : (s).canonical) :
    (State.loadLoops s ws whole).canonical := by
  unfold State.loadLoops
  repeat' first
    | with_reducible intro x
    | with_reducible assumption
    | with_reducible apply State.keepWords_canonical
    | with_reducible apply State.each_canonical
    | with_reducible apply State.setWord_canonical
    | with_reducible apply State.loopFigures_canonical
    | with_reducible apply canonical_ite

theorem State.initLoop_canonical (s : State) (l : Nat) (h_s : (s).canonical) :
    (State.initLoop s l).canonical := by
  unfold State.initLoop
  repeat' first | with_reducible assumption | with_reducible apply State.setWords_canonical | with_reducible apply State.writeDest_canonical | with_reducible apply canonical_ite

theorem State.initGen_canonical (s : State) (g : Nat) (h_s : (s).canonical) :
    (State.initGen s g).canonical := by
  unfold State.initGen
  repeat' first | with_reducible assumption | with_reducible apply State.setWords_canonical

theorem State.startLoops_canonical (s : State) (h_s : (s).canonical) :
    (State.startLoops s).canonical := by
  unfold State.startLoops
  repeat' first
    | with_reducible intro x
    | with_reducible assumption
    | with_reducible apply State.each_canonical
    | with_reducible apply State.initGen_canonical
    | with_reducible apply State.initLoop_canonical
    | with_reducible apply State.writeDest_canonical
    | with_reducible apply State.setBit_canonical
    | (extract_lets +onlyGivenNames x; clear_value x)
    | (simp only [↓State.canonical_mk]; with_reducible apply State.canonical_parts)

theorem State.stopLoops_canonical (s : State) (h_s : (s).canonical) :
    (State.stopLoops s).canonical := by
  unfold State.stopLoops
  repeat' first | with_reducible assumption | with_reducible apply State.setBit_canonical

end Sys2Proof.Machine
end

