-- ==== Sys2Proof/Laws/CanonMaintOps.lean ====
section
/-!
SUPPORT. Every function of Machine/MaintOps.lean keeps the canonical form of State.
-/

set_option linter.all false

namespace Sys2Proof.Machine

theorem State.refuseConflict_canonical (s : State) (rq : Rq) (op cause a : Nat) (h_s : (s).canonical) :
    (State.refuseConflict s rq op cause a).canonical := by
  unfold State.refuseConflict
  repeat' first | with_reducible assumption | with_reducible apply State.incFld_canonical | with_reducible apply State.ev_canonical | with_reducible apply State.respond_canonical

theorem State.starting_canonical (s : State) (rq : Rq) (op new cause : Nat) (port : Option Nat) (f : State → State) (h_s : (s).canonical) (h_f : ∀ (y0 : State), (y0).canonical → (f y0).canonical) :
    (State.starting s rq op new cause port f).canonical := by
  unfold State.starting
  repeat' first | with_reducible assumption | with_reducible apply h_f | with_reducible apply State.refuseConflict_canonical | split

theorem State.maintRefresh_canonical (s : State) (h_s : (s).canonical) :
    (State.maintRefresh s).canonical := by
  unfold State.maintRefresh
  repeat' first
    | with_reducible intro x
    | with_reducible assumption
    | with_reducible apply State.each_canonical
    | with_reducible apply State.setBit_canonical
    | with_reducible apply State.setFld_canonical
    | with_reducible apply State.set64_canonical
    | with_reducible apply State.message_canonical
    | with_reducible apply canonical_ite
    | (extract_lets +onlyGivenNames x; clear_value x)
    | (simp only [↓State.canonical_mk]; with_reducible apply State.canonical_parts)

end Sys2Proof.Machine
end

