-- ==== Sys2Proof/Laws/CanonPairOps.lean ====
section
/-!
SUPPORT. Every function of Machine/PairOps.lean keeps the canonical form of State.
-/

set_option linter.all false

namespace Sys2Proof.Machine

theorem State.hearClaim_canonical (s : State) (c : U32) (h_s : (s).canonical) :
    (State.hearClaim s c).canonical := by
  unfold State.hearClaim
  repeat' first | with_reducible assumption | (extract_lets +onlyGivenNames x; clear_value x) | (simp only [↓State.canonical_mk]; with_reducible apply State.canonical_parts)

theorem State.takeClaim_canonical (s : State) (c : U32) (h_s : (s).canonical) :
    (State.takeClaim s c).canonical := by
  unfold State.takeClaim
  repeat' first | with_reducible assumption | (extract_lets +onlyGivenNames x; clear_value x) | (simp only [↓State.canonical_mk]; with_reducible apply State.canonical_parts)

theorem State.decideWithdraw_canonical (s : State) (cause : Nat) (h_s : (s).canonical) :
    (State.decideWithdraw s cause).canonical := by
  unfold State.decideWithdraw
  repeat' first
    | with_reducible assumption
    | with_reducible apply State.ev_canonical
    | with_reducible apply State.control_canonical
    | with_reducible apply canonical_ite
    | (extract_lets +onlyGivenNames x; clear_value x)
    | (simp only [↓State.canonical_mk]; with_reducible apply State.canonical_parts)
    | split

theorem State.checkDeposed_canonical (s : State) (c : U32) (h_s : (s).canonical) :
    (State.checkDeposed s c).canonical := by
  unfold State.checkDeposed
  repeat' first
    | with_reducible assumption
    | with_reducible apply State.setBit_canonical
    | with_reducible apply State.inc_canonical
    | with_reducible apply State.decideWithdraw_canonical
    | with_reducible apply canonical_ite

theorem State.leadHeard_canonical (s : State) (cutTick : Nat) (h_s : (s).canonical) :
    (State.leadHeard s cutTick).canonical := by
  unfold State.leadHeard
  repeat' first
    | with_reducible assumption
    | with_reducible apply State.setBit_canonical
    | with_reducible apply State.inc_canonical
    | with_reducible apply State.decideWithdraw_canonical
    | with_reducible apply canonical_ite

end Sys2Proof.Machine
end

