-- ==== Sys2Proof/Laws/CanonTrunkOps.lean ====
section
/-!
SUPPORT. Every function of Machine/TrunkOps.lean keeps the canonical form of State.
-/

set_option linter.all false

namespace Sys2Proof.Machine

theorem State.withSched_canonical (s : State) (p : Nat) (f : Sched → State) (h_s : (s).canonical) (h_f : ∀ (y0 : Sched), (f y0).canonical) :
    (State.withSched s p f).canonical := by
  unfold State.withSched
  repeat' first | with_reducible assumption | with_reducible apply h_f | split

theorem State.refreshReady_canonical (s : State) (p : Nat) (h_s : (s).canonical) :
    (State.refreshReady s p).canonical := by
  unfold State.refreshReady
  repeat' first | with_reducible assumption | with_reducible apply State.setBit_canonical

theorem State.countSnr_canonical (s : State) (p set snr : Nat) (h_s : (s).canonical) :
    (State.countSnr s p set snr).canonical := by
  unfold State.countSnr
  repeat' first
    | with_reducible intro x
    | with_reducible assumption
    | with_reducible apply State.setFld_canonical
    | with_reducible apply State.modPort_canonical
    | with_reducible apply State.setWord_canonical
    | with_reducible apply State.setBit_canonical
    | with_reducible apply State.when_canonical
    | with_reducible apply State.ev_canonical
    | with_reducible apply canonical_ite

theorem State.adapt_canonical (s : State) (p set : Nat) (words : List U32) (drift : Nat) (h_s : (s).canonical) :
    (State.adapt s p set words drift).canonical := by
  unfold State.adapt
  repeat' first
    | with_reducible intro x
    | with_reducible assumption
    | with_reducible apply State.setWords_canonical
    | with_reducible apply State.setFld_canonical
    | with_reducible apply State.setBit_canonical
    | with_reducible apply State.when_canonical
    | with_reducible apply State.ev_canonical

theorem State.trained_canonical (s : State) (p set origin snr : Nat) (h_s : (s).canonical) :
    (State.trained s p set origin snr).canonical := by
  unfold State.trained
  repeat' first
    | with_reducible assumption
    | with_reducible apply State.setWord_canonical
    | with_reducible apply State.setFld_canonical
    | with_reducible apply State.setBit_canonical
    | with_reducible apply canonical_ite

theorem State.eqFrame_canonical (s : State) (p set : Nat) (m : RxMeasure) (h_s : (s).canonical) :
    (State.eqFrame s p set m).canonical := by
  unfold State.eqFrame
  repeat' first
    | with_reducible assumption
    | with_reducible apply State.modPort_canonical
    | with_reducible apply State.setWords_canonical
    | with_reducible apply State.trained_canonical
    | with_reducible apply State.refreshReady_canonical
    | with_reducible apply State.adapt_canonical
    | with_reducible apply canonical_ite

theorem State.eqBad_canonical (s : State) (p set : Nat) (h_s : (s).canonical) :
    (State.eqBad s p set).canonical := by
  unfold State.eqBad
  repeat' first
    | with_reducible assumption
    | with_reducible apply State.incFld_canonical
    | with_reducible apply State.modPort_canonical
    | with_reducible apply State.setBit_canonical
    | with_reducible apply State.refreshReady_canonical
    | with_reducible apply canonical_ite

theorem State.launchBeacon_canonical (s : State) (p : Nat) (tail : Bool) (dev : Int) (h_s : (s).canonical) :
    (State.launchBeacon s p tail dev).canonical := by
  unfold State.launchBeacon
  repeat' first
    | with_reducible intro x
    | with_reducible assumption
    | with_reducible apply State.withSched_canonical
    | with_reducible apply State.modPort_canonical
    | with_reducible apply State.inc_canonical
    | with_reducible apply State.ev_canonical
    | with_reducible apply canonical_ite

theorem State.launchBcast_canonical (s : State) (p : Nat) (tail differs : Bool) (h_s : (s).canonical) :
    (State.launchBcast s p tail differs).canonical := by
  unfold State.launchBcast
  repeat' first
    | with_reducible intro x
    | with_reducible assumption
    | with_reducible apply State.withSched_canonical
    | with_reducible apply State.modPort_canonical
    | with_reducible apply State.setBit_canonical
    | with_reducible apply canonical_ite
    | (extract_lets +onlyGivenNames x; have hx : State.canonical x := ?_; clear_value x)
    | (extract_lets +onlyGivenNames x; clear_value x)
    | (simp only [↓State.canonical_mk]; with_reducible apply State.canonical_parts)

theorem State.keeperRequest_canonical (s : State) (p addr mcmd : Nat) (body : List Byte) (origin : KOrigin) (h_s : (s).canonical) :
    (State.keeperRequest s p addr mcmd body origin).canonical := by
  unfold State.keeperRequest
  repeat' first | with_reducible assumption | with_reducible apply State.modPort_canonical

theorem State.sendConfig_canonical (s : State) (p addr : Nat) (c : Sched) (origin : KOrigin) (h_s : (s).canonical) :
    (State.sendConfig s p addr c origin).canonical := by
  unfold State.sendConfig
  repeat' first | with_reducible intro x | with_reducible assumption | with_reducible apply State.each_canonical | with_reducible apply State.keeperRequest_canonical

theorem State.enterStranger_canonical (s : State) (p : Nat) (serial : U32) (vendor product level : Nat) (quar : Bool) (h_s : (s).canonical) :
    (State.enterStranger s p serial vendor product level quar).canonical := by
  unfold State.enterStranger
  repeat' first
    | with_reducible intro x
    | with_reducible assumption
    | with_reducible apply State.clearEntry_canonical
    | with_reducible apply State.setWord_canonical
    | with_reducible apply State.incFld_canonical
    | with_reducible apply State.setFld_canonical
    | with_reducible apply State.setBit_canonical
    | with_reducible apply State.when_canonical
    | with_reducible apply canonical_ite

theorem State.countStations_canonical (s : State) (p : Nat) (h_s : (s).canonical) :
    (State.countStations s p).canonical := by
  unfold State.countStations
  repeat' first | with_reducible assumption | with_reducible apply State.setWord_canonical

theorem State.declareDuplicate_canonical (s : State) (p addr : Nat) (serial : U32) (level : Nat) (h_s : (s).canonical) :
    (State.declareDuplicate s p addr serial level).canonical := by
  unfold State.declareDuplicate
  repeat' first
    | with_reducible assumption
    | with_reducible apply State.setBit_canonical
    | with_reducible apply State.enterStranger_canonical
    | with_reducible apply State.ev_canonical
    | with_reducible apply State.keeperRequest_canonical
    | with_reducible apply canonical_ite

end Sys2Proof.Machine
end

