-- ==== Sys2Proof/Laws/CanonPrgOps.lean ====
section
/-!
SUPPORT. Every function of Machine/PrgOps.lean keeps the canonical form of State.
-/

set_option linter.all false

namespace Sys2Proof.Machine

theorem State.modTask_canonical (s : State) (m : Nat) (f : TaskS → TaskS) (h_s : (s).canonical) :
    (State.modTask s m f).canonical := by
  unfold State.modTask
  repeat' first | with_reducible assumption | (extract_lets +onlyGivenNames x; have _ : ProgS := x; simp only [x]; clear x) | (simp only [↓State.canonical_mk, List.length_modify, List.length_set, List.length_map, List.length_replicate, List.length_zipIdx]; with_reducible apply State.canonical_parts)

theorem State.prgSums_canonical (s : State) (h_s : (s).canonical) :
    (State.prgSums s).canonical := by
  unfold State.prgSums
  repeat' first | with_reducible assumption | with_reducible apply State.setBit_canonical

theorem State.taskMiss_canonical (s : State) (m : Nat) (h_s : (s).canonical) :
    (State.taskMiss s m).canonical := by
  unfold State.taskMiss
  repeat' first
    | with_reducible intro x
    | with_reducible assumption
    | with_reducible apply State.setBit_canonical
    | with_reducible apply State.inc_canonical
    | with_reducible apply State.incFld_canonical
    | with_reducible apply State.prgSums_canonical
    | with_reducible apply State.when_canonical
    | with_reducible apply State.ev_canonical

theorem State.taskOnTime_canonical (s : State) (m : Nat) (h_s : (s).canonical) :
    (State.taskOnTime s m).canonical := by
  unfold State.taskOnTime
  repeat' first | with_reducible assumption | with_reducible apply State.setBit_canonical | with_reducible apply State.setFld_canonical | with_reducible apply State.prgSums_canonical

theorem State.suspend_canonical (s : State) (m : Nat) (v : Bool) (h_s : (s).canonical) :
    (State.suspend s m v).canonical := by
  unfold State.suspend
  repeat' first
    | with_reducible assumption
    | with_reducible apply State.modTask_canonical
    | with_reducible apply State.setBit_canonical
    | with_reducible apply State.prgSums_canonical
    | with_reducible apply State.ev_canonical
    | with_reducible apply State.gaugeAuto_canonical
    | with_reducible apply State.setFld_canonical
    | with_reducible apply canonical_ite

theorem State.suspendDue_canonical (s : State) (h_s : (s).canonical) :
    (State.suspendDue s).canonical := by
  unfold State.suspendDue
  repeat' first
    | with_reducible intro x
    | with_reducible assumption
    | with_reducible apply State.each_canonical
    | with_reducible apply State.suspend_canonical
    | with_reducible apply canonical_ite

theorem State.setChgPhase_canonical (s : State) (ph : Nat) (h_s : (s).canonical) :
    (State.setChgPhase s ph).canonical := by
  unfold State.setChgPhase
  repeat' first | with_reducible assumption | with_reducible apply State.setFld_canonical

theorem State.setTaskRow_canonical (s : State) (m : Nat) (row : List U32) (h_s : (s).canonical) :
    (State.setTaskRow s m row).canonical := by
  unfold State.setTaskRow
  repeat' first | with_reducible assumption | with_reducible apply State.setWords_canonical

theorem State.switchDone_canonical (s : State) (m k : Nat) (h_s : (s).canonical) :
    (State.switchDone s m k).canonical := by
  unfold State.switchDone
  repeat' first
    | with_reducible assumption
    | with_reducible apply State.setBit_canonical
    | with_reducible apply State.set64_canonical
    | with_reducible apply State.setFld_canonical
    | with_reducible apply State.gaugeRec_canonical
    | with_reducible apply State.setChgPhase_canonical
    | with_reducible apply State.ev_canonical
    | with_reducible apply canonical_ite
    | (extract_lets +onlyGivenNames x; clear_value x)
    | (simp only [↓State.canonical_mk]; with_reducible apply State.canonical_parts)

theorem State.switchTask_canonical (s : State) (m k : Nat) (h_s : (s).canonical) :
    (State.switchTask s m k).canonical := by
  unfold State.switchTask
  repeat' first
    | with_reducible assumption
    | with_reducible apply State.setTaskRow_canonical
    | with_reducible apply State.modTask_canonical
    | with_reducible apply State.switchDone_canonical
    | with_reducible apply canonical_ite

theorem State.migrateInst_canonical (s : State) (i : InstMove) (h_s : (s).canonical) :
    (State.migrateInst s i).canonical := by
  unfold State.migrateInst
  repeat' first
    | with_reducible intro x
    | with_reducible assumption
    | with_reducible apply State.each_canonical
    | with_reducible apply State.putMem_canonical
    | (extract_lets +onlyGivenNames x; have hx : State.canonical x := ?_; clear_value x)
    | (extract_lets +onlyGivenNames x; clear_value x)
    | split

theorem State.migrate_canonical (s : State) (m meas : Nat) (h_s : (s).canonical) :
    (State.migrate s m meas).canonical := by
  unfold State.migrate
  repeat' first
    | with_reducible intro x
    | with_reducible assumption
    | with_reducible apply State.each_canonical
    | with_reducible apply State.migrateInst_canonical
    | with_reducible apply State.modTask_canonical
    | with_reducible apply State.setFld_canonical
    | with_reducible apply State.maxWord_canonical

theorem State.releaseTask_canonical (s : State) (m k : Nat) (h_s : (s).canonical) :
    (State.releaseTask s m k).canonical := by
  unfold State.releaseTask
  repeat' first
    | with_reducible assumption
    | with_reducible apply State.switchTask_canonical
    | with_reducible apply State.modTask_canonical
    | with_reducible apply State.setBit_canonical
    | with_reducible apply State.taskMiss_canonical
    | with_reducible apply State.inc_canonical
    | with_reducible apply canonical_ite

theorem State.releases_canonical (s : State) (k : Nat) (published changed : List Nat) (h_s : (s).canonical) :
    (State.releases s k published changed).canonical := by
  unfold State.releases
  repeat' first
    | with_reducible intro x
    | with_reducible assumption
    | with_reducible apply State.each_canonical
    | with_reducible apply State.releaseTask_canonical
    | with_reducible apply canonical_ite
    | (simp only [x, ↓State.canonical_mk]; with_reducible apply State.canonical_parts)
    | (simp only [x]; split)

theorem State.fillEps_canonical (s : State) (h_s : (s).canonical) :
    (State.fillEps s).canonical := by
  unfold State.fillEps
  repeat' first
    | with_reducible intro x
    | with_reducible assumption
    | with_reducible apply State.each_canonical
    | with_reducible apply State.modTask_canonical
    | (simp only [x]; split)
    | (simp only [↓State.canonical_mk, List.length_modify, List.length_set, List.length_map, List.length_replicate, List.length_zipIdx]; with_reducible apply State.canonical_parts)
    | split

theorem State.agreeRuns_canonical (s : State) (agreedVec : Nat) (h_s : (s).canonical) :
    (State.agreeRuns s agreedVec).canonical := by
  unfold State.agreeRuns
  repeat' first
    | with_reducible intro x
    | with_reducible assumption
    | with_reducible apply State.each_canonical
    | with_reducible apply State.modTask_canonical
    | with_reducible apply State.setBit_canonical
    | with_reducible apply State.setPm64_canonical
    | with_reducible apply State.taskOnTime_canonical
    | with_reducible apply State.setWords_canonical
    | with_reducible apply State.switchDone_canonical
    | with_reducible apply canonical_ite
    | (simp only [x, ↓State.canonical_mk]; with_reducible apply State.canonical_parts)

theorem State.forceSums_canonical (s : State) (h_s : (s).canonical) :
    (State.forceSums s).canonical := by
  unfold State.forceSums
  repeat' first
    | with_reducible assumption
    | with_reducible apply State.setWord_canonical
    | with_reducible apply State.setBit_canonical
    | (extract_lets +onlyGivenNames x; have hx : State.canonical x := ?_; clear_value x)
    | (extract_lets +onlyGivenNames x; have _ : ProgS := x; simp only [x]; clear x)
    | (extract_lets +onlyGivenNames x; clear_value x)
    | (simp only [↓State.canonical_mk]; with_reducible apply State.canonical_parts)

theorem State.applyForces_canonical (s : State) (commit : Bool) (h_s : (s).canonical) :
    (State.applyForces s commit).canonical := by
  unfold State.applyForces
  repeat' first
    | with_reducible intro x
    | with_reducible assumption
    | with_reducible apply State.keepWords_canonical
    | with_reducible apply State.each_canonical
    | with_reducible apply State.setWord_canonical
    | with_reducible apply State.forceSums_canonical
    | with_reducible apply State.gaugeRec_canonical
    | with_reducible apply canonical_ite

theorem State.markForced_canonical (s : State) (off : Nat) (mask : U64) (h_s : (s).canonical) :
    (State.markForced s off mask).canonical := by
  unfold State.markForced
  repeat' first
    | with_reducible intro x
    | with_reducible assumption
    | with_reducible apply State.setPmByte_canonical
    | with_reducible apply State.when_canonical
    | with_reducible apply canonical_ite

theorem State.unforce_canonical (s : State) (h_s : (s).canonical) :
    (State.unforce s).canonical := by
  unfold State.unforce
  repeat' first
    | with_reducible intro x
    | with_reducible assumption
    | with_reducible apply State.each_canonical
    | with_reducible apply State.pmPut_canonical
    | with_reducible apply State.setPmByte_canonical
    | with_reducible apply canonical_ite
    | (extract_lets +onlyGivenNames x; have hx : State.canonical x := ?_; clear_value x)
    | (extract_lets +onlyGivenNames x; have _ : ProgS := x; simp only [x]; clear x)
    | (simp only [↓State.canonical_mk]; with_reducible apply State.canonical_parts)

theorem State.forceInputs_canonical (s : State) (h_s : (s).canonical) :
    (State.forceInputs s).canonical := by
  unfold State.forceInputs
  repeat' first
    | with_reducible intro x
    | with_reducible assumption
    | with_reducible apply State.each_canonical
    | with_reducible apply State.setPm64_canonical
    | with_reducible apply State.markForced_canonical
    | (simp only [x, ↓State.canonical_mk]; with_reducible apply State.canonical_parts)

theorem State.raiseOrphans_canonical (s : State) (h_s : (s).canonical) :
    (State.raiseOrphans s).canonical := by
  unfold State.raiseOrphans
  repeat' first | with_reducible assumption | with_reducible apply canonical_ite | (extract_lets +onlyGivenNames x; clear_value x) | (simp only [↓State.canonical_mk]; with_reducible apply State.canonical_parts)

theorem State.holdOrphans_canonical (s : State) (h_s : (s).canonical) :
    (State.holdOrphans s).canonical := by
  unfold State.holdOrphans
  repeat' first
    | with_reducible intro x
    | with_reducible assumption
    | with_reducible apply State.raiseOrphans_canonical
    | with_reducible apply State.each_canonical
    | with_reducible apply State.setPm64_canonical

theorem State.cutTrunk_canonical (s : State) (p k : Nat) (h_s : (s).canonical) :
    (State.cutTrunk s p k).canonical := by
  unfold State.cutTrunk
  repeat' first
    | with_reducible intro x
    | with_reducible assumption
    | with_reducible apply State.withSched_canonical
    | with_reducible apply State.each_canonical
    | with_reducible apply State.setPmByte_canonical
    | with_reducible apply State.setBit_canonical
    | with_reducible apply State.when_canonical
    | with_reducible apply State.inc_canonical
    | with_reducible apply State.ev_canonical
    | with_reducible apply State.pmPut_canonical
    | with_reducible apply State.modPort_canonical

theorem State.cutLocal_canonical (s : State) (h_s : (s).canonical) :
    (State.cutLocal s).canonical := by
  unfold State.cutLocal
  repeat' first | with_reducible assumption | (extract_lets +onlyGivenNames x; have _ : ProgS := x; simp only [x]; clear x) | (extract_lets +onlyGivenNames x; clear_value x) | (simp only [↓State.canonical_mk]; with_reducible apply State.canonical_parts)

theorem State.txqSubmit_canonical (s : State) (p e : Nat) (ws : List U32) (h_s : (s).canonical) :
    (State.txqSubmit s p e ws).canonical := by
  unfold State.txqSubmit
  repeat' first
    | with_reducible assumption
    | with_reducible apply State.inc_canonical
    | with_reducible apply State.setWord_canonical
    | with_reducible apply State.setWords_canonical
    | with_reducible apply State.modPort_canonical
    | with_reducible apply State.setFld_canonical
    | with_reducible apply canonical_ite

theorem State.rxqAck_canonical (s : State) (p e : Nat) (h_s : (s).canonical) :
    (State.rxqAck s p e).canonical := by
  unfold State.rxqAck
  repeat' first | with_reducible assumption | with_reducible apply State.setBit_canonical

theorem State.txqFree_canonical (s : State) (p e : Nat) (h_s : (s).canonical) :
    (State.txqFree s p e).canonical := by
  unfold State.txqFree
  repeat' first | with_reducible assumption | with_reducible apply State.setFld_canonical | with_reducible apply canonical_ite

theorem State.commitEffects_canonical (s : State) (h_s : (s).canonical) :
    (State.commitEffects s).canonical := by
  unfold State.commitEffects
  repeat' first
    | with_reducible intro x
    | with_reducible assumption
    | with_reducible apply State.each_canonical
    | with_reducible apply State.putCells_canonical
    | with_reducible apply State.rxqAck_canonical
    | with_reducible apply State.txqFree_canonical
    | with_reducible apply State.txqSubmit_canonical
    | with_reducible apply State.modTask_canonical
    | (simp only [x, ↓State.canonical_mk]; with_reducible apply State.canonical_parts)
    | (simp only [x]; split)

theorem State.idleEps_canonical (s : State) (h_s : (s).canonical) :
    (State.idleEps s).canonical := by
  unfold State.idleEps
  repeat' first | (extract_lets +onlyGivenNames x; have _ : ProgS := x; simp only [x]; clear x) | (simp only [↓State.canonical_mk, List.length_modify, List.length_set, List.length_map, List.length_replicate, List.length_zipIdx, true_and, and_true]; have h := State.canonical_parts ‹_›; simp only [h, and_self])

theorem State.setPackage_canonical (s : State) (k : Package) (h_s : (s).canonical) :
    (State.setPackage s k).canonical := by
  unfold State.setPackage
  repeat' first | with_reducible assumption | (extract_lets +onlyGivenNames x; have _ : ProgS := x; simp only [x]; clear x) | (simp only [↓State.canonical_mk]; with_reducible apply State.canonical_parts)

theorem State.loadTasks_canonical (s : State) (k : Package) (h_s : (s).canonical) :
    (State.loadTasks s k).canonical := by
  unfold State.loadTasks
  repeat' first
    | with_reducible intro x
    | with_reducible assumption
    | with_reducible apply State.each_canonical
    | with_reducible apply State.setTaskRow_canonical
    | with_reducible apply State.loadLoops_canonical
    | with_reducible apply State.setFld_canonical
    | with_reducible apply State.setWord_canonical
    | with_reducible apply State.setPackage_canonical
    | with_reducible apply State.guardLoad_canonical

theorem State.freshTasks_canonical (s : State) (h_s : (s).canonical) :
    (State.freshTasks s).canonical := by
  unfold State.freshTasks
  apply State.setWord_canonical
  apply State.each_canonical
  · exact State.canonical_prog h_s rfl rfl
  · exact fun s m hs => State.setFld_canonical _ _ _ _ _ hs

theorem State.drawSeed_canonical (s : State) (h_s : (s).canonical) :
    (State.drawSeed s).canonical := by
  unfold State.drawSeed
  repeat' first
    | with_reducible assumption
    | with_reducible apply State.drawBytes_canonical
    | with_reducible apply State.gaugeRec_canonical
    | (extract_lets +onlyGivenNames x; have hx : State.canonical x := ?_; clear_value x)
    | (extract_lets +onlyGivenNames x; have _ : ProgS := x; simp only [x]; clear x)
    | (simp only [↓State.canonical_mk]; with_reducible apply State.canonical_parts)

theorem State.startProgram_canonical (s : State) (h_s : (s).canonical) :
    (State.startProgram s).canonical := by
  unfold State.startProgram
  repeat' first
    | with_reducible intro x
    | with_reducible assumption
    | with_reducible apply State.loadTasks_canonical
    | with_reducible apply State.keepDram_canonical
    | with_reducible apply State.putCells_canonical
    | with_reducible apply State.applyForces_canonical
    | with_reducible apply State.when_canonical
    | with_reducible apply State.setBit_canonical
    | with_reducible apply State.ev_canonical
    | with_reducible apply State.drawSeed_canonical
    | with_reducible apply State.freshTasks_canonical
    | with_reducible apply State.clearPm_canonical
    | with_reducible apply State.startLoops_canonical
    | with_reducible apply canonical_ite
    | (simp only [x]; split)
    | (extract_lets +onlyGivenNames x; have hx : State.canonical x := ?_; clear_value x)
    | (extract_lets +onlyGivenNames x; have _ : ProgS := x; simp only [x]; clear x)
    | (extract_lets +onlyGivenNames x; clear_value x)
    | (simp only [↓State.canonical_mk]; with_reducible apply State.canonical_parts)
    | split

theorem State.stopProgram_canonical (s : State) (h_s : (s).canonical) :
    (State.stopProgram s).canonical := by
  unfold State.stopProgram
  repeat' first
    | with_reducible assumption
    | with_reducible apply State.stopLoops_canonical
    | with_reducible apply State.setBit_canonical
    | with_reducible apply State.prgSums_canonical
    | with_reducible apply State.freshTasks_canonical
    | with_reducible apply State.gaugeStop_canonical
    | with_reducible apply canonical_ite
    | (extract_lets +onlyGivenNames x; have hx : State.canonical x := ?_; clear_value x)
    | (extract_lets +onlyGivenNames x; have _ : ProgS := x; simp only [x]; clear x)
    | (simp only [↓State.canonical_mk]; with_reducible apply State.canonical_parts)

end Sys2Proof.Machine
end

