-- ==== Sys2Proof/Laws/CanonProgram.lean ====
section
/-!
SUPPORT. Every function of Machine/Program.lean keeps the canonical form of State.
-/

set_option linter.all false

namespace Sys2Proof.Machine

theorem execProgramWindowOpen_canonical (meas : List (Nat × Nat)) (s : State) (h_s : (s).canonical) :
    Res.canonical (execProgramWindowOpen meas s) := by
  unfold execProgramWindowOpen
  repeat' first
    | with_reducible intro x
    | with_reducible assumption
    | with_reducible apply State.each_canonical
    | with_reducible apply State.migrate_canonical
    | with_reducible apply State.fillEps_canonical
    | with_reducible apply State.idleEps_canonical
    | with_reducible apply canonical_ite
    | with_reducible apply Res.canonical_next

theorem State.finishRun_canonical (s : State) (m : Nat) (eff : RunEffects) (h_s : (s).canonical) :
    (State.finishRun s m eff).canonical := by
  unfold State.finishRun
  repeat' first
    | with_reducible assumption
    | with_reducible apply State.putCells_canonical
    | with_reducible apply State.modTask_canonical
    | with_reducible apply State.setBit_canonical
    | with_reducible apply State.setFld_canonical
    | with_reducible apply canonical_ite
    | (extract_lets +onlyGivenNames x; have hx : State.canonical x := ?_; clear_value x)
    | (extract_lets +onlyGivenNames x; have _ : ProgS := x; simp only [x]; clear x)
    | (extract_lets +onlyGivenNames x; clear_value x)
    | (simp only [↓State.canonical_mk]; with_reducible apply State.canonical_parts)

theorem execRunFinish_canonical (m : Fin 32) (eff : RunEffects) (s : State) (h_s : (s).canonical) :
    Res.canonical (execRunFinish m eff s) := by
  unfold execRunFinish
  repeat' first
    | with_reducible assumption
    | with_reducible apply State.finishRun_canonical
    | with_reducible apply State.fillEps_canonical
    | with_reducible apply canonical_ite
    | with_reducible apply Res.canonical_next
    | (extract_lets +onlyGivenNames x; have _ : ProgS := x; simp only [x]; clear x)
    | (simp only [↓State.canonical_mk, List.length_modify, List.length_set, List.length_map, List.length_replicate, List.length_zipIdx]; with_reducible apply State.canonical_parts)

theorem State.call_canonical (s : State) (m : Nat) (f : State → Nat → State) (h_s : (s).canonical) (h_f : ∀ (y0 : State) (y1 : Nat), (y0).canonical → (f y0 y1).canonical) :
    (State.call s m f).canonical := by
  unfold State.call
  repeat' first | with_reducible assumption | with_reducible apply h_f | with_reducible apply canonical_ite | split

theorem State.answer_canonical (s : State) (r : List U64) (h_s : (s).canonical) :
    (State.answer s r).canonical := by
  unfold State.answer
  repeat' first | with_reducible assumption | (extract_lets +onlyGivenNames x; have _ : ProgS := x; simp only [x]; clear x) | (simp only [↓State.canonical_mk]; with_reducible apply State.canonical_parts)

theorem State.leave_canonical (s : State) (m : Nat) (e : RunEffects → RunEffects) (h_s : (s).canonical) :
    (State.leave s m e).canonical := by
  unfold State.leave
  repeat' first | with_reducible assumption | with_reducible apply State.modTask_canonical

theorem State.memPut_canonical (s : State) (a n v : Nat) (h_s : (s).canonical) :
    (State.memPut s a n v).canonical := by
  unfold State.memPut
  repeat' first | with_reducible intro x | with_reducible assumption | with_reducible apply State.each_canonical | with_reducible apply State.putMem_canonical

theorem State.putTimer_canonical (s : State) (a kind pt : Nat) (i : Bool) (t : Timer) (h_s : (s).canonical) :
    (State.putTimer s a kind pt i t).canonical := by
  unfold State.putTimer
  repeat' first | with_reducible assumption | with_reducible apply State.memPut_canonical

theorem State.callTimer_canonical (s : State) (m a kind pt : Nat) (i : Bool) (f : Timer → Nat → Nat → Bool → Timer) (h_s : (s).canonical) :
    (State.callTimer s m a kind pt i f).canonical := by
  unfold State.callTimer
  repeat' first
    | with_reducible intro x
    | with_reducible assumption
    | with_reducible apply State.call_canonical
    | with_reducible apply State.putTimer_canonical
    | with_reducible apply State.answer_canonical

theorem execTon_canonical (m : Fin 32) (addr : Nat) (input : Bool) (pt : U64) (s : State) (h_s : (s).canonical) :
    Res.canonical (execTon m addr input pt s) := by
  unfold execTon
  repeat' first | with_reducible assumption | with_reducible apply State.callTimer_canonical | with_reducible apply Res.canonical_next

theorem execTof_canonical (m : Fin 32) (addr : Nat) (input : Bool) (pt : U64) (s : State) (h_s : (s).canonical) :
    Res.canonical (execTof m addr input pt s) := by
  unfold execTof
  repeat' first | with_reducible assumption | with_reducible apply State.callTimer_canonical | with_reducible apply Res.canonical_next

theorem execTp_canonical (m : Fin 32) (addr : Nat) (input : Bool) (pt : U64) (s : State) (h_s : (s).canonical) :
    Res.canonical (execTp m addr input pt s) := by
  unfold execTp
  repeat' first | with_reducible assumption | with_reducible apply State.callTimer_canonical | with_reducible apply Res.canonical_next

theorem State.callCounter_canonical (s : State) (m a kind : Nat) (cu cd r ld : Bool) (pv : U32) (h_s : (s).canonical) :
    (State.callCounter s m a kind cu cd r ld pv).canonical := by
  unfold State.callCounter
  repeat' first
    | with_reducible intro x
    | with_reducible assumption
    | with_reducible apply State.call_canonical
    | with_reducible apply State.memPut_canonical
    | with_reducible apply State.answer_canonical

theorem execCtu_canonical (m : Fin 32) (addr : Nat) (cu r : Bool) (pv : U32) (s : State) (h_s : (s).canonical) :
    Res.canonical (execCtu m addr cu r pv s) := by
  unfold execCtu
  repeat' first | with_reducible assumption | with_reducible apply State.callCounter_canonical | with_reducible apply Res.canonical_next

theorem execCtd_canonical (m : Fin 32) (addr : Nat) (cd ld : Bool) (pv : U32) (s : State) (h_s : (s).canonical) :
    Res.canonical (execCtd m addr cd ld pv s) := by
  unfold execCtd
  repeat' first | with_reducible assumption | with_reducible apply State.callCounter_canonical | with_reducible apply Res.canonical_next

theorem execCtud_canonical (m : Fin 32) (addr : Nat) (cu cd r ld : Bool) (pv : U32) (s : State) (h_s : (s).canonical) :
    Res.canonical (execCtud m addr cu cd r ld pv s) := by
  unfold execCtud
  repeat' first | with_reducible assumption | with_reducible apply State.callCounter_canonical | with_reducible apply Res.canonical_next

theorem State.callEdge_canonical (s : State) (m a kind : Nat) (clk : Bool) (edge : Bool → Bool) (h_s : (s).canonical) :
    (State.callEdge s m a kind clk edge).canonical := by
  unfold State.callEdge
  repeat' first
    | with_reducible intro x
    | with_reducible assumption
    | with_reducible apply State.call_canonical
    | with_reducible apply State.memPut_canonical
    | with_reducible apply State.answer_canonical

theorem execRTrig_canonical (m : Fin 32) (addr : Nat) (clk : Bool) (s : State) (h_s : (s).canonical) :
    Res.canonical (execRTrig m addr clk s) := by
  unfold execRTrig
  repeat' first | with_reducible assumption | with_reducible apply State.callEdge_canonical | with_reducible apply Res.canonical_next

theorem execFTrig_canonical (m : Fin 32) (addr : Nat) (clk : Bool) (s : State) (h_s : (s).canonical) :
    Res.canonical (execFTrig m addr clk s) := by
  unfold execFTrig
  repeat' first | with_reducible assumption | with_reducible apply State.callEdge_canonical | with_reducible apply Res.canonical_next

theorem execSbTime_canonical (m : Fin 32) (s : State) (h_s : (s).canonical) :
    Res.canonical (execSbTime m s) := by
  unfold execSbTime
  repeat' first
    | with_reducible intro x
    | with_reducible assumption
    | with_reducible apply State.call_canonical
    | with_reducible apply State.answer_canonical
    | with_reducible apply Res.canonical_next

theorem execSbTaskInfo_canonical (m : Fin 32) (s : State) (h_s : (s).canonical) :
    Res.canonical (execSbTaskInfo m s) := by
  unfold execSbTaskInfo
  repeat' first
    | with_reducible intro x
    | with_reducible assumption
    | with_reducible apply State.call_canonical
    | with_reducible apply State.answer_canonical
    | with_reducible apply Res.canonical_next

theorem execSbStationState_canonical (m : Fin 32) (p : Fin 16) (addr : U8) (s : State) (h_s : (s).canonical) :
    Res.canonical (execSbStationState m p addr s) := by
  unfold execSbStationState
  repeat' first
    | with_reducible intro x
    | with_reducible assumption
    | with_reducible apply State.call_canonical
    | with_reducible apply State.answer_canonical
    | with_reducible apply canonical_ite
    | with_reducible apply Res.canonical_next

theorem execSbRxqGet_canonical (m : Fin 32) (p : Fin 16) (e : Fin 64) (s : State) (h_s : (s).canonical) :
    Res.canonical (execSbRxqGet m p e s) := by
  unfold execSbRxqGet
  repeat' first
    | with_reducible intro x
    | with_reducible assumption
    | with_reducible apply State.call_canonical
    | with_reducible apply State.answer_canonical
    | with_reducible apply Res.canonical_next

theorem execSbRxqAck_canonical (m : Fin 32) (p : Fin 16) (e : Fin 64) (s : State) (h_s : (s).canonical) :
    Res.canonical (execSbRxqAck m p e s) := by
  unfold execSbRxqAck
  repeat' first
    | with_reducible intro x
    | with_reducible assumption
    | with_reducible apply State.call_canonical
    | with_reducible apply State.leave_canonical
    | with_reducible apply Res.canonical_next

theorem execSbTxqSubmit_canonical (m : Fin 32) (p e : Fin 16) (words : List U32) (s : State) (h_s : (s).canonical) :
    Res.canonical (execSbTxqSubmit m p e words s) := by
  unfold execSbTxqSubmit
  repeat' first
    | with_reducible intro x
    | with_reducible assumption
    | with_reducible apply State.call_canonical
    | with_reducible apply State.leave_canonical
    | with_reducible apply Res.canonical_next

theorem execSbTxqGet_canonical (m : Fin 32) (p e : Fin 16) (free : Bool) (s : State) (h_s : (s).canonical) :
    Res.canonical (execSbTxqGet m p e free s) := by
  unfold execSbTxqGet
  repeat' first
    | with_reducible intro x
    | with_reducible assumption
    | with_reducible apply State.call_canonical
    | with_reducible apply State.answer_canonical
    | with_reducible apply State.leave_canonical
    | with_reducible apply canonical_ite
    | with_reducible apply Res.canonical_next

theorem execSbMbxRecv_canonical (m : Fin 32) (slot : Fin 16) (s : State) (h_s : (s).canonical) :
    Res.canonical (execSbMbxRecv m slot s) := by
  unfold execSbMbxRecv
  repeat' first
    | with_reducible intro x
    | with_reducible assumption
    | with_reducible apply State.call_canonical
    | with_reducible apply State.answer_canonical
    | with_reducible apply State.leave_canonical
    | with_reducible apply Res.canonical_next
    | (simp only [x]; split)

theorem execSbMbxSend_canonical (m : Fin 32) (msg : List Byte) (s : State) (h_s : (s).canonical) :
    Res.canonical (execSbMbxSend m msg s) := by
  unfold execSbMbxSend
  repeat' first
    | with_reducible intro x
    | with_reducible assumption
    | with_reducible apply State.call_canonical
    | with_reducible apply State.leave_canonical
    | with_reducible apply Res.canonical_next

theorem execSbRand_canonical (m : Fin 32) (s : State) (h_s : (s).canonical) :
    Res.canonical (execSbRand m s) := by
  unfold execSbRand
  repeat' first
    | with_reducible intro x
    | with_reducible assumption
    | with_reducible apply State.call_canonical
    | with_reducible apply State.answer_canonical
    | with_reducible apply State.modTask_canonical
    | with_reducible apply Res.canonical_next

theorem execRetainSave_canonical (s : State) (h_s : (s).canonical) :
    Res.canonical (execRetainSave s) := by
  unfold execRetainSave
  repeat' first
    | with_reducible assumption
    | with_reducible apply State.inc_canonical
    | with_reducible apply canonical_ite
    | with_reducible apply Res.canonical_next
    | (extract_lets +onlyGivenNames x; have _ : ProgS := x; simp only [x]; clear x)
    | (extract_lets +onlyGivenNames x; clear_value x)
    | (simp only [↓State.canonical_mk]; with_reducible apply State.canonical_parts)
    | split

theorem execRetainSaveDone_canonical (s : State) (h_s : (s).canonical) :
    Res.canonical (execRetainSaveDone s) := by
  unfold execRetainSaveDone
  repeat' first
    | with_reducible assumption
    | with_reducible apply State.setBit_canonical
    | with_reducible apply Res.canonical_next
    | (extract_lets +onlyGivenNames x; have hx : State.canonical x := ?_; clear_value x)
    | (extract_lets +onlyGivenNames x; have _ : ProgS := x; simp only [x]; clear x)
    | (simp only [↓State.canonical_mk]; with_reducible apply State.canonical_parts)
    | split

theorem State.stageAction_canonical (s : State) (rq : Rq) (op arg eff : Nat) (item : StagedItem) (body : List Byte) (h_s : (s).canonical) :
    (State.stageAction s rq op arg eff item body).canonical := by
  unfold State.stageAction
  repeat' first
    | with_reducible assumption
    | with_reducible apply State.message_canonical
    | with_reducible apply State.control_canonical
    | with_reducible apply canonical_ite
    | (extract_lets +onlyGivenNames x; have _ : KprS := x; simp only [x]; clear x)
    | (simp only [↓State.canonical_mk]; with_reducible apply State.canonical_parts)

theorem State.forceCmd_canonical (s : State) (rq : Rq) (op arg : Nat) (commit : Bool) (h_s : (s).canonical) :
    (State.forceCmd s rq op arg commit).canonical := by
  unfold State.forceCmd
  repeat' first
    | with_reducible intro x
    | with_reducible assumption
    | with_reducible apply State.cmd_canonical
    | with_reducible apply State.relay_canonical
    | with_reducible apply State.starting_canonical
    | with_reducible apply State.stageAction_canonical
    | with_reducible apply canonical_ite

theorem execPrgForceCommit_canonical (rq : Rq) (s : State) (h_s : (s).canonical) :
    Res.canonical (execPrgForceCommit rq s) := by
  unfold execPrgForceCommit
  repeat' first | with_reducible assumption | with_reducible apply State.forceCmd_canonical | with_reducible apply Res.canonical_next

theorem execPrgForceClear_canonical (rq : Rq) (s : State) (h_s : (s).canonical) :
    Res.canonical (execPrgForceClear rq s) := by
  unfold execPrgForceClear
  repeat' first | with_reducible assumption | with_reducible apply State.forceCmd_canonical | with_reducible apply Res.canonical_next

theorem State.forceEffect_canonical (s : State) (k : Nat) (h_s : (s).canonical) :
    (State.forceEffect s k).canonical := by
  unfold State.forceEffect
  repeat' first
    | with_reducible intro x
    | with_reducible assumption
    | with_reducible apply State.each_canonical
    | with_reducible apply State.applyForces_canonical
    | with_reducible apply State.respond_canonical
    | with_reducible apply State.when_canonical
    | with_reducible apply State.forceInputs_canonical
    | with_reducible apply State.unforce_canonical
    | (simp only [x]; split)
    | (extract_lets +onlyGivenNames x; have _ : KprS := x; simp only [x]; clear x)
    | (simp only [↓State.canonical_mk]; with_reducible apply State.canonical_parts)
    | split

theorem execForceEffect_canonical (s : State) (h_s : (s).canonical) :
    Res.canonical (execForceEffect s) := by
  unfold execForceEffect
  repeat' first | with_reducible assumption | with_reducible apply State.forceEffect_canonical | with_reducible apply Res.canonical_next

theorem execPrgTaskResume_canonical (rq : Rq) (task : U8) (s : State) (h_s : (s).canonical) :
    Res.canonical (execPrgTaskResume rq task s) := by
  unfold execPrgTaskResume
  repeat' first
    | with_reducible intro x
    | with_reducible assumption
    | with_reducible apply State.cmd_canonical
    | with_reducible apply State.relay_canonical
    | with_reducible apply State.respond_canonical
    | with_reducible apply State.stageAction_canonical
    | with_reducible apply canonical_ite
    | with_reducible apply Res.canonical_next

theorem execPrgMsgSend_canonical (rq : Rq) (msg : List Byte) (s : State) (h_s : (s).canonical) :
    Res.canonical (execPrgMsgSend rq msg s) := by
  unfold execPrgMsgSend
  repeat' first
    | with_reducible intro x
    | with_reducible assumption
    | with_reducible apply State.cmd_canonical
    | with_reducible apply State.respond_canonical
    | with_reducible apply State.relay_canonical
    | with_reducible apply State.message_canonical
    | with_reducible apply State.control_canonical
    | with_reducible apply canonical_ite
    | with_reducible apply Res.canonical_next
    | (simp only [x, ↓State.canonical_mk]; with_reducible apply State.canonical_parts)

theorem execPrgMsgOut_canonical (s : State) (h_s : (s).canonical) :
    Res.canonical (execPrgMsgOut s) := by
  unfold execPrgMsgOut
  repeat' first
    | with_reducible assumption
    | with_reducible apply State.unsolicited_canonical
    | with_reducible apply canonical_ite
    | with_reducible apply Res.canonical_next
    | (extract_lets +onlyGivenNames x; have _ : ProgS := x; simp only [x]; clear x)
    | (extract_lets +onlyGivenNames x; clear_value x)
    | (simp only [↓State.canonical_mk]; with_reducible apply State.canonical_parts)
    | split

end Sys2Proof.Machine
end

