-- ==== Sys2Proof/Laws/CanonChange.lean ====
section
/-!
SUPPORT. Every function of Machine/Change.lean keeps the canonical form of State.
-/

set_option linter.all false

namespace Sys2Proof.Machine

theorem execLoopWindow_canonical (loops gens groups : List Nat) (ns : Nat) (s : State) (h_s : (s).canonical) :
    Res.canonical (execLoopWindow loops gens groups ns s) := by
  unfold execLoopWindow
  repeat' first
    | with_reducible assumption
    | with_reducible apply State.loopWindow_canonical
    | with_reducible apply State.maxWord_canonical
    | with_reducible apply canonical_ite
    | with_reducible apply Res.canonical_next

theorem State.chgRefuse_canonical (s : State) (cause : Nat) (h_s : (s).canonical) :
    (State.chgRefuse s cause).canonical := by
  unfold State.chgRefuse
  repeat' first | with_reducible assumption | with_reducible apply State.setFld_canonical | with_reducible apply State.setBit_canonical

theorem State.stagedNow_canonical (s : State) (h_s : (s).canonical) :
    (State.stagedNow s).canonical := by
  unfold State.stagedNow
  repeat' first | with_reducible assumption | with_reducible apply State.setChgPhase_canonical | with_reducible apply State.setBit_canonical | with_reducible apply State.finish_canonical

theorem State.dropPackage_canonical (s : State) (h_s : (s).canonical) :
    (State.dropPackage s).canonical := by
  unfold State.dropPackage
  repeat' first
    | with_reducible assumption
    | with_reducible apply State.setChgPhase_canonical
    | with_reducible apply State.setBit_canonical
    | (extract_lets +onlyGivenNames x; have hx : State.canonical x := ?_; clear_value x)
    | (extract_lets +onlyGivenNames x; clear_value x)
    | (simp only [↓State.canonical_mk]; with_reducible apply State.canonical_parts)

theorem execPrgChangeStage_canonical (rq : Rq) (obj : List Byte) (pkg : Package) (signed : Bool) (s : State) (h_s : (s).canonical) :
    Res.canonical (execPrgChangeStage rq obj pkg signed s) := by
  unfold execPrgChangeStage
  repeat' first
    | with_reducible intro x
    | with_reducible assumption
    | with_reducible apply State.cmd_canonical
    | with_reducible apply State.chgRefuse_canonical
    | with_reducible apply State.refuseConflict_canonical
    | with_reducible apply State.respond_canonical
    | with_reducible apply State.bg_canonical
    | with_reducible apply State.setChgPhase_canonical
    | with_reducible apply State.message_canonical
    | with_reducible apply State.stagedNow_canonical
    | with_reducible apply canonical_ite
    | with_reducible apply Res.canonical_next
    | (simp only [x, ↓State.canonical_mk]; with_reducible apply State.canonical_parts)
    | (simp only [x]; split)

theorem execPrgChangeDiscard_canonical (rq : Rq) (s : State) (h_s : (s).canonical) :
    Res.canonical (execPrgChangeDiscard rq s) := by
  unfold execPrgChangeDiscard
  repeat' first
    | with_reducible intro x
    | with_reducible assumption
    | with_reducible apply State.cmd_canonical
    | with_reducible apply State.relay_canonical
    | with_reducible apply State.respond_canonical
    | with_reducible apply State.when_canonical
    | with_reducible apply State.message_canonical
    | with_reducible apply State.finish_canonical
    | with_reducible apply State.dropPackage_canonical
    | with_reducible apply canonical_ite
    | with_reducible apply Res.canonical_next

theorem execPrgChangeCommit_canonical (rq : Rq) (tick : Nat) (s : State) (h_s : (s).canonical) :
    Res.canonical (execPrgChangeCommit rq tick s) := by
  unfold execPrgChangeCommit
  repeat' first
    | with_reducible intro x
    | with_reducible assumption
    | with_reducible apply State.cmd_canonical
    | with_reducible apply State.chgRefuse_canonical
    | with_reducible apply State.refuseConflict_canonical
    | with_reducible apply State.respond_canonical
    | with_reducible apply State.bg_canonical
    | with_reducible apply State.drawBytes_canonical
    | with_reducible apply State.setBit_canonical
    | with_reducible apply State.set64_canonical
    | with_reducible apply State.message_canonical
    | with_reducible apply State.control_canonical
    | with_reducible apply State.setChgPhase_canonical
    | with_reducible apply canonical_ite
    | with_reducible apply Res.canonical_next
    | (simp only [x, ↓State.canonical_mk]; with_reducible apply State.canonical_parts)

theorem State.abandonCommit_canonical (s : State) (status detail : Nat) (h_s : (s).canonical) :
    (State.abandonCommit s status detail).canonical := by
  unfold State.abandonCommit
  repeat' first
    | with_reducible assumption
    | with_reducible apply State.setChgPhase_canonical
    | with_reducible apply State.setBit_canonical
    | with_reducible apply State.finish_canonical
    | with_reducible apply State.ev_canonical
    | with_reducible apply canonical_ite
    | (extract_lets +onlyGivenNames x; clear_value x)
    | (simp only [↓State.canonical_mk]; with_reducible apply State.canonical_parts)

theorem execChgPropose_canonical (c : Nat) (hash seed : List Byte) (s : State) (h_s : (s).canonical) :
    Res.canonical (execChgPropose c hash seed s) := by
  unfold execChgPropose
  repeat' first
    | with_reducible assumption
    | with_reducible apply State.chgRefuse_canonical
    | with_reducible apply State.control_canonical
    | with_reducible apply State.ev_canonical
    | with_reducible apply State.setChgPhase_canonical
    | with_reducible apply State.set64_canonical
    | with_reducible apply canonical_ite
    | with_reducible apply Res.canonical_next
    | (extract_lets +onlyGivenNames x; clear_value x)
    | (simp only [↓State.canonical_mk]; with_reducible apply State.canonical_parts)

theorem execChgAck_canonical (c : Nat) (s : State) (h_s : (s).canonical) :
    Res.canonical (execChgAck c s) := by
  unfold execChgAck
  repeat' first
    | with_reducible assumption
    | with_reducible apply State.setChgPhase_canonical
    | with_reducible apply State.control_canonical
    | with_reducible apply canonical_ite
    | with_reducible apply Res.canonical_next
    | (extract_lets +onlyGivenNames x; have hx : State.canonical x := ?_; clear_value x)
    | (extract_lets +onlyGivenNames x; clear_value x)
    | (simp only [↓State.canonical_mk]; with_reducible apply State.canonical_parts)

theorem execChgNak_canonical (c cause : Nat) (s : State) (h_s : (s).canonical) :
    Res.canonical (execChgNak c cause s) := by
  unfold execChgNak
  repeat' first
    | with_reducible assumption
    | with_reducible apply State.chgRefuse_canonical
    | with_reducible apply State.ev_canonical
    | with_reducible apply State.abandonCommit_canonical
    | with_reducible apply canonical_ite
    | with_reducible apply Res.canonical_next

theorem execChgConfirm_canonical (c : Nat) (s : State) (h_s : (s).canonical) :
    Res.canonical (execChgConfirm c s) := by
  unfold execChgConfirm
  repeat' first
    | with_reducible assumption
    | with_reducible apply State.setChgPhase_canonical
    | with_reducible apply canonical_ite
    | with_reducible apply Res.canonical_next
    | (extract_lets +onlyGivenNames x; have hx : State.canonical x := ?_; clear_value x)
    | (extract_lets +onlyGivenNames x; clear_value x)
    | (simp only [↓State.canonical_mk]; with_reducible apply State.canonical_parts)

theorem execChgAckTimeout_canonical (s : State) (h_s : (s).canonical) :
    Res.canonical (execChgAckTimeout s) := by
  unfold execChgAckTimeout
  repeat' first
    | with_reducible assumption
    | with_reducible apply State.message_canonical
    | with_reducible apply State.abandonCommit_canonical
    | with_reducible apply canonical_ite
    | with_reducible apply Res.canonical_next

theorem execChgConfirmTimeout_canonical (s : State) (h_s : (s).canonical) :
    Res.canonical (execChgConfirmTimeout s) := by
  unfold execChgConfirmTimeout
  repeat' first
    | with_reducible assumption
    | with_reducible apply State.ev_canonical
    | with_reducible apply State.setChgPhase_canonical
    | with_reducible apply State.setBit_canonical
    | with_reducible apply canonical_ite
    | with_reducible apply Res.canonical_next
    | (extract_lets +onlyGivenNames x; have hx : State.canonical x := ?_; clear_value x)
    | (extract_lets +onlyGivenNames x; clear_value x)
    | (simp only [↓State.canonical_mk]; with_reducible apply State.canonical_parts)

theorem State.openChangeTasks_canonical (s : State) (k : Package) (h_s : (s).canonical) :
    (State.openChangeTasks s k).canonical := by
  unfold State.openChangeTasks
  repeat' first | with_reducible intro x | with_reducible assumption | with_reducible apply State.each_canonical | with_reducible apply State.setWords_canonical

theorem execChangeCommitTick_canonical (s : State) (h_s : (s).canonical) :
    Res.canonical (execChangeCommitTick s) := by
  unfold execChangeCommitTick
  repeat' first
    | with_reducible intro x
    | with_reducible assumption
    | with_reducible apply State.setChgPhase_canonical
    | with_reducible apply State.openChangeTasks_canonical
    | with_reducible apply State.setWord_canonical
    | with_reducible apply State.when_canonical
    | with_reducible apply State.guardLoad_canonical
    | with_reducible apply State.loadLoops_canonical
    | with_reducible apply State.setBit_canonical
    | with_reducible apply State.each_canonical
    | with_reducible apply State.initLoop_canonical
    | with_reducible apply State.gaugeRec_canonical
    | with_reducible apply State.setFld_canonical
    | with_reducible apply State.putCells_canonical
    | with_reducible apply State.setWords_canonical
    | with_reducible apply State.switchDone_canonical
    | with_reducible apply canonical_ite
    | with_reducible apply Res.canonical_next
    | (extract_lets +onlyGivenNames x; have _ : ProgS := x; simp only [x]; clear x)
    | (simp only [↓State.canonical_mk]; with_reducible apply State.canonical_parts)
    | split

theorem execChangeSaveDone_canonical (s : State) (h_s : (s).canonical) :
    Res.canonical (execChangeSaveDone s) := by
  unfold execChangeSaveDone
  repeat' first
    | with_reducible assumption
    | with_reducible apply State.setWord_canonical
    | with_reducible apply State.setFld_canonical
    | with_reducible apply State.setBit_canonical
    | with_reducible apply State.inc_canonical
    | with_reducible apply State.setChgPhase_canonical
    | with_reducible apply State.ev_canonical
    | with_reducible apply State.finish_canonical
    | with_reducible apply canonical_ite
    | with_reducible apply Res.canonical_next
    | (extract_lets +onlyGivenNames x; have _ : ProgS := x; simp only [x]; clear x)
    | (extract_lets +onlyGivenNames x; clear_value x)
    | (simp only [↓State.canonical_mk]; with_reducible apply State.canonical_parts)
    | split

theorem State.chgTakeover_canonical (s : State) (h_s : (s).canonical) :
    (State.chgTakeover s).canonical := by
  unfold State.chgTakeover
  repeat' first
    | with_reducible assumption
    | with_reducible apply State.abandonCommit_canonical
    | (extract_lets +onlyGivenNames x; have hx : State.canonical x := ?_; clear_value x)
    | (extract_lets +onlyGivenNames x; clear_value x)
    | (simp only [↓State.canonical_mk]; with_reducible apply State.canonical_parts)

theorem State.chgTrailLost_canonical (s : State) (h_s : (s).canonical) :
    (State.chgTrailLost s).canonical := by
  unfold State.chgTrailLost
  repeat' first
    | with_reducible assumption
    | with_reducible apply State.abandonCommit_canonical
    | with_reducible apply State.setBit_canonical
    | with_reducible apply State.stagedNow_canonical
    | with_reducible apply canonical_ite

theorem State.chgReset_canonical (s : State) (h_s : (s).canonical) :
    (State.chgReset s).canonical := by
  unfold State.chgReset
  repeat' first
    | with_reducible assumption
    | with_reducible apply State.setBit_canonical
    | with_reducible apply State.ev_canonical
    | with_reducible apply State.setChgPhase_canonical
    | with_reducible apply State.setFld_canonical
    | with_reducible apply State.dropPackage_canonical
    | with_reducible apply canonical_ite
    | (extract_lets +onlyGivenNames x; clear_value x)
    | (simp only [↓State.canonical_mk]; with_reducible apply State.canonical_parts)

end Sys2Proof.Machine
end

