-- ==== Sys2Proof/Laws/CanonFio.lean ====
section
/-!
SUPPORT. Every function of Machine/Fio.lean keeps the canonical form of State.
-/

set_option linter.all false

namespace Sys2Proof.Machine

theorem execDioSample_canonical (c : Fin 16) (raw : Bool) (t : Nat) (s : State) (h_s : (s).canonical) :
    Res.canonical (execDioSample c raw t s) := by
  unfold execDioSample
  repeat' first
    | with_reducible assumption
    | with_reducible apply State.modDio_canonical
    | with_reducible apply State.setWord_canonical
    | with_reducible apply canonical_ite
    | with_reducible apply Res.canonical_next

theorem execDioOverload_canonical (c : Fin 16) (thermal : Bool) (s : State) (h_s : (s).canonical) :
    Res.canonical (execDioOverload c thermal s) := by
  unfold execDioOverload
  repeat' first
    | with_reducible assumption
    | with_reducible apply State.modDio_canonical
    | with_reducible apply State.chFault_canonical
    | with_reducible apply State.inc_canonical
    | with_reducible apply State.ev_canonical
    | with_reducible apply canonical_ite
    | with_reducible apply Res.canonical_next

theorem execDioOpen_canonical (c : Fin 16) (s : State) (h_s : (s).canonical) :
    Res.canonical (execDioOpen c s) := by
  unfold execDioOpen
  repeat' first
    | with_reducible assumption
    | with_reducible apply State.chFault_canonical
    | with_reducible apply State.ev_canonical
    | with_reducible apply canonical_ite
    | with_reducible apply Res.canonical_next

theorem execDioOpenClear_canonical (c : Fin 16) (s : State) (h_s : (s).canonical) :
    Res.canonical (execDioOpenClear c s) := by
  unfold execDioOpenClear
  repeat' first | with_reducible assumption | with_reducible apply State.chFault_canonical | with_reducible apply Res.canonical_next

theorem execGroupWarning_canonical (g : Fin 6) (s : State) (h_s : (s).canonical) :
    Res.canonical (execGroupWarning g s) := by
  unfold execGroupWarning
  repeat' first
    | with_reducible assumption
    | with_reducible apply State.setSag_canonical
    | with_reducible apply State.inc_canonical
    | with_reducible apply State.ev_canonical
    | with_reducible apply canonical_ite
    | with_reducible apply Res.canonical_next

theorem execGroupOff_canonical (g : Fin 6) (s : State) (h_s : (s).canonical) :
    Res.canonical (execGroupOff g s) := by
  unfold execGroupOff
  repeat' first
    | with_reducible assumption
    | with_reducible apply State.setSag_canonical
    | with_reducible apply State.groupOutputsOff_canonical
    | with_reducible apply State.inc_canonical
    | with_reducible apply State.ev_canonical
    | with_reducible apply canonical_ite
    | with_reducible apply Res.canonical_next
    | (extract_lets +onlyGivenNames x; have _ : FioS := x; simp only [x]; clear x)
    | (simp only [↓State.canonical_mk]; with_reducible apply State.canonical_parts)

theorem execGroupRecovering_canonical (g : Fin 6) (s : State) (h_s : (s).canonical) :
    Res.canonical (execGroupRecovering g s) := by
  unfold execGroupRecovering
  repeat' first | with_reducible assumption | with_reducible apply State.setSag_canonical | with_reducible apply canonical_ite | with_reducible apply Res.canonical_next

theorem execGroupNormal_canonical (g : Fin 6) (s : State) (h_s : (s).canonical) :
    Res.canonical (execGroupNormal g s) := by
  unfold execGroupNormal
  repeat' first
    | with_reducible intro x
    | with_reducible assumption
    | with_reducible apply State.setSag_canonical
    | with_reducible apply State.groupReload_canonical
    | with_reducible apply State.when_canonical
    | with_reducible apply State.setBit_canonical
    | with_reducible apply State.ev_canonical
    | with_reducible apply canonical_ite
    | with_reducible apply Res.canonical_next
    | (extract_lets +onlyGivenNames x; have _ : FioS := x; simp only [x]; clear x)
    | (simp only [↓State.canonical_mk]; with_reducible apply State.canonical_parts)

theorem execGroupOverload_canonical (g : Fin 4) (s : State) (h_s : (s).canonical) :
    Res.canonical (execGroupOverload g s) := by
  unfold execGroupOverload
  repeat' first
    | with_reducible assumption
    | with_reducible apply State.groupOutputsOff_canonical
    | with_reducible apply State.setBit_canonical
    | with_reducible apply State.ev_canonical
    | with_reducible apply canonical_ite
    | with_reducible apply Res.canonical_next

theorem execFioGroupAck_canonical (rq : Rq) (g : Fin 6) (s : State) (h_s : (s).canonical) :
    Res.canonical (execFioGroupAck rq g s) := by
  unfold execFioGroupAck
  repeat' first
    | with_reducible intro x
    | with_reducible assumption
    | with_reducible apply State.cmd_canonical
    | with_reducible apply State.respond_canonical
    | with_reducible apply State.stage_canonical
    | with_reducible apply canonical_ite
    | with_reducible apply Res.canonical_next

theorem execClComplianceSet_canonical (k : Fin 8) (s : State) (h_s : (s).canonical) :
    Res.canonical (execClComplianceSet k s) := by
  unfold execClComplianceSet
  repeat' first | with_reducible assumption | with_reducible apply State.chFault_canonical | with_reducible apply canonical_ite | with_reducible apply Res.canonical_next

theorem execClComplianceClear_canonical (k : Fin 8) (s : State) (h_s : (s).canonical) :
    Res.canonical (execClComplianceClear k s) := by
  unfold execClComplianceClear
  repeat' first | with_reducible assumption | with_reducible apply State.chFault_canonical | with_reducible apply Res.canonical_next

theorem execClLiveZero_canonical (k : Fin 8) (s : State) (h_s : (s).canonical) :
    Res.canonical (execClLiveZero k s) := by
  unfold execClLiveZero
  repeat' first
    | with_reducible assumption
    | with_reducible apply State.chFault_canonical
    | with_reducible apply State.modCl_canonical
    | with_reducible apply canonical_ite
    | with_reducible apply Res.canonical_next

theorem execLocalDisagree_canonical (c : Fin 24) (s : State) (h_s : (s).canonical) :
    Res.canonical (execLocalDisagree c s) := by
  unfold execLocalDisagree
  repeat' first
    | with_reducible assumption
    | with_reducible apply State.setBit_canonical
    | with_reducible apply State.incFld_canonical
    | with_reducible apply State.ev_canonical
    | with_reducible apply canonical_ite
    | with_reducible apply Res.canonical_next

theorem execFioManual_canonical (rq : Rq) (chan : Fin 24) (value : U32) (s : State) (h_s : (s).canonical) :
    Res.canonical (execFioManual rq chan value s) := by
  unfold execFioManual
  repeat' first
    | with_reducible intro x
    | with_reducible assumption
    | with_reducible apply State.cmd_canonical
    | with_reducible apply State.respond_canonical
    | with_reducible apply State.stage_canonical
    | with_reducible apply canonical_ite
    | with_reducible apply Res.canonical_next

theorem execFioHartScan_canonical (rq : Rq) (k : Fin 8) (s : State) (h_s : (s).canonical) :
    Res.canonical (execFioHartScan rq k s) := by
  unfold execFioHartScan
  repeat' first
    | with_reducible intro x
    | with_reducible assumption
    | with_reducible apply State.cmd_canonical
    | with_reducible apply State.respond_canonical
    | with_reducible apply State.bg_canonical
    | with_reducible apply canonical_ite
    | with_reducible apply Res.canonical_next
    | (simp only [x, ↓State.canonical_mk]; with_reducible apply State.canonical_parts)

theorem execFioHartXfer_canonical (rq : Rq) (k : Fin 8) (cmd : U8) (long data : List Byte) (s : State) (h_s : (s).canonical) :
    Res.canonical (execFioHartXfer rq k cmd long data s) := by
  unfold execFioHartXfer
  repeat' first
    | with_reducible intro x
    | with_reducible assumption
    | with_reducible apply State.cmd_canonical
    | with_reducible apply State.respond_canonical
    | with_reducible apply State.bg_canonical
    | with_reducible apply canonical_ite
    | with_reducible apply Res.canonical_next
    | (simp only [x, ↓State.canonical_mk]; with_reducible apply State.canonical_parts)

theorem State.hartNext_canonical (s : State) (h : HartS) (h_s : (s).canonical) :
    (State.hartNext s h).canonical := by
  unfold State.hartNext
  repeat' first | with_reducible assumption | with_reducible apply State.setHart_canonical | with_reducible apply State.respond_canonical | with_reducible apply canonical_ite

theorem State.hartAgain_canonical (s : State) (h : HartS) (h_s : (s).canonical) :
    (State.hartAgain s h).canonical := by
  unfold State.hartAgain
  repeat' first
    | with_reducible assumption
    | with_reducible apply State.setHart_canonical
    | with_reducible apply State.hartNext_canonical
    | with_reducible apply State.chFault_canonical
    | with_reducible apply State.inc_canonical
    | with_reducible apply State.respond_canonical
    | with_reducible apply canonical_ite

theorem execHartReplyReceive_canonical (k : Fin 8) (sound : Bool) (long : List Byte) (code status : U8) (data : List Byte) (s : State) (h_s : (s).canonical) :
    Res.canonical (execHartReplyReceive k sound long code status data s) := by
  unfold execHartReplyReceive
  repeat' first
    | with_reducible assumption
    | with_reducible apply State.hartAgain_canonical
    | with_reducible apply State.chFault_canonical
    | with_reducible apply State.hartNext_canonical
    | with_reducible apply State.setHart_canonical
    | with_reducible apply State.respond_canonical
    | with_reducible apply canonical_ite
    | with_reducible apply Res.canonical_next
    | (extract_lets +onlyGivenNames x; have hx : State.canonical x := ?_; clear_value x)
    | split

theorem execHartReplyTimeout_canonical (k : Fin 8) (s : State) (h_s : (s).canonical) :
    Res.canonical (execHartReplyTimeout k s) := by
  unfold execHartReplyTimeout
  repeat' first | with_reducible assumption | with_reducible apply State.hartAgain_canonical | with_reducible apply Res.canonical_next | split

theorem execHartBurstFrame_canonical (k : Fin 8) (s : State) (h_s : (s).canonical) :
    Res.canonical (execHartBurstFrame k s) := by
  unfold execHartBurstFrame
  repeat' first | with_reducible assumption | with_reducible apply State.inc_canonical | with_reducible apply canonical_ite | with_reducible apply Res.canonical_next

end Sys2Proof.Machine
end

