-- ==== Sys2Proof/Laws/CanonParamOps.lean ====
section
/-!
SUPPORT. Every function of Machine/ParamOps.lean keeps the canonical form of State.
-/

set_option linter.all false

namespace Sys2Proof.Machine

theorem State.setRestart_canonical (s : State) (l : List (Nat × U32)) (h_s : (s).canonical) :
    (State.setRestart s l).canonical := by
  unfold State.setRestart
  repeat' first
    | with_reducible intro x
    | with_reducible assumption
    | with_reducible apply State.each_canonical
    | with_reducible apply State.setWords_canonical
    | with_reducible apply State.setBit_canonical
    | with_reducible apply State.setFld_canonical
    | split

theorem State.pendRestart_canonical (s : State) (id : Nat) (v : U32) (h_s : (s).canonical) :
    (State.pendRestart s id v).canonical := by
  unfold State.pendRestart
  repeat' first | with_reducible assumption | with_reducible apply State.setRestart_canonical | with_reducible apply canonical_ite

theorem State.applyRestart_canonical (s : State) (h_s : (s).canonical) :
    (State.applyRestart s).canonical := by
  unfold State.applyRestart
  repeat' first
    | with_reducible intro x
    | with_reducible assumption
    | with_reducible apply State.each_canonical
    | with_reducible apply State.setWord_canonical
    | with_reducible apply State.setRestart_canonical

end Sys2Proof.Machine
end

