-- ==== Sys2Proof/Laws/CanonGauge.lean ====
section
/-!
SUPPORT. Every function of Machine/Gauge.lean keeps the canonical form of State.
-/

set_option linter.all false

namespace Sys2Proof.Machine

theorem execGaugeSnapshot_canonical (s : State) (h_s : (s).canonical) :
    Res.canonical (execGaugeSnapshot s) := by
  unfold execGaugeSnapshot
  repeat' first
    | with_reducible assumption
    | with_reducible apply State.inc_canonical
    | with_reducible apply State.gaugeRec_canonical
    | with_reducible apply canonical_ite
    | with_reducible apply Res.canonical_next
    | (extract_lets +onlyGivenNames x; have hx : State.canonical x := ?_; clear_value x)
    | (extract_lets +onlyGivenNames x; clear_value x)
    | (simp only [↓State.canonical_mk]; with_reducible apply State.canonical_parts)

theorem execGaugeSnapshotDone_canonical (full : Bool) (s : State) (h_s : (s).canonical) :
    Res.canonical (execGaugeSnapshotDone full s) := by
  unfold execGaugeSnapshotDone
  repeat' first
    | with_reducible assumption
    | with_reducible apply State.inc_canonical
    | with_reducible apply canonical_ite
    | with_reducible apply Res.canonical_next
    | (extract_lets +onlyGivenNames x; clear_value x)
    | (simp only [↓State.canonical_mk]; with_reducible apply State.canonical_parts)

theorem execGaugeFold_canonical (s : State) (h_s : (s).canonical) :
    Res.canonical (execGaugeFold s) := by
  unfold execGaugeFold
  repeat' first
    | with_reducible assumption
    | with_reducible apply canonical_ite
    | with_reducible apply Res.canonical_next
    | (extract_lets +onlyGivenNames x; clear_value x)
    | (simp only [↓State.canonical_mk]; with_reducible apply State.canonical_parts)
    | split

theorem execGaugeMark_canonical (rq : Rq) (s : State) (h_s : (s).canonical) :
    Res.canonical (execGaugeMark rq s) := by
  unfold execGaugeMark
  repeat' first
    | with_reducible intro x
    | with_reducible assumption
    | with_reducible apply State.cmd_canonical
    | with_reducible apply State.starting_canonical
    | with_reducible apply State.gaugeMark_canonical
    | with_reducible apply State.respond_canonical
    | with_reducible apply Res.canonical_next
    | with_reducible refine canonical_of_fst ‹_› ?_
    | split

theorem State.windowEntry_canonical (s : State) (slot : Nat) (w : GWin) (trunc gap imported : Bool) (bytes : Nat) (h_s : (s).canonical) :
    (State.windowEntry s slot w trunc gap imported bytes).canonical := by
  unfold State.windowEntry
  repeat' first | with_reducible assumption | with_reducible apply State.set64_canonical | with_reducible apply State.setWord_canonical | with_reducible apply State.setBit_canonical

theorem execGaugeWindowCopyDone_canonical (s : State) (h_s : (s).canonical) :
    Res.canonical (execGaugeWindowCopyDone s) := by
  unfold execGaugeWindowCopyDone
  repeat' first
    | with_reducible assumption
    | with_reducible apply State.windowEntry_canonical
    | with_reducible apply State.setFld_canonical
    | with_reducible apply State.ev_canonical
    | with_reducible apply State.startCopy_canonical
    | with_reducible apply canonical_ite
    | with_reducible apply Res.canonical_next
    | (simp only [x, ↓State.canonical_mk]; with_reducible apply State.canonical_parts)
    | (extract_lets +onlyGivenNames x; have hx : State.canonical x := ?_; clear_value x)
    | (extract_lets +onlyGivenNames x; clear_value x)
    | (simp only [↓State.canonical_mk]; with_reducible apply State.canonical_parts)
    | split

theorem execGaugeProtect_canonical (rq : Rq) (slot : Fin 8) (set : Bool) (s : State) (h_s : (s).canonical) :
    Res.canonical (execGaugeProtect rq slot set s) := by
  unfold execGaugeProtect
  repeat' first
    | with_reducible intro x
    | with_reducible assumption
    | with_reducible apply State.cmd_canonical
    | with_reducible apply State.respond_canonical
    | with_reducible apply State.setBit_canonical
    | with_reducible apply canonical_ite
    | with_reducible apply Res.canonical_next

theorem execGaugeExport_canonical (rq : Rq) (slot : Fin 8) (offset : Nat) (len : Fin 262141) (s : State) (h_s : (s).canonical) :
    Res.canonical (execGaugeExport rq slot offset len s) := by
  unfold execGaugeExport
  repeat' first
    | with_reducible intro x
    | with_reducible assumption
    | with_reducible apply State.cmd_canonical
    | with_reducible apply State.starting_canonical
    | with_reducible apply State.respond_canonical
    | with_reducible apply State.drawBytes_canonical
    | with_reducible apply Res.canonical_next
    | (simp only [x, ↓State.canonical_mk]; with_reducible apply State.canonical_parts)
    | (simp only [x]; split)

theorem execReplayLoad_canonical (rq : Rq) (hash : List Byte) (signed : Bool) (win : GWin) (s : State) (h_s : (s).canonical) :
    Res.canonical (execReplayLoad rq hash signed win s) := by
  unfold execReplayLoad
  repeat' first
    | with_reducible intro x
    | with_reducible assumption
    | with_reducible apply State.cmd_canonical
    | with_reducible apply State.respond_canonical
    | with_reducible apply State.bg_canonical
    | with_reducible apply State.ev_canonical
    | with_reducible apply State.clearEntry_canonical
    | with_reducible apply State.windowEntry_canonical
    | with_reducible apply canonical_ite
    | with_reducible apply Res.canonical_next
    | (simp only [x, ↓State.canonical_mk]; with_reducible apply State.canonical_parts)
    | (simp only [x]; split)
    | split

theorem execReplayStart_canonical (rq : Rq) (slot : Fin 8) (tick : Nat) (s : State) (h_s : (s).canonical) :
    Res.canonical (execReplayStart rq slot tick s) := by
  unfold execReplayStart
  repeat' first
    | with_reducible intro x
    | with_reducible assumption
    | with_reducible apply State.cmd_canonical
    | with_reducible apply State.respond_canonical
    | with_reducible apply State.bg_canonical
    | with_reducible apply State.loadMem_canonical
    | with_reducible apply State.keepWords_canonical
    | with_reducible apply State.each_canonical
    | with_reducible apply State.setWord_canonical
    | with_reducible apply State.setFld_canonical
    | with_reducible apply canonical_ite
    | with_reducible apply Res.canonical_next
    | (simp only [x, ↓State.canonical_mk]; with_reducible apply State.canonical_parts)
    | (simp only [x]; split)
    | split

theorem State.replayEnd_canonical (s : State) (stop : Nat) (diff : Option (Nat × Nat × Nat × Nat × Nat)) (h_s : (s).canonical) :
    (State.replayEnd s stop diff).canonical := by
  unfold State.replayEnd
  repeat' first
    | with_reducible assumption
    | with_reducible apply State.set64_canonical
    | with_reducible apply State.setWord_canonical
    | with_reducible apply State.setFld_canonical
    | with_reducible apply State.ev_canonical
    | with_reducible apply State.respond_canonical
    | (simp only [x, ↓State.canonical_mk]; with_reducible apply State.canonical_parts)
    | (extract_lets +onlyGivenNames x; have hx : State.canonical x := ?_; clear_value x)
    | (extract_lets +onlyGivenNames x; clear_value x)
    | split

theorem execReplayTick_canonical (effects : List (Nat × RunEffects)) (digest : List Byte) (cells : List (Nat × U32)) (bad held : Bool) (s : State) (h_s : (s).canonical) :
    Res.canonical (execReplayTick effects digest cells bad held s) := by
  unfold execReplayTick
  repeat' first
    | with_reducible intro x
    | with_reducible assumption
    | with_reducible apply State.replayEnd_canonical
    | with_reducible apply State.each_canonical
    | with_reducible apply State.setPmByte_canonical
    | with_reducible apply State.setWord_canonical
    | with_reducible apply State.setDramByte_canonical
    | with_reducible apply canonical_ite
    | with_reducible apply Res.canonical_next
    | (simp only [x, ↓State.canonical_mk]; with_reducible apply State.canonical_parts)
    | (extract_lets +onlyGivenNames x; have hx : State.canonical x := ?_; clear_value x)
    | (extract_lets +onlyGivenNames x; clear_value x)
    | (simp only [↓State.canonical_mk]; with_reducible apply State.canonical_parts)
    | split

theorem execReplayStop_canonical (rq : Rq) (s : State) (h_s : (s).canonical) :
    Res.canonical (execReplayStop rq s) := by
  unfold execReplayStop
  repeat' first
    | with_reducible intro x
    | with_reducible assumption
    | with_reducible apply State.cmd_canonical
    | with_reducible apply State.replayEnd_canonical
    | with_reducible apply State.respond_canonical
    | with_reducible apply canonical_ite
    | with_reducible apply Res.canonical_next

end Sys2Proof.Machine
end

