-- ==== Sys2Proof/Laws/CanonModeOps.lean ====
section
/-!
SUPPORT. Every function of Machine/ModeOps.lean keeps the canonical form of State.
-/

set_option linter.all false

namespace Sys2Proof.Machine

theorem State.finishAny_canonical (s : State) (mb : Fin 8) (tag : U16) (status detail : Nat) (h_s : (s).canonical) :
    (State.finishAny s mb tag status detail).canonical := by
  unfold State.finishAny
  repeat' first | with_reducible assumption | with_reducible apply State.respond_canonical | split

theorem State.tdrAbort_canonical (s : State) (p : Nat) (h_s : (s).canonical) :
    (State.tdrAbort s p).canonical := by
  unfold State.tdrAbort
  repeat' first
    | with_reducible assumption
    | with_reducible apply State.setBit_canonical
    | with_reducible apply State.modPort_canonical
    | with_reducible apply State.finishTag_canonical
    | split

theorem State.leaveEmission_canonical (s : State) (h_s : (s).canonical) :
    (State.leaveEmission s).canonical := by
  unfold State.leaveEmission
  repeat' first
    | with_reducible intro x
    | with_reducible assumption
    | with_reducible apply State.when_canonical
    | with_reducible apply State.setFld_canonical
    | with_reducible apply State.each_canonical
    | with_reducible apply State.setBit_canonical
    | with_reducible apply State.modPort_canonical
    | (simp only [x, ↓State.canonical_mk]; with_reducible apply State.canonical_parts)

theorem State.stnHalt_canonical (s : State) (p : Nat) (h_s : (s).canonical) :
    (State.stnHalt s p).canonical := by
  unfold State.stnHalt
  repeat' first
    | with_reducible assumption
    | with_reducible apply State.setFld_canonical
    | with_reducible apply State.modPort_canonical
    | with_reducible apply State.setWord_canonical
    | with_reducible apply State.respond_canonical
    | with_reducible apply canonical_ite
    | (simp only [x, ↓State.canonical_mk]; with_reducible apply State.canonical_parts)
    | (extract_lets +onlyGivenNames x; have hx : State.canonical x := ?_; clear_value x)
    | (extract_lets +onlyGivenNames x; clear_value x)
    | split

theorem State.leaveContend_canonical (s : State) (h_s : (s).canonical) :
    (State.leaveContend s).canonical := by
  unfold State.leaveContend
  repeat' first
    | with_reducible intro x
    | with_reducible assumption
    | with_reducible apply State.each_canonical
    | with_reducible apply State.finishTag_canonical
    | with_reducible apply State.finishAny_canonical
    | with_reducible apply State.modPort_canonical
    | with_reducible apply State.stnHalt_canonical
    | with_reducible apply canonical_ite
    | split

theorem State.leaveRun_canonical (s : State) (h_s : (s).canonical) :
    (State.leaveRun s).canonical := by
  unfold State.leaveRun
  repeat' first
    | with_reducible assumption
    | with_reducible apply State.hartAbandon_canonical
    | with_reducible apply State.stopProgram_canonical
    | with_reducible apply State.chgReset_canonical
    | with_reducible apply State.outputsOff_canonical

theorem State.leaveService_canonical (s : State) (h_s : (s).canonical) :
    (State.leaveService s).canonical := by
  unfold State.leaveService
  repeat' first
    | with_reducible assumption
    | with_reducible apply State.portConnsLost_canonical
    | with_reducible apply State.outputsOff_canonical
    | (extract_lets +onlyGivenNames x; have _ : FioS := x; simp only [x]; clear x)
    | (simp only [↓State.canonical_mk]; with_reducible apply State.canonical_parts)

theorem State.beginSearch_canonical (s : State) (h_s : (s).canonical) :
    (State.beginSearch s).canonical := by
  unfold State.beginSearch
  repeat' first
    | with_reducible intro x
    | with_reducible assumption
    | with_reducible apply State.each_canonical
    | with_reducible apply State.setBit_canonical
    | with_reducible apply State.modPort_canonical

theorem State.countAbandon_canonical (s : State) (h_s : (s).canonical) :
    (State.countAbandon s).canonical := by
  unfold State.countAbandon
  repeat' first
    | with_reducible assumption
    | with_reducible apply State.setBit_canonical
    | with_reducible apply canonical_ite
    | (extract_lets +onlyGivenNames x; clear_value x)
    | (simp only [↓State.canonical_mk]; with_reducible apply State.canonical_parts)

theorem State.resyncWords_canonical (s : State) (cause sent : Nat) (h_s : (s).canonical) :
    (State.resyncWords s cause sent).canonical := by
  unfold State.resyncWords
  repeat' first
    | with_reducible assumption
    | with_reducible apply State.setFld_canonical
    | with_reducible apply State.setBit_canonical
    | with_reducible apply State.inc_canonical
    | with_reducible apply State.setWord_canonical

theorem State.resyncDrop_canonical (s : State) (cause : Nat) (h_s : (s).canonical) :
    (State.resyncDrop s cause).canonical := by
  unfold State.resyncDrop
  repeat' first
    | with_reducible intro x
    | with_reducible assumption
    | with_reducible apply State.resyncWords_canonical
    | with_reducible apply State.ev_canonical
    | with_reducible apply State.when_canonical
    | with_reducible apply State.control_canonical
    | with_reducible apply State.clearPm_canonical
    | with_reducible apply State.setBit_canonical
    | with_reducible apply State.countAbandon_canonical
    | with_reducible apply State.freshTasks_canonical
    | with_reducible apply State.stopLoops_canonical
    | with_reducible apply canonical_ite
    | (extract_lets +onlyGivenNames x; clear_value x)
    | (simp only [↓State.canonical_mk]; with_reducible apply State.canonical_parts)
    | split

theorem State.dropRelays_canonical (s : State) (h_s : (s).canonical) :
    (State.dropRelays s).canonical := by
  unfold State.dropRelays
  repeat' first
    | with_reducible intro x
    | with_reducible assumption
    | with_reducible apply State.each_canonical
    | with_reducible apply State.respond_canonical
    | (extract_lets +onlyGivenNames x; have _ : KprS := x; simp only [x]; clear x)
    | (simp only [↓State.canonical_mk]; with_reducible apply State.canonical_parts)

theorem State.beginMode_canonical (s : State) (m : Mode) (h_s : (s).canonical) :
    (State.beginMode s m).canonical := by
  unfold State.beginMode
  repeat' first
    | with_reducible assumption
    | with_reducible apply State.beginSearch_canonical
    | with_reducible apply State.cuDropAll_canonical
    | (extract_lets +onlyGivenNames x; clear_value x)
    | (simp only [↓State.canonical_mk]; with_reducible apply State.canonical_parts)
    | split

theorem State.roleChange_canonical (s : State) (m : Mode) (h_s : (s).canonical) :
    (State.roleChange s m).canonical := by
  unfold State.roleChange
  repeat' first
    | with_reducible assumption
    | with_reducible apply State.set64_canonical
    | with_reducible apply State.setBit_canonical
    | with_reducible apply State.ev_canonical
    | with_reducible apply canonical_ite
    | (simp only [x, ↓State.canonical_mk]; with_reducible apply State.canonical_parts)
    | (extract_lets +onlyGivenNames x; have hx : State.canonical x := ?_; clear_value x)
    | (extract_lets +onlyGivenNames x; clear_value x)
    | (simp only [↓State.canonical_mk]; with_reducible apply State.canonical_parts)

theorem State.enterMode_canonical (s : State) (m : Mode) (cause : Nat) (h_s : (s).canonical) :
    (State.enterMode s m cause).canonical := by
  unfold State.enterMode
  repeat' first
    | with_reducible intro x
    | with_reducible assumption
    | with_reducible apply State.leaveEmission_canonical
    | with_reducible apply State.leaveContend_canonical
    | with_reducible apply State.leaveRun_canonical
    | with_reducible apply State.leaveService_canonical
    | with_reducible apply State.resyncDrop_canonical
    | with_reducible apply State.replayEnd_canonical
    | with_reducible apply State.dropRelays_canonical
    | with_reducible apply State.roleChange_canonical
    | with_reducible apply State.set64_canonical
    | with_reducible apply State.ev_canonical
    | with_reducible apply State.beginMode_canonical
    | with_reducible apply State.hartAbandon_canonical
    | with_reducible apply State.each_canonical
    | with_reducible apply State.tdrAbort_canonical
    | with_reducible apply canonical_ite
    | (extract_lets +onlyGivenNames x; clear_value x)
    | (simp only [↓State.canonical_mk]; with_reducible apply State.canonical_parts)

theorem State.refusePending_canonical (s : State) (h_s : (s).canonical) :
    (State.refusePending s).canonical := by
  unfold State.refusePending
  repeat' first
    | with_reducible assumption
    | with_reducible apply State.respond_canonical
    | (extract_lets +onlyGivenNames x; clear_value x)
    | (simp only [↓State.canonical_mk]; with_reducible apply State.canonical_parts)
    | split

theorem State.dropPending_canonical (s : State) (h_s : (s).canonical) :
    (State.dropPending s).canonical := by
  unfold State.dropPending
  repeat' first
    | with_reducible assumption
    | with_reducible apply State.ev_canonical
    | with_reducible apply State.refusePending_canonical
    | (extract_lets +onlyGivenNames x; clear_value x)
    | (simp only [↓State.canonical_mk]; with_reducible apply State.canonical_parts)
    | split

theorem State.pend_canonical (s : State) (m : Mode) (c : ModeCause) (h_s : (s).canonical) :
    (State.pend s m c).canonical := by
  unfold State.pend
  repeat' first
    | with_reducible assumption
    | with_reducible apply State.ev_canonical
    | with_reducible apply State.dropPending_canonical
    | with_reducible apply canonical_ite
    | (extract_lets +onlyGivenNames x; have hx : State.canonical x := ?_; clear_value x)
    | (extract_lets +onlyGivenNames x; clear_value x)
    | (simp only [↓State.canonical_mk]; with_reducible apply State.canonical_parts)
    | split

theorem State.countUnresolved_canonical (s : State) (cause : Nat) (h_s : (s).canonical) :
    (State.countUnresolved s cause).canonical := by
  unfold State.countUnresolved
  repeat' first
    | with_reducible assumption
    | with_reducible apply State.setBit_canonical
    | with_reducible apply canonical_ite
    | (extract_lets +onlyGivenNames x; clear_value x)
    | (simp only [↓State.canonical_mk]; with_reducible apply State.canonical_parts)

theorem State.clearPairWork_canonical (s : State) (h_s : (s).canonical) :
    (State.clearPairWork s).canonical := by
  unfold State.clearPairWork
  repeat' first
    | with_reducible assumption
    | with_reducible apply State.setBit_canonical
    | (extract_lets +onlyGivenNames x; have hx : State.canonical x := ?_; clear_value x)
    | (extract_lets +onlyGivenNames x; clear_value x)
    | (simp only [↓State.canonical_mk]; with_reducible apply State.canonical_parts)

theorem State.withdraw_canonical (s : State) (cause : Nat) (h_s : (s).canonical) :
    (State.withdraw s cause).canonical := by
  unfold State.withdraw
  repeat' first
    | with_reducible assumption
    | with_reducible apply State.gaugeAuto_canonical
    | with_reducible apply State.setFld_canonical
    | with_reducible apply State.ev_canonical
    | with_reducible apply State.countUnresolved_canonical
    | with_reducible apply State.clearPairWork_canonical
    | with_reducible apply State.enterMode_canonical
    | with_reducible apply State.respond_canonical
    | with_reducible apply State.dropPending_canonical
    | with_reducible apply canonical_ite
    | (extract_lets +onlyGivenNames x; have hx : State.canonical x := ?_; clear_value x)
    | (extract_lets +onlyGivenNames x; clear_value x)
    | (simp only [↓State.canonical_mk]; with_reducible apply State.canonical_parts)
    | split

theorem State.hardWithdraw_canonical (s : State) (cause : Nat) (m : Mode) (h_s : (s).canonical) :
    (State.hardWithdraw s cause m).canonical := by
  unfold State.hardWithdraw
  repeat' first
    | with_reducible assumption
    | with_reducible apply State.refusePending_canonical
    | with_reducible apply State.control_canonical
    | with_reducible apply State.withdraw_canonical
    | with_reducible apply State.enterMode_canonical
    | with_reducible apply State.clearPairWork_canonical
    | with_reducible apply canonical_ite
    | (extract_lets +onlyGivenNames x; clear_value x)
    | (simp only [↓State.canonical_mk]; with_reducible apply State.canonical_parts)

end Sys2Proof.Machine
end

