-- ==== Sys2Proof/Laws/CanonImgOps.lean ====
section
/-!
SUPPORT. Every function of Machine/ImgOps.lean keeps the canonical form of State.
-/

set_option linter.all false

namespace Sys2Proof.Machine

theorem State.dropObject_canonical (s : State) (hash : List Byte) (h_s : (s).canonical) :
    (State.dropObject s hash).canonical := by
  unfold State.dropObject
  repeat' first | with_reducible assumption | (extract_lets +onlyGivenNames x; clear_value x) | (simp only [↓State.canonical_mk]; with_reducible apply State.canonical_parts)

theorem State.copyBank_canonical (s : State) (src dst : Nat) (h_s : (s).canonical) :
    (State.copyBank s src dst).canonical := by
  unfold State.copyBank
  repeat' first | with_reducible assumption | with_reducible apply State.setWords_canonical | with_reducible apply State.setWord_canonical

theorem State.chamberWord_canonical (s : State) (h_s : (s).canonical) :
    (State.chamberWord s).canonical := by
  unfold State.chamberWord
  repeat' first | with_reducible assumption | with_reducible apply State.setWord_canonical

theorem State.emptyChamber_canonical (s : State) (h_s : (s).canonical) :
    (State.emptyChamber s).canonical := by
  unfold State.emptyChamber
  repeat' first
    | with_reducible intro x
    | with_reducible assumption
    | with_reducible apply State.each_canonical
    | with_reducible apply State.clearEntry_canonical
    | with_reducible apply State.chamberWord_canonical
    | (simp only [x, ↓State.canonical_mk]; with_reducible apply State.canonical_parts)

theorem State.restoreSettings_canonical (s : State) (old : List (Nat × U32)) (h_s : (s).canonical) :
    (State.restoreSettings s old).canonical := by
  unfold State.restoreSettings
  repeat' first
    | with_reducible intro x
    | with_reducible assumption
    | with_reducible apply State.each_canonical
    | with_reducible apply State.setWord_canonical
    | with_reducible apply canonical_ite

theorem State.endHealth_canonical (s : State) (h_s : (s).canonical) :
    (State.endHealth s).canonical := by
  unfold State.endHealth
  repeat' first
    | with_reducible assumption
    | with_reducible apply State.setBit_canonical
    | (extract_lets +onlyGivenNames x; have hx : State.canonical x := ?_; clear_value x)
    | (extract_lets +onlyGivenNames x; clear_value x)
    | (simp only [↓State.canonical_mk]; with_reducible apply State.canonical_parts)

theorem State.confirmImage_canonical (s : State) (h_s : (s).canonical) :
    (State.confirmImage s).canonical := by
  unfold State.confirmImage
  repeat' first | with_reducible assumption | with_reducible apply State.setBit_canonical | with_reducible apply State.ev_canonical | with_reducible apply State.endHealth_canonical

theorem State.runFrom_canonical (s : State) (b : Nat) (h_s : (s).canonical) :
    (State.runFrom s b).canonical := by
  unfold State.runFrom
  repeat' first | with_reducible intro x | with_reducible assumption | with_reducible apply State.each_canonical | with_reducible apply State.setBit_canonical

theorem State.fallBack_canonical (s : State) (h_s : (s).canonical) :
    (State.fallBack s).canonical := by
  unfold State.fallBack
  repeat' first
    | with_reducible intro x
    | with_reducible assumption
    | with_reducible apply State.setWord_canonical
    | with_reducible apply State.each_canonical
    | with_reducible apply State.setBit_canonical
    | with_reducible apply State.restoreSettings_canonical
    | with_reducible apply State.setFld_canonical
    | with_reducible apply State.inc_canonical
    | with_reducible apply State.ev_canonical
    | with_reducible apply State.endHealth_canonical
    | split

theorem State.chooseBank_canonical (s : State) (bankOk : Nat) (activation : Bool) (h_s : (s).canonical) :
    (State.chooseBank s bankOk activation).canonical := by
  unfold State.chooseBank
  repeat' first
    | with_reducible intro x
    | with_reducible assumption
    | with_reducible apply State.fallBack_canonical
    | with_reducible apply State.each_canonical
    | with_reducible apply State.setBit_canonical
    | with_reducible apply State.ev_canonical
    | with_reducible apply State.runFrom_canonical
    | with_reducible apply canonical_ite
    | (extract_lets +onlyGivenNames x; have hx : State.canonical x := ?_; clear_value x)
    | (extract_lets +onlyGivenNames x; clear_value x)
    | (simp only [↓State.canonical_mk]; with_reducible apply State.canonical_parts)

theorem State.planRestart_canonical (s : State) (scope : Nat) (h_s : (s).canonical) :
    (State.planRestart s scope).canonical := by
  unfold State.planRestart
  repeat' first | with_reducible assumption | (extract_lets +onlyGivenNames x; have _ : KprS := x; simp only [x]; clear x) | (simp only [↓State.canonical_mk]; with_reducible apply State.canonical_parts)

theorem State.planFallBack_canonical (s : State) (cause : Nat) (h_s : (s).canonical) :
    (State.planFallBack s cause).canonical := by
  unfold State.planFallBack
  repeat' first
    | with_reducible assumption
    | with_reducible apply State.decideWithdraw_canonical
    | with_reducible apply State.planRestart_canonical
    | (extract_lets +onlyGivenNames x; clear_value x)
    | (simp only [↓State.canonical_mk]; with_reducible apply State.canonical_parts)

end Sys2Proof.Machine
end

