-- ==== Sys2Proof/Laws/CanonStnOps.lean ====
section
/-!
SUPPORT. Every function of Machine/StnOps.lean keeps the canonical form of State.
-/

set_option linter.all false

namespace Sys2Proof.Machine

theorem State.atAddr_canonical (s : State) (p addr : Nat) (f : U32 → StnS → StnS) (h_s : (s).canonical) :
    (State.atAddr s p addr f).canonical := by
  unfold State.atAddr
  repeat' first | with_reducible intro x | with_reducible assumption | with_reducible apply State.each_canonical | with_reducible apply State.modStn_canonical

theorem State.stnRequest_canonical (s : State) (p : Nat) (serial : U32) (r : MReq) (ownSerial inQuar : Bool) (f : StnS → StnS) (h_s : (s).canonical) :
    (State.stnRequest s p serial r ownSerial inQuar f).canonical := by
  unfold State.stnRequest
  repeat' first | with_reducible assumption | with_reducible apply State.modStn_canonical

end Sys2Proof.Machine
end

