-- ==== Sys2Proof/Laws/CanonTrunk.lean ====
section
/-!
SUPPORT. Every function of Machine/Trunk.lean keeps the canonical form of State.
-/

set_option linter.all false

namespace Sys2Proof.Machine

theorem State.compareSlice_canonical (s : State) (p : Nat) (b : Beacon) (h_s : (s).canonical) :
    (State.compareSlice s p b).canonical := by
  unfold State.compareSlice
  repeat' first
    | with_reducible intro x
    | with_reducible assumption
    | with_reducible apply State.withSched_canonical
    | with_reducible apply State.modPort_canonical
    | with_reducible apply State.setBit_canonical
    | with_reducible apply State.when_canonical
    | with_reducible apply State.ev_canonical
    | with_reducible apply canonical_ite

theorem State.foundBeacon_canonical (s : State) (p : Nat) (b : Beacon) (h_s : (s).canonical) :
    (State.foundBeacon s p b).canonical := by
  unfold State.foundBeacon
  repeat' first
    | with_reducible intro x
    | with_reducible assumption
    | with_reducible apply State.setBit_canonical
    | with_reducible apply State.setWord_canonical
    | with_reducible apply State.when_canonical
    | with_reducible apply State.ev_canonical
    | with_reducible apply State.modPort_canonical
    | with_reducible apply canonical_ite

theorem execTrunkBeaconReceive_canonical (p : Fin 16) (f : RxFrame) (s : State) (h_s : (s).canonical) :
    Res.canonical (execTrunkBeaconReceive p f s) := by
  unfold execTrunkBeaconReceive
  repeat' first
    | with_reducible assumption
    | with_reducible apply State.inc_canonical
    | with_reducible apply State.modPort_canonical
    | with_reducible apply State.hearClaim_canonical
    | with_reducible apply State.checkDeposed_canonical
    | with_reducible apply State.foundBeacon_canonical
    | with_reducible apply State.compareSlice_canonical
    | with_reducible apply State.refreshReady_canonical
    | with_reducible apply canonical_ite
    | with_reducible apply Res.canonical_next
    | (simp only [x, ↓State.canonical_mk]; with_reducible apply State.canonical_parts)
    | (extract_lets +onlyGivenNames x; have hx : State.canonical x := ?_; clear_value x)
    | (extract_lets +onlyGivenNames x; clear_value x)
    | split

theorem execRateDwellExpire_canonical (p : Fin 16) (s : State) (h_s : (s).canonical) :
    Res.canonical (execRateDwellExpire p s) := by
  unfold execRateDwellExpire
  repeat' first | with_reducible assumption | with_reducible apply State.modPort_canonical | with_reducible apply canonical_ite | with_reducible apply Res.canonical_next

theorem State.launchRecord_canonical (s : State) (r : RxRecord) (h_s : (s).canonical) :
    (State.launchRecord s r).canonical := by
  unfold State.launchRecord
  repeat' first | with_reducible assumption | (extract_lets +onlyGivenNames x; clear_value x) | (simp only [↓State.canonical_mk]; with_reducible apply State.canonical_parts)

theorem State.noteEcho_canonical (s : State) (p addr : Nat) (echo : Option Nat) (atHead : Bool) (h_s : (s).canonical) :
    (State.noteEcho s p addr echo atHead).canonical := by
  unfold State.noteEcho
  repeat' first
    | with_reducible assumption
    | with_reducible apply State.modPort_canonical
    | with_reducible apply canonical_ite
    | (extract_lets +onlyGivenNames x; clear_value x)
    | split

theorem execSlotFrameReceive_canonical (p : Fin 16) (i : Nat) (f : RxFrame) (m : RxMeasure) (s : State) (h_s : (s).canonical) :
    Res.canonical (execSlotFrameReceive p i f m s) := by
  unfold execSlotFrameReceive
  repeat' first
    | with_reducible intro x
    | with_reducible assumption
    | with_reducible apply State.inc_canonical
    | with_reducible apply State.withSched_canonical
    | with_reducible apply State.eqBad_canonical
    | with_reducible apply State.countSnr_canonical
    | with_reducible apply State.eqFrame_canonical
    | with_reducible apply State.modPort_canonical
    | with_reducible apply State.noteEcho_canonical
    | with_reducible apply State.launchRecord_canonical
    | with_reducible apply canonical_ite
    | with_reducible apply Res.canonical_next
    | (extract_lets +onlyGivenNames x; clear_value x)
    | split

theorem execTrainingFrameReceive_canonical (p : Fin 16) (i : Nat) (f : RxFrame) (m : RxMeasure) (s : State) (h_s : (s).canonical) :
    Res.canonical (execTrainingFrameReceive p i f m s) := by
  unfold execTrainingFrameReceive
  repeat' first
    | with_reducible intro x
    | with_reducible assumption
    | with_reducible apply State.inc_canonical
    | with_reducible apply State.withSched_canonical
    | with_reducible apply State.setWords_canonical
    | with_reducible apply State.modPort_canonical
    | with_reducible apply State.trained_canonical
    | with_reducible apply State.when_canonical
    | with_reducible apply State.setBit_canonical
    | with_reducible apply State.refreshReady_canonical
    | with_reducible apply canonical_ite
    | with_reducible apply Res.canonical_next
    | split

theorem execLineActivityNoStart_canonical (p : Fin 16) (inSlot inArbitration : Bool) (s : State) (h_s : (s).canonical) :
    Res.canonical (execLineActivityNoStart p inSlot inArbitration s) := by
  unfold execLineActivityNoStart
  repeat' first
    | with_reducible assumption
    | with_reducible apply State.inc_canonical
    | with_reducible apply State.modPort_canonical
    | with_reducible apply canonical_ite
    | with_reducible apply Res.canonical_next

theorem execBackgroundCalibration_canonical (p : Fin 16) (idle : Nat) (s : State) (h_s : (s).canonical) :
    Res.canonical (execBackgroundCalibration p idle s) := by
  unfold execBackgroundCalibration
  repeat' first
    | with_reducible assumption
    | with_reducible apply State.inc_canonical
    | with_reducible apply State.modPort_canonical
    | with_reducible apply State.setBit_canonical
    | with_reducible apply canonical_ite
    | with_reducible apply Res.canonical_next

theorem execCalStale_canonical (p : Fin 16) (s : State) (h_s : (s).canonical) :
    Res.canonical (execCalStale p s) := by
  unfold execCalStale
  repeat' first
    | with_reducible assumption
    | with_reducible apply State.setBit_canonical
    | with_reducible apply State.ev_canonical
    | with_reducible apply canonical_ite
    | with_reducible apply Res.canonical_next

theorem execEqRetrainEnd_canonical (p : Fin 16) (s : State) (h_s : (s).canonical) :
    Res.canonical (execEqRetrainEnd p s) := by
  unfold execEqRetrainEnd
  repeat' first
    | with_reducible intro x
    | with_reducible assumption
    | with_reducible apply State.setWord_canonical
    | with_reducible apply State.modPort_canonical
    | with_reducible apply State.each_canonical
    | with_reducible apply State.trained_canonical
    | with_reducible apply canonical_ite
    | with_reducible apply Res.canonical_next

theorem execBreakDeclare_canonical (p : Fin 16) (s : State) (h_s : (s).canonical) :
    Res.canonical (execBreakDeclare p s) := by
  unfold execBreakDeclare
  repeat' first
    | with_reducible assumption
    | with_reducible apply State.setBit_canonical
    | with_reducible apply State.setWord_canonical
    | with_reducible apply State.modPort_canonical
    | with_reducible apply State.ev_canonical
    | with_reducible apply canonical_ite
    | with_reducible apply Res.canonical_next

theorem execBreakClear_canonical (p : Fin 16) (s : State) (h_s : (s).canonical) :
    Res.canonical (execBreakClear p s) := by
  unfold execBreakClear
  repeat' first
    | with_reducible assumption
    | with_reducible apply State.setBit_canonical
    | with_reducible apply State.setWord_canonical
    | with_reducible apply State.ev_canonical
    | with_reducible apply canonical_ite
    | with_reducible apply Res.canonical_next

theorem State.breakEstimate_canonical (s : State) (p : Nat) (d : Nat) (h_s : (s).canonical) :
    (State.breakEstimate s p d).canonical := by
  unfold State.breakEstimate
  repeat' first
    | with_reducible assumption
    | with_reducible apply State.modPort_canonical
    | with_reducible apply State.setWord_canonical
    | with_reducible apply canonical_ite
    | (extract_lets +onlyGivenNames x; clear_value x)
    | split

theorem execTdrRun_canonical (p : Fin 16) (refl : List (Nat × Int)) (s : State) (h_s : (s).canonical) :
    Res.canonical (execTdrRun p refl s) := by
  unfold execTdrRun
  repeat' first
    | with_reducible intro x
    | with_reducible assumption
    | with_reducible apply State.each_canonical
    | with_reducible apply State.clearEntry_canonical
    | with_reducible apply State.setWord_canonical
    | with_reducible apply State.setBit_canonical
    | with_reducible apply State.modPort_canonical
    | with_reducible apply State.finishTag_canonical
    | with_reducible apply canonical_ite
    | with_reducible apply Res.canonical_next
    | (extract_lets +onlyGivenNames x; have hx : State.canonical x := ?_; clear_value x)
    | (extract_lets +onlyGivenNames x; clear_value x)
    | split

theorem execTdrWaitTimeout_canonical (p : Fin 16) (s : State) (h_s : (s).canonical) :
    Res.canonical (execTdrWaitTimeout p s) := by
  unfold execTdrWaitTimeout
  repeat' first
    | with_reducible assumption
    | with_reducible apply State.setBit_canonical
    | with_reducible apply State.modPort_canonical
    | with_reducible apply State.finishTag_canonical
    | with_reducible apply canonical_ite
    | with_reducible apply Res.canonical_next
    | (extract_lets +onlyGivenNames x; have hx : State.canonical x := ?_; clear_value x)
    | split

theorem execTailBeaconLaunch_canonical (p : Fin 16) (dev : Int) (s : State) (h_s : (s).canonical) :
    Res.canonical (execTailBeaconLaunch p dev s) := by
  unfold execTailBeaconLaunch
  repeat' first
    | with_reducible assumption
    | with_reducible apply State.setBit_canonical
    | with_reducible apply State.launchBeacon_canonical
    | with_reducible apply canonical_ite
    | with_reducible apply Res.canonical_next

theorem execTailBroadcastLaunch_canonical (p : Fin 16) (differs : Bool) (s : State) (h_s : (s).canonical) :
    Res.canonical (execTailBroadcastLaunch p differs s) := by
  unfold execTailBroadcastLaunch
  repeat' first | with_reducible assumption | with_reducible apply State.launchBcast_canonical | with_reducible apply canonical_ite | with_reducible apply Res.canonical_next

theorem execEventRound_canonical (p : Fin 16) (m : Fin 32) (others : List (Nat × Nat)) (s : State) (h_s : (s).canonical) :
    Res.canonical (execEventRound p m others s) := by
  unfold execEventRound
  repeat' first
    | with_reducible intro x
    | with_reducible assumption
    | with_reducible apply State.withSched_canonical
    | with_reducible apply State.each_canonical
    | with_reducible apply State.atAddr_canonical
    | with_reducible apply State.modPort_canonical
    | with_reducible apply canonical_ite
    | with_reducible apply Res.canonical_next

theorem execEventRoundFramePhase_canonical (p : Fin 16) (s : State) (h_s : (s).canonical) :
    Res.canonical (execEventRoundFramePhase p s) := by
  unfold execEventRoundFramePhase
  repeat' first
    | with_reducible intro x
    | with_reducible assumption
    | with_reducible apply State.modPort_canonical
    | with_reducible apply State.atAddr_canonical
    | with_reducible apply State.withSched_canonical
    | with_reducible apply Res.canonical_next
    | (simp only [x]; split)
    | (extract_lets +onlyGivenNames x; have hx : State.canonical x := ?_; clear_value x)
    | split

theorem State.txqEnd_canonical (s : State) (p e state cause : Nat) (h_s : (s).canonical) :
    (State.txqEnd s p e state cause).canonical := by
  unfold State.txqEnd
  repeat' first | with_reducible assumption | with_reducible apply State.setFld_canonical | with_reducible apply State.modPort_canonical

theorem execTxqEntrySend_canonical (p : Fin 16) (s : State) (h_s : (s).canonical) :
    Res.canonical (execTxqEntrySend p s) := by
  unfold execTxqEntrySend
  repeat' first
    | with_reducible intro x
    | with_reducible assumption
    | with_reducible apply State.withSched_canonical
    | with_reducible apply State.modPort_canonical
    | with_reducible apply State.txqEnd_canonical
    | with_reducible apply State.setWord_canonical
    | with_reducible apply State.setFld_canonical
    | with_reducible apply canonical_ite
    | with_reducible apply Res.canonical_next
    | (extract_lets +onlyGivenNames x; have hx : State.canonical x := ?_; clear_value x)
    | (extract_lets +onlyGivenNames x; clear_value x)
    | split

theorem execKeeperStationRequest_canonical (p : Fin 16) (s : State) (h_s : (s).canonical) :
    Res.canonical (execKeeperStationRequest p s) := by
  unfold execKeeperStationRequest
  repeat' first
    | with_reducible intro x
    | with_reducible assumption
    | with_reducible apply State.withSched_canonical
    | with_reducible apply State.modPort_canonical
    | with_reducible apply Res.canonical_next
    | (extract_lets +onlyGivenNames x; clear_value x)
    | split

theorem State.holdQ_canonical (s : State) (p : Fin 16) (kind : QKind) (agree m : Nat) (f : RxFrame) (h_s : (s).canonical) :
    (State.holdQ s p kind agree m f).canonical := by
  unfold State.holdQ
  repeat' first | with_reducible assumption | with_reducible apply State.modPort_canonical | with_reducible apply State.launchRecord_canonical

theorem State.badPhase_canonical (s : State) (p : Nat) (code : Bool) (h_s : (s).canonical) :
    (State.badPhase s p code).canonical := by
  unfold State.badPhase
  repeat' first | with_reducible assumption | with_reducible apply State.inc_canonical | with_reducible apply State.modPort_canonical | with_reducible apply canonical_ite

theorem execEventFrameReceive_canonical (p : Fin 16) (m : Fin 32) (f : RxFrame) (s : State) (h_s : (s).canonical) :
    Res.canonical (execEventFrameReceive p m f s) := by
  unfold execEventFrameReceive
  repeat' first
    | with_reducible intro x
    | with_reducible assumption
    | with_reducible apply State.withSched_canonical
    | with_reducible apply State.badPhase_canonical
    | with_reducible apply State.inc_canonical
    | with_reducible apply State.holdQ_canonical
    | with_reducible apply canonical_ite
    | with_reducible apply Res.canonical_next

theorem execMgmtReplyReceive_canonical (p : Fin 16) (m : Fin 32) (f : RxFrame) (s : State) (h_s : (s).canonical) :
    Res.canonical (execMgmtReplyReceive p m f s) := by
  unfold execMgmtReplyReceive
  repeat' first
    | with_reducible intro x
    | with_reducible assumption
    | with_reducible apply State.withSched_canonical
    | with_reducible apply State.inc_canonical
    | with_reducible apply State.holdQ_canonical
    | with_reducible apply canonical_ite
    | with_reducible apply Res.canonical_next

theorem State.rangedStation_canonical (s : State) (p : Nat) (k : Commission) (g : Ranging) (h_s : (s).canonical) :
    (State.rangedStation s p k g).canonical := by
  unfold State.rangedStation
  repeat' first
    | with_reducible intro x
    | with_reducible assumption
    | with_reducible apply State.withSched_canonical
    | with_reducible apply State.modPort_canonical
    | with_reducible apply State.ev_canonical
    | with_reducible apply State.setWord_canonical
    | with_reducible apply State.setBit_canonical
    | with_reducible apply State.clearEntry_canonical
    | with_reducible apply State.stage_canonical
    | with_reducible apply canonical_ite
    | split

theorem State.rangeResult_canonical (s : State) (p : Nat) (own : Int) (other : Option Int) (h_s : (s).canonical) :
    (State.rangeResult s p own other).canonical := by
  unfold State.rangeResult
  repeat' first
    | with_reducible assumption
    | with_reducible apply State.modPort_canonical
    | with_reducible apply State.rangedStation_canonical
    | with_reducible apply canonical_ite
    | split

theorem execRangingReplyReceive_canonical (p : Fin 16) (m : Fin 32) (f : RxFrame) (other : Option Nat) (s : State) (h_s : (s).canonical) :
    Res.canonical (execRangingReplyReceive p m f other s) := by
  unfold execRangingReplyReceive
  repeat' first
    | with_reducible intro x
    | with_reducible assumption
    | with_reducible apply State.withSched_canonical
    | with_reducible apply State.inc_canonical
    | with_reducible apply State.holdQ_canonical
    | with_reducible apply State.rangeResult_canonical
    | with_reducible apply canonical_ite
    | with_reducible apply Res.canonical_next
    | (extract_lets +onlyGivenNames x; have hx : State.canonical x := ?_; clear_value x)
    | (extract_lets +onlyGivenNames x; clear_value x)
    | split

theorem State.makeCurrent_canonical (s : State) (p : Nat) (c : Sched) (h_s : (s).canonical) :
    (State.makeCurrent s p c).canonical := by
  unfold State.makeCurrent
  repeat' first
    | with_reducible intro x
    | with_reducible assumption
    | with_reducible apply State.modPort_canonical
    | with_reducible apply State.setWord_canonical
    | with_reducible apply State.setBit_canonical
    | with_reducible apply State.each_canonical
    | with_reducible apply State.setFld_canonical
    | with_reducible apply State.countStations_canonical
    | with_reducible apply canonical_ite

theorem State.schedSwitch_canonical (s : State) (p : Fin 16) (h_s : (s).canonical) :
    (State.schedSwitch s p).canonical := by
  unfold State.schedSwitch
  repeat' first
    | with_reducible assumption
    | with_reducible apply State.makeCurrent_canonical
    | with_reducible apply State.modPort_canonical
    | with_reducible apply State.ev_canonical
    | with_reducible apply State.gaugeRec_canonical
    | with_reducible apply State.finishTag_canonical
    | with_reducible apply canonical_ite
    | (extract_lets +onlyGivenNames x; have hx : State.canonical x := ?_; clear_value x)
    | (extract_lets +onlyGivenNames x; have _ : KprS := x; simp only [x]; clear x)
    | (extract_lets +onlyGivenNames x; clear_value x)
    | (simp only [↓State.canonical_mk]; with_reducible apply State.canonical_parts)
    | split

theorem execSchedSwitch_canonical (p : Fin 16) (s : State) (h_s : (s).canonical) :
    Res.canonical (execSchedSwitch p s) := by
  unfold execSchedSwitch
  repeat' first | with_reducible assumption | with_reducible apply State.schedSwitch_canonical | with_reducible apply Res.canonical_next

theorem execIntakeMiss_canonical (p : Fin 16) (s : State) (h_s : (s).canonical) :
    Res.canonical (execIntakeMiss p s) := by
  unfold execIntakeMiss
  repeat' first
    | with_reducible intro x
    | with_reducible assumption
    | with_reducible apply State.setBit_canonical
    | with_reducible apply State.inc_canonical
    | with_reducible apply State.modPort_canonical
    | with_reducible apply State.setPmByte_canonical
    | with_reducible apply State.when_canonical
    | with_reducible apply State.ev_canonical
    | with_reducible apply Res.canonical_next
    | (extract_lets +onlyGivenNames x; have hx : State.canonical x := ?_; clear_value x)
    | (extract_lets +onlyGivenNames x; clear_value x)
    | split

end Sys2Proof.Machine
end

