-- ==== Sys2Proof/Laws/CanonStnUpd.lean ====
section
/-!
SUPPORT. Every function of Machine/StnUpd.lean keeps the canonical form of State.
-/

set_option linter.all false

namespace Sys2Proof.Machine

theorem State.setMap_canonical (s : State) (base addr : Nat) (h_s : (s).canonical) :
    (State.setMap s base addr).canonical := by
  unfold State.setMap
  repeat' first | with_reducible assumption | with_reducible apply State.setBit_canonical

theorem State.drawEta_canonical (s : State) (p : Nat) (h_s : (s).canonical) :
    (State.drawEta s p).canonical := by
  unfold State.drawEta
  repeat' first | with_reducible assumption | with_reducible apply State.drawWord_canonical | with_reducible apply State.setWord_canonical | with_reducible apply canonical_ite

theorem State.fillServes_canonical (s : State) (p : Nat) (h_s : (s).canonical) :
    (State.fillServes s p).canonical := by
  unfold State.fillServes
  repeat' first
    | with_reducible intro x
    | with_reducible assumption
    | with_reducible apply State.each_canonical
    | with_reducible apply State.setFld_canonical
    | with_reducible apply State.modPort_canonical
    | with_reducible apply State.setWord_canonical

theorem State.stnFinish_canonical (s : State) (p state : Nat) (h_s : (s).canonical) :
    (State.stnFinish s p state).canonical := by
  unfold State.stnFinish
  repeat' first
    | with_reducible assumption
    | with_reducible apply State.setFld_canonical
    | with_reducible apply State.setWord_canonical
    | with_reducible apply State.respond_canonical
    | (simp only [x, ↓State.canonical_mk]; with_reducible apply State.canonical_parts)
    | (extract_lets +onlyGivenNames x; have hx : State.canonical x := ?_; clear_value x)
    | (extract_lets +onlyGivenNames x; clear_value x)
    | split

theorem State.stnEnd_canonical (s : State) (p addr state cause : Nat) (h_s : (s).canonical) :
    (State.stnEnd s p addr state cause).canonical := by
  unfold State.stnEnd
  repeat' first
    | with_reducible assumption
    | with_reducible apply State.setFld_canonical
    | with_reducible apply State.modPort_canonical
    | with_reducible apply State.inc_canonical
    | with_reducible apply State.setMap_canonical
    | with_reducible apply State.setWord_canonical
    | with_reducible apply State.ev_canonical
    | with_reducible apply State.fillServes_canonical
    | with_reducible apply State.drawEta_canonical
    | with_reducible apply State.stnFinish_canonical
    | with_reducible apply canonical_ite

theorem State.holdPkg_canonical (s : State) (hash : List Byte) (k : StnPkg) (h_s : (s).canonical) :
    (State.holdPkg s hash k).canonical := by
  unfold State.holdPkg
  repeat' first
    | with_reducible intro x
    | with_reducible assumption
    | with_reducible apply State.each_canonical
    | with_reducible apply State.setBit_canonical
    | with_reducible apply State.setWord_canonical
    | with_reducible apply State.setFld_canonical
    | with_reducible apply canonical_ite
    | (extract_lets +onlyGivenNames x; clear_value x)
    | (simp only [↓State.canonical_mk]; with_reducible apply State.canonical_parts)

theorem State.stnTakeUp_canonical (s : State) (j : StnJournal) (h_s : (s).canonical) :
    (State.stnTakeUp s j).canonical := by
  unfold State.stnTakeUp
  repeat' first
    | with_reducible intro x
    | with_reducible assumption
    | with_reducible apply State.each_canonical
    | with_reducible apply State.setWords_canonical
    | with_reducible apply State.setFld_canonical
    | with_reducible apply State.modPort_canonical
    | with_reducible apply State.setBit_canonical
    | with_reducible apply State.setWord_canonical
    | with_reducible apply State.fillServes_canonical
    | with_reducible apply State.ev_canonical
    | with_reducible apply canonical_ite

theorem State.stnResume_canonical (s : State) (h_s : (s).canonical) :
    (State.stnResume s).canonical := by
  unfold State.stnResume
  repeat' first
    | with_reducible intro x
    | with_reducible assumption
    | with_reducible apply State.each_canonical
    | with_reducible apply State.stnTakeUp_canonical
    | with_reducible apply State.setFld_canonical
    | with_reducible apply State.setBit_canonical
    | with_reducible apply canonical_ite
    | (simp only [x, ↓State.canonical_mk]; with_reducible apply State.canonical_parts)
    | (simp only [x]; split)

theorem execStnStage_canonical (rq : Rq) (hash : List Byte) (signed : Bool) (pkg : StnPkg) (s : State) (h_s : (s).canonical) :
    Res.canonical (execStnStage rq hash signed pkg s) := by
  unfold execStnStage
  repeat' first
    | with_reducible intro x
    | with_reducible assumption
    | with_reducible apply State.cmd_canonical
    | with_reducible apply State.respond_canonical
    | with_reducible apply State.bg_canonical
    | with_reducible apply State.ev_canonical
    | with_reducible apply State.dropObject_canonical
    | with_reducible apply State.holdPkg_canonical
    | with_reducible apply State.when_canonical
    | with_reducible apply State.message_canonical
    | with_reducible apply State.stnResume_canonical
    | with_reducible apply canonical_ite
    | with_reducible apply Res.canonical_next
    | (simp only [x]; split)

theorem execStnStart_canonical (rq : Rq) (p : Fin 16) (s : State) (h_s : (s).canonical) :
    Res.canonical (execStnStart rq p s) := by
  unfold execStnStart
  repeat' first
    | with_reducible intro x
    | with_reducible assumption
    | with_reducible apply State.cmd_canonical
    | with_reducible apply State.relay_canonical
    | with_reducible apply State.respond_canonical
    | with_reducible apply State.starting_canonical
    | with_reducible apply State.each_canonical
    | with_reducible apply State.setWords_canonical
    | with_reducible apply State.setWord_canonical
    | with_reducible apply State.set64_canonical
    | with_reducible apply State.setFld_canonical
    | with_reducible apply State.setBit_canonical
    | with_reducible apply State.accept_canonical
    | with_reducible apply State.ev_canonical
    | with_reducible apply State.inc_canonical
    | with_reducible apply State.setMap_canonical
    | with_reducible apply State.fillServes_canonical
    | with_reducible apply State.drawEta_canonical
    | with_reducible apply State.stnFinish_canonical
    | with_reducible apply canonical_ite
    | with_reducible apply Res.canonical_next
    | (simp only [x, ↓State.canonical_mk]; with_reducible apply State.canonical_parts)
    | (simp only [x]; split)

theorem execStnStop_canonical (rq : Rq) (p : Fin 16) (s : State) (h_s : (s).canonical) :
    Res.canonical (execStnStop rq p s) := by
  unfold execStnStop
  repeat' first
    | with_reducible intro x
    | with_reducible assumption
    | with_reducible apply State.cmd_canonical
    | with_reducible apply State.relay_canonical
    | with_reducible apply State.respond_canonical
    | with_reducible apply State.stnFinish_canonical
    | with_reducible apply State.modPort_canonical
    | with_reducible apply State.setWord_canonical
    | with_reducible apply canonical_ite
    | with_reducible apply Res.canonical_next

theorem execStnDiscard_canonical (rq : Rq) (hash : List Byte) (s : State) (h_s : (s).canonical) :
    Res.canonical (execStnDiscard rq hash s) := by
  unfold execStnDiscard
  repeat' first
    | with_reducible intro x
    | with_reducible assumption
    | with_reducible apply State.cmd_canonical
    | with_reducible apply State.respond_canonical
    | with_reducible apply State.each_canonical
    | with_reducible apply State.setBit_canonical
    | with_reducible apply State.setWord_canonical
    | with_reducible apply State.setFld_canonical
    | with_reducible apply canonical_ite
    | with_reducible apply Res.canonical_next
    | (simp only [x, ↓State.canonical_mk]; with_reducible apply State.canonical_parts)

theorem execStationDistributionFrame_canonical (p : Fin 16) (s : State) (h_s : (s).canonical) :
    Res.canonical (execStationDistributionFrame p s) := by
  unfold execStationDistributionFrame
  repeat' first
    | with_reducible intro x
    | with_reducible assumption
    | with_reducible apply State.withSched_canonical
    | with_reducible apply State.inc_canonical
    | with_reducible apply State.when_canonical
    | with_reducible apply State.setFld_canonical
    | with_reducible apply State.modPort_canonical
    | with_reducible apply Res.canonical_next
    | (extract_lets +onlyGivenNames x; clear_value x)
    | split

theorem State.setServe_canonical (s : State) (p : Nat) (y : Serve) (h_s : (s).canonical) :
    (State.setServe s p y).canonical := by
  unfold State.setServe
  repeat' first | with_reducible assumption | with_reducible apply State.modPort_canonical

theorem State.updReply_canonical (s : State) (p : Nat) (x : Serve) (payload : List Byte) (h_s : (s).canonical) :
    (State.updReply s p x payload).canonical := by
  unfold State.updReply
  repeat' first
    | with_reducible intro x
    | with_reducible assumption
    | with_reducible apply State.modPort_canonical
    | with_reducible apply State.stnEnd_canonical
    | with_reducible apply State.setFld_canonical
    | with_reducible apply State.setServe_canonical
    | with_reducible apply State.incBy_canonical
    | with_reducible apply State.when_canonical
    | with_reducible apply canonical_ite
    | (extract_lets +onlyGivenNames x; have hx : State.canonical x := ?_; clear_value x)
    | (extract_lets +onlyGivenNames x; have hx : ∀ s : State, State.canonical s → State.canonical (x s) := ?_; clear_value x)
    | (extract_lets +onlyGivenNames x; clear_value x)
    | split
    | with_reducible apply_assumption

theorem State.updAgree_canonical (s : State) (p k : Nat) (replies : List (Nat × List Byte)) (h_s : (s).canonical) :
    (State.updAgree s p k replies).canonical := by
  unfold State.updAgree
  repeat' first
    | with_reducible intro x
    | with_reducible assumption
    | with_reducible apply State.each_canonical
    | with_reducible apply State.modPort_canonical
    | with_reducible apply State.updReply_canonical
    | with_reducible apply State.stnEnd_canonical
    | with_reducible apply State.setServe_canonical
    | with_reducible apply canonical_ite
    | split

theorem State.updNotice_canonical (s : State) (p addr level : Nat) (h_s : (s).canonical) :
    (State.updNotice s p addr level).canonical := by
  unfold State.updNotice
  repeat' first
    | with_reducible assumption
    | with_reducible apply State.setFld_canonical
    | with_reducible apply State.stnEnd_canonical
    | with_reducible apply canonical_ite
    | (extract_lets +onlyGivenNames x; have hx : State.canonical x := ?_; clear_value x)
    | split

theorem State.updAbsent_canonical (s : State) (p : Nat) (h_s : (s).canonical) :
    (State.updAbsent s p).canonical := by
  unfold State.updAbsent
  repeat' first | with_reducible assumption | with_reducible apply State.modPort_canonical

theorem execUpdVerifyPoll_canonical (p : Fin 16) (s : State) (h_s : (s).canonical) :
    Res.canonical (execUpdVerifyPoll p s) := by
  unfold execUpdVerifyPoll
  repeat' first | with_reducible assumption | with_reducible apply State.modPort_canonical | with_reducible apply Res.canonical_next

theorem execStnAbsentTimeout_canonical (p : Fin 16) (s : State) (h_s : (s).canonical) :
    Res.canonical (execStnAbsentTimeout p s) := by
  unfold execStnAbsentTimeout
  repeat' first
    | with_reducible intro x
    | with_reducible assumption
    | with_reducible apply State.each_canonical
    | with_reducible apply State.stnEnd_canonical
    | with_reducible apply Res.canonical_next

theorem execStnVerifyTimeout_canonical (p : Fin 16) (s : State) (h_s : (s).canonical) :
    Res.canonical (execStnVerifyTimeout p s) := by
  unfold execStnVerifyTimeout
  repeat' first
    | with_reducible intro x
    | with_reducible assumption
    | with_reducible apply State.each_canonical
    | with_reducible apply State.stnEnd_canonical
    | with_reducible apply Res.canonical_next

theorem execStnActivateTimeout_canonical (p : Fin 16) (s : State) (h_s : (s).canonical) :
    Res.canonical (execStnActivateTimeout p s) := by
  unfold execStnActivateTimeout
  repeat' first
    | with_reducible intro x
    | with_reducible assumption
    | with_reducible apply State.each_canonical
    | with_reducible apply State.stnEnd_canonical
    | with_reducible apply Res.canonical_next

theorem State.stnJournals_canonical (s : State) (h_s : (s).canonical) :
    (State.stnJournals s).canonical := by
  unfold State.stnJournals
  repeat' first
    | with_reducible intro x
    | with_reducible assumption
    | with_reducible apply State.each_canonical
    | with_reducible apply State.when_canonical
    | with_reducible apply State.message_canonical
    | with_reducible apply canonical_ite
    | (simp only [x, ↓State.canonical_mk]; with_reducible apply State.canonical_parts)

end Sys2Proof.Machine
end

