-- ==== Sys2Proof/Laws/CanonPairFlow.lean ====
section
/-!
SUPPORT. Every function of Machine/PairFlow.lean keeps the canonical form of State.
-/

set_option linter.all false

namespace Sys2Proof.Machine

theorem State.abandonHandover_canonical (s : State) (h_s : (s).canonical) :
    (State.abandonHandover s).canonical := by
  unfold State.abandonHandover
  repeat' first
    | with_reducible assumption
    | with_reducible apply State.setBit_canonical
    | with_reducible apply State.finish_canonical
    | with_reducible apply State.refusePending_canonical
    | with_reducible apply canonical_ite
    | (simp only [x, ↓State.canonical_mk]; with_reducible apply State.canonical_parts)
    | (extract_lets +onlyGivenNames x; have hx : State.canonical x := ?_; clear_value x)
    | (extract_lets +onlyGivenNames x; clear_value x)
    | (simp only [↓State.canonical_mk]; with_reducible apply State.canonical_parts)
    | split

theorem State.partnerGone_canonical (s : State) (h_s : (s).canonical) :
    (State.partnerGone s).canonical := by
  unfold State.partnerGone
  repeat' first
    | with_reducible assumption
    | with_reducible apply State.setBit_canonical
    | with_reducible apply State.abandonHandover_canonical
    | with_reducible apply State.chgTrailLost_canonical
    | with_reducible apply State.ev_canonical
    | with_reducible apply canonical_ite
    | (extract_lets +onlyGivenNames x; clear_value x)
    | (simp only [↓State.canonical_mk]; with_reducible apply State.canonical_parts)

theorem State.startHandover_canonical (s : State) (byLever : Bool) (h_s : (s).canonical) :
    (State.startHandover s byLever).canonical := by
  unfold State.startHandover
  repeat' first
    | with_reducible assumption
    | with_reducible apply State.setBit_canonical
    | with_reducible apply State.control_canonical
    | with_reducible apply canonical_ite
    | (extract_lets +onlyGivenNames x; clear_value x)
    | (simp only [↓State.canonical_mk]; with_reducible apply State.canonical_parts)

theorem State.takeOver_canonical (s : State) (h_s : (s).canonical) :
    (State.takeOver s).canonical := by
  unfold State.takeOver
  repeat' first
    | with_reducible assumption
    | with_reducible apply State.gaugeAuto_canonical
    | with_reducible apply State.takeClaim_canonical
    | with_reducible apply State.clearPairWork_canonical
    | with_reducible apply State.enterMode_canonical
    | with_reducible apply State.inc_canonical
    | with_reducible apply State.setBit_canonical
    | with_reducible apply State.chgTakeover_canonical
    | with_reducible apply State.ev_canonical
    | with_reducible apply State.stnResume_canonical
    | with_reducible apply State.dropPending_canonical
    | (extract_lets +onlyGivenNames x; clear_value x)
    | (simp only [↓State.canonical_mk]; with_reducible apply State.canonical_parts)

theorem State.heartbeatLost_canonical (s : State) (h_s : (s).canonical) :
    (State.heartbeatLost s).canonical := by
  unfold State.heartbeatLost
  repeat' first
    | with_reducible intro x
    | with_reducible assumption
    | with_reducible apply State.setBit_canonical
    | with_reducible apply State.ev_canonical
    | with_reducible apply State.when_canonical
    | with_reducible apply canonical_ite

theorem State.heard_canonical (s : State) (h_s : (s).canonical) :
    (State.heard s).canonical := by
  unfold State.heard
  repeat' first | with_reducible assumption | (extract_lets +onlyGivenNames x; clear_value x) | (simp only [↓State.canonical_mk]; with_reducible apply State.canonical_parts)

theorem State.compareWires_canonical (s : State) (h_s : (s).canonical) :
    (State.compareWires s).canonical := by
  unfold State.compareWires
  repeat' first
    | with_reducible intro x
    | with_reducible assumption
    | with_reducible apply State.each_canonical
    | with_reducible apply State.setWord_canonical
    | with_reducible apply State.inc_canonical
    | with_reducible apply canonical_ite
    | (simp only [x, ↓State.canonical_mk]; with_reducible apply State.canonical_parts)
    | (simp only [x]; split)
    | (extract_lets +onlyGivenNames x; clear_value x)
    | (simp only [↓State.canonical_mk]; with_reducible apply State.canonical_parts)
    | split

theorem State.countSilence_canonical (s : State) (h_s : (s).canonical) :
    (State.countSilence s).canonical := by
  unfold State.countSilence
  repeat' first
    | with_reducible intro x
    | with_reducible assumption
    | with_reducible apply State.each_canonical
    | with_reducible apply State.inc_canonical
    | with_reducible apply State.incFld_canonical
    | with_reducible apply State.setBit_canonical
    | with_reducible apply canonical_ite
    | (simp only [x]; split)

theorem State.diverge_canonical (s : State) (h_s : (s).canonical) :
    (State.diverge s).canonical := by
  unfold State.diverge
  repeat' first
    | with_reducible assumption
    | with_reducible apply State.inc_canonical
    | with_reducible apply State.setBit_canonical
    | with_reducible apply State.ev_canonical
    | with_reducible apply State.gaugeAuto_canonical
    | with_reducible apply State.abandonHandover_canonical
    | with_reducible apply canonical_ite
    | (simp only [x, ↓State.canonical_mk]; with_reducible apply State.canonical_parts)
    | (extract_lets +onlyGivenNames x; have hx : State.canonical x := ?_; clear_value x)
    | (extract_lets +onlyGivenNames x; clear_value x)
    | split

theorem State.ownVerdict_canonical (s : State) (h_s : (s).canonical) :
    (State.ownVerdict s).canonical := by
  unfold State.ownVerdict
  repeat' first
    | with_reducible assumption
    | with_reducible apply State.control_canonical
    | with_reducible apply canonical_ite
    | (extract_lets +onlyGivenNames x; clear_value x)
    | (simp only [↓State.canonical_mk]; with_reducible apply State.canonical_parts)
    | split

end Sys2Proof.Machine
end

