-- ==== Sys2Proof/Laws/CanonAgreeOps.lean ====
section
/-!
SUPPORT. Every function of Machine/AgreeOps.lean keeps the canonical form of State.
-/

set_option linter.all false

namespace Sys2Proof.Machine

theorem State.noteChange_canonical (s : State) (p addr cause : Nat) (h_s : (s).canonical) :
    (State.noteChange s p addr cause).canonical := by
  unfold State.noteChange
  repeat' first | with_reducible assumption | (extract_lets +onlyGivenNames x; have _ : ProgS := x; simp only [x]; clear x) | (extract_lets +onlyGivenNames x; clear_value x) | (simp only [↓State.canonical_mk]; with_reducible apply State.canonical_parts)

theorem State.stationCycle_canonical (s : State) (p addr : Nat) (valid : Bool) (h_s : (s).canonical) :
    (State.stationCycle s p addr valid).canonical := by
  unfold State.stationCycle
  repeat' first
    | with_reducible assumption
    | with_reducible apply State.setFld_canonical
    | with_reducible apply State.incFld_canonical
    | with_reducible apply State.noteChange_canonical
    | with_reducible apply canonical_ite

theorem State.stationAgree_canonical (s : State) (p addr : Nat) (frames : List (Option SlotRec)) (h_s : (s).canonical) :
    (State.stationAgree s p addr frames).canonical := by
  unfold State.stationAgree
  repeat' first
    | with_reducible assumption
    | with_reducible apply State.setBit_canonical
    | with_reducible apply State.setFld_canonical
    | with_reducible apply State.stationCycle_canonical
    | with_reducible apply canonical_ite
    | split

theorem State.unconfigured_canonical (s : State) (p addr : Nat) (h_s : (s).canonical) :
    (State.unconfigured s p addr).canonical := by
  unfold State.unconfigured
  repeat' first
    | with_reducible intro x
    | with_reducible assumption
    | with_reducible apply State.when_canonical
    | with_reducible apply State.noteChange_canonical
    | with_reducible apply State.setFld_canonical
    | with_reducible apply State.modPort_canonical
    | with_reducible apply State.countStations_canonical

theorem State.breakRuns_canonical (s : State) (p : Nat) (addrs : List Nat) (heard : Nat → Nat) (h_s : (s).canonical) :
    (State.breakRuns s p addrs heard).canonical := by
  unfold State.breakRuns
  repeat' first | with_reducible assumption | with_reducible apply State.modPort_canonical

theorem State.holdRun_canonical (s : State) (p : Nat) (addrs : List Nat) (h_s : (s).canonical) :
    (State.holdRun s p addrs).canonical := by
  unfold State.holdRun
  repeat' first
    | with_reducible assumption
    | with_reducible apply State.modPort_canonical
    | with_reducible apply State.setBit_canonical
    | with_reducible apply canonical_ite
    | (extract_lets +onlyGivenNames x; clear_value x)
    | (simp only [↓State.canonical_mk]; with_reducible apply State.canonical_parts)

theorem State.agreeTrunk_canonical (s : State) (p : Nat) (pair : Bool) (h_s : (s).canonical) :
    (State.agreeTrunk s p pair).canonical := by
  unfold State.agreeTrunk
  repeat' first
    | with_reducible intro x
    | with_reducible assumption
    | with_reducible apply State.withSched_canonical
    | with_reducible apply State.incBy_canonical
    | with_reducible apply State.modPort_canonical
    | with_reducible apply State.each_canonical
    | with_reducible apply State.stationAgree_canonical
    | with_reducible apply State.breakRuns_canonical
    | with_reducible apply State.holdRun_canonical
    | with_reducible apply State.countStations_canonical
    | with_reducible apply State.updAbsent_canonical

theorem State.publish_canonical (s : State) (p k : Nat) (h_s : (s).canonical) :
    (State.publish s p k).canonical := by
  unfold State.publish
  repeat' first
    | with_reducible intro x
    | with_reducible assumption
    | with_reducible apply State.withSched_canonical
    | with_reducible apply State.keepPm_canonical
    | with_reducible apply State.each_canonical
    | with_reducible apply State.pmPut_canonical
    | with_reducible apply State.setPmByte_canonical
    | with_reducible apply State.setPm_canonical
    | with_reducible apply State.setBit_canonical
    | with_reducible apply State.modPort_canonical
    | with_reducible apply State.gaugeRec_canonical
    | (simp only [↓State.canonical_mk]; with_reducible apply State.canonical_parts)

theorem State.rxqWrite_canonical (s : State) (p : Nat) (x : RxqIn) (h_s : (s).canonical) :
    (State.rxqWrite s p x).canonical := by
  unfold State.rxqWrite
  repeat' first
    | with_reducible assumption
    | with_reducible apply State.inc_canonical
    | with_reducible apply State.modPort_canonical
    | with_reducible apply State.setWords_canonical
    | with_reducible apply State.gaugeRec_canonical
    | with_reducible apply canonical_ite

theorem State.txqDone_canonical (s : State) (p e : Nat) (x : Option RxqIn) (h_s : (s).canonical) :
    (State.txqDone s p e x).canonical := by
  unfold State.txqDone
  repeat' first
    | with_reducible assumption
    | with_reducible apply State.txqEnd_canonical
    | with_reducible apply State.incFld_canonical
    | with_reducible apply State.setFld_canonical
    | with_reducible apply State.set64_canonical
    | with_reducible apply State.setWords_canonical
    | with_reducible apply State.gaugeRec_canonical
    | with_reducible apply canonical_ite
    | (extract_lets +onlyGivenNames x; have hx : State.canonical x := ?_; clear_value x)
    | split

theorem State.queueIntake_canonical (s : State) (p : Nat) (h_s : (s).canonical) :
    (State.queueIntake s p).canonical := by
  unfold State.queueIntake
  repeat' first
    | with_reducible intro x
    | with_reducible assumption
    | with_reducible apply State.modPort_canonical
    | with_reducible apply State.each_canonical
    | with_reducible apply State.rxqWrite_canonical
    | with_reducible apply State.txqDone_canonical

theorem State.serialHeard_canonical (s : State) (p addr : Nat) (serial : U32) (level : Nat) (h_s : (s).canonical) :
    (State.serialHeard s p addr serial level).1.canonical := by
  unfold State.serialHeard
  repeat' first
    | with_reducible assumption
    | with_reducible apply State.modPort_canonical
    | with_reducible apply State.setWord_canonical
    | with_reducible apply State.declareDuplicate_canonical
    | (extract_lets +onlyGivenNames x; have hx : State.canonical x := ?_; clear_value x)
    | (extract_lets +onlyGivenNames x; clear_value x)
    | split

theorem State.strangerHeard_canonical (s : State) (p : Nat) (r : QRec) (h_s : (s).canonical) :
    (State.strangerHeard s p r).canonical := by
  unfold State.strangerHeard
  repeat' first
    | with_reducible intro x
    | with_reducible assumption
    | with_reducible apply State.keeperRequest_canonical
    | with_reducible apply State.enterStranger_canonical
    | with_reducible apply State.when_canonical
    | with_reducible apply State.ev_canonical
    | (extract_lets +onlyGivenNames x; have hx : State.canonical x := ?_; clear_value x)
    | (extract_lets +onlyGivenNames x; clear_value x)
    | split

theorem State.noticeHeard_canonical (s : State) (p : Nat) (r : QRec) (h_s : (s).canonical) :
    (State.noticeHeard s p r).canonical := by
  unfold State.noticeHeard
  repeat' first
    | with_reducible intro x
    | with_reducible assumption
    | with_reducible apply State.serialHeard_canonical
    | with_reducible apply State.setFld_canonical
    | with_reducible apply State.updNotice_canonical
    | with_reducible apply State.unconfigured_canonical
    | with_reducible apply State.withSched_canonical
    | with_reducible apply State.sendConfig_canonical
    | with_reducible apply canonical_ite

theorem State.kreqDrop_canonical (s : State) (p : Nat) (k : KReq) (rest : Bool) (h_s : (s).canonical) :
    (State.kreqDrop s p k rest).canonical := by
  unfold State.kreqDrop
  repeat' first | with_reducible assumption | with_reducible apply State.modPort_canonical

theorem State.kreqAnswer_canonical (s : State) (p : Nat) (k : KReq) (status detail : Nat) (h_s : (s).canonical) :
    (State.kreqAnswer s p k status detail).canonical := by
  delta State.kreqAnswer
  generalize k.origin = o
  cases o
  case mailbox mb tag =>
    apply canonical_ite
    · generalize (s.port p).cur = c
      cases c
      · exact State.finishTag_canonical _ _ _ _ _ _ _ h_s
      · exact State.sendConfig_canonical _ _ _ _ _ h_s
    · apply canonical_ite
      · exact h_s
      · exact State.finishTag_canonical _ _ _ _ _ _ _ h_s
  case commission => exact State.modPort_canonical _ _ _ h_s
  all_goals exact h_s

theorem State.kreqReply_canonical (s : State) (p : Nat) (k : KReq) (r : QRec) (h_s : (s).canonical) :
    (State.kreqReply s p k r).canonical := by
  unfold State.kreqReply
  repeat' first
    | with_reducible intro x
    | with_reducible assumption
    | with_reducible apply State.kreqDrop_canonical
    | with_reducible apply State.kreqAnswer_canonical
    | with_reducible apply State.serialHeard_canonical
    | with_reducible apply State.setFld_canonical
    | with_reducible apply State.modPort_canonical
    | with_reducible apply State.withSched_canonical
    | with_reducible apply State.sendConfig_canonical
    | with_reducible apply canonical_ite
    | (extract_lets +onlyGivenNames x; clear_value x)
    | split

theorem State.kreqSilent_canonical (s : State) (p : Nat) (k : KReq) (h_s : (s).canonical) :
    (State.kreqSilent s p k).canonical := by
  unfold State.kreqSilent
  repeat' first
    | with_reducible assumption
    | with_reducible apply State.modPort_canonical
    | with_reducible apply State.kreqDrop_canonical
    | with_reducible apply State.ev_canonical
    | with_reducible apply State.kreqAnswer_canonical
    | with_reducible apply canonical_ite

theorem State.agreeSilent_canonical (s : State) (p k : Nat) (answered : List Nat) (h_s : (s).canonical) :
    (State.agreeSilent s p k answered).canonical := by
  unfold State.agreeSilent
  repeat' first
    | with_reducible intro x
    | with_reducible assumption
    | with_reducible apply State.each_canonical
    | with_reducible apply State.modPort_canonical
    | with_reducible apply State.kreqSilent_canonical
    | with_reducible apply canonical_ite

theorem State.rangeSilent_canonical (s : State) (p k : Nat) (h_s : (s).canonical) :
    (State.rangeSilent s p k).canonical := by
  unfold State.rangeSilent
  repeat' first | with_reducible assumption | with_reducible apply State.modPort_canonical | with_reducible apply canonical_ite | split

theorem State.agreeEvents_canonical (s : State) (p k : Nat) (pair : Bool) (h_s : (s).canonical) :
    (State.agreeEvents s p k pair).canonical := by
  unfold State.agreeEvents
  repeat' first
    | with_reducible intro x
    | with_reducible assumption
    | with_reducible apply State.incBy_canonical
    | with_reducible apply State.each_canonical
    | with_reducible apply State.modPort_canonical
    | with_reducible apply State.strangerHeard_canonical
    | with_reducible apply State.noticeHeard_canonical
    | with_reducible apply State.kreqReply_canonical
    | with_reducible apply State.updAgree_canonical
    | with_reducible apply State.agreeSilent_canonical
    | with_reducible apply State.rangeSilent_canonical
    | with_reducible apply canonical_ite
    | (simp only [x]; split)
    | split

theorem State.commBegin_canonical (s : State) (p phase : Nat) (h_s : (s).canonical) :
    (State.commBegin s p phase).canonical := by
  unfold State.commBegin
  repeat' first
    | with_reducible intro x
    | with_reducible assumption
    | with_reducible apply State.each_canonical
    | with_reducible apply State.keeperRequest_canonical
    | with_reducible apply State.modPort_canonical
    | with_reducible apply State.withSched_canonical
    | with_reducible apply State.sendConfig_canonical
    | (extract_lets +onlyGivenNames x; clear_value x)
    | split

theorem State.commStep_canonical (s : State) (p : Nat) (h_s : (s).canonical) :
    (State.commStep s p).canonical := by
  unfold State.commStep
  repeat' first
    | with_reducible assumption
    | with_reducible apply State.modPort_canonical
    | with_reducible apply State.commBegin_canonical
    | with_reducible apply State.finishTag_canonical
    | with_reducible apply canonical_ite
    | (extract_lets +onlyGivenNames x; clear_value x)
    | split

end Sys2Proof.Machine
end

