-- ==== Sys2Proof/Laws/CanonRecOps.lean ====
section
/-!
SUPPORT. Every function of Machine/RecOps.lean keeps the canonical form of State.
-/

set_option linter.all false

namespace Sys2Proof.Machine

theorem State.putRec_canonical (s : State) (c n : Nat) (r : Rec) (h_s : (s).canonical) :
    (State.putRec s c n r).canonical := by
  unfold State.putRec
  repeat' first | with_reducible assumption | (extract_lets +onlyGivenNames x; clear_value x) | (simp only [↓State.canonical_mk]; with_reducible apply State.canonical_parts)

theorem State.setBucket_canonical (s : State) (c : Nat) (code : U16) (b : Nat × Nat × Nat) (h_s : (s).canonical) :
    (State.setBucket s c code b).canonical := by
  unfold State.setBucket
  repeat' first | with_reducible assumption | (extract_lets +onlyGivenNames x; clear_value x) | (simp only [↓State.canonical_mk]; with_reducible apply State.canonical_parts)

theorem State.floodSums_canonical (s : State) (h_s : (s).canonical) :
    (State.floodSums s).canonical := by
  unfold State.floodSums
  repeat' first
    | with_reducible intro x
    | with_reducible assumption
    | with_reducible apply State.each_canonical
    | with_reducible apply State.setBit_canonical
    | with_reducible apply State.setWord_canonical

theorem State.rateChange_canonical (s : State) (c : Nat) (f : State → State) (h_s : (s).canonical) (h_f : ∀ (y0 : State), (y0).canonical → (f y0).canonical) :
    (State.rateChange s c f).canonical := by
  unfold State.rateChange
  repeat' first
    | with_reducible intro x
    | with_reducible assumption
    | with_reducible apply h_f
    | with_reducible apply State.each_canonical
    | with_reducible apply State.setBucket_canonical

theorem State.setLastRec_canonical (s : State) (c : Nat) (r : Rec) (h_s : (s).canonical) :
    (State.setLastRec s c r).canonical := by
  unfold State.setLastRec
  repeat' first
    | with_reducible assumption
    | with_reducible apply State.putRec_canonical
    | with_reducible apply canonical_ite
    | (extract_lets +onlyGivenNames x; clear_value x)
    | (simp only [↓State.canonical_mk]; with_reducible apply State.canonical_parts)

theorem State.queueRec_canonical (s : State) (c : Nat) (r : Rec) (h_s : (s).canonical) :
    (State.queueRec s c r).canonical := by
  unfold State.queueRec
  repeat' first
    | with_reducible assumption
    | with_reducible apply State.setWord_canonical
    | with_reducible apply State.set64_canonical
    | with_reducible apply State.maxWord_canonical
    | (extract_lets +onlyGivenNames x; clear_value x)
    | (simp only [↓State.canonical_mk]; with_reducible apply State.canonical_parts)

theorem State.takeRaised_canonical (s : State) (r : Raised) (h_s : (s).canonical) :
    (State.takeRaised s r).canonical := by
  unfold State.takeRaised
  repeat' first
    | with_reducible assumption
    | with_reducible apply State.set64_canonical
    | with_reducible apply State.setLastRec_canonical
    | with_reducible apply State.inc_canonical
    | with_reducible apply State.setBit_canonical
    | with_reducible apply State.setBucket_canonical
    | with_reducible apply State.floodSums_canonical
    | with_reducible apply State.queueRec_canonical
    | with_reducible apply canonical_ite
    | (simp only [x, ↓State.canonical_mk]; with_reducible apply State.canonical_parts)
    | (extract_lets +onlyGivenNames x; have hx : State.canonical x := ?_; clear_value x)
    | (extract_lets +onlyGivenNames x; clear_value x)
    | (simp only [↓State.canonical_mk]; with_reducible apply State.canonical_parts)
    | split

theorem State.admitAll_canonical (s : State) (h_s : (s).canonical) :
    (State.admitAll s).canonical := by
  unfold State.admitAll
  repeat' first
    | with_reducible intro x
    | with_reducible assumption
    | with_reducible apply State.each_canonical
    | with_reducible apply State.takeRaised_canonical
    | (extract_lets +onlyGivenNames x; clear_value x)
    | (simp only [↓State.canonical_mk]; with_reducible apply State.canonical_parts)

theorem State.notify_canonical (s : State) (c n : Nat) (r : Rec) (h_s : (s).canonical) :
    (State.notify s c n r).canonical := by
  unfold State.notify
  repeat' first
    | with_reducible intro x
    | with_reducible assumption
    | with_reducible apply State.each_canonical
    | with_reducible apply State.inc_canonical
    | with_reducible apply State.setBit_canonical
    | with_reducible apply State.unsolicited_canonical
    | with_reducible apply canonical_ite

theorem State.recSums_canonical (s : State) (c : Nat) (h_s : (s).canonical) :
    (State.recSums s c).canonical := by
  unfold State.recSums
  repeat' first | with_reducible assumption | with_reducible apply State.set64_canonical | with_reducible apply State.setWord_canonical

theorem State.writeRec_canonical (s : State) (h_s : (s).canonical) :
    (State.writeRec s).canonical := by
  unfold State.writeRec
  repeat' first
    | with_reducible intro x
    | with_reducible assumption
    | with_reducible apply State.putRec_canonical
    | with_reducible apply State.set64_canonical
    | with_reducible apply State.recSums_canonical
    | with_reducible apply State.maxWord_canonical
    | with_reducible apply State.when_canonical
    | with_reducible apply State.inc_canonical
    | with_reducible apply State.setWord_canonical
    | with_reducible apply State.setBit_canonical
    | with_reducible apply State.evFixed_canonical
    | with_reducible apply State.notify_canonical
    | with_reducible apply canonical_ite
    | (extract_lets +onlyGivenNames x; clear_value x)
    | (simp only [↓State.canonical_mk]; with_reducible apply State.canonical_parts)
    | split

theorem State.writeRecs_canonical (s : State) (z0 : Nat) (h_s : (s).canonical) :
    (State.writeRecs s z0).canonical := by
  induction z0 generalizing s with
  | zero => exact h_s
  | succ n ih => exact ih _ (State.writeRec_canonical _ h_s)

theorem State.recStep_canonical (s : State) (time us : Nat) (h_s : (s).canonical) :
    (State.recStep s time us).canonical := by
  unfold State.recStep
  repeat' first | with_reducible assumption | with_reducible apply State.writeRecs_canonical | with_reducible apply State.maxWord_canonical

theorem State.openHeadwater_canonical (s : State) (h_s : (s).canonical) :
    (State.openHeadwater s).canonical := by
  unfold State.openHeadwater
  repeat' first
    | with_reducible intro x
    | with_reducible assumption
    | with_reducible apply State.each_canonical
    | with_reducible apply State.setBit_canonical
    | with_reducible apply State.set64_canonical
    | with_reducible apply State.setWord_canonical
    | (extract_lets +onlyGivenNames x; clear_value x)
    | (simp only [↓State.canonical_mk]; with_reducible apply State.canonical_parts)

theorem State.recStart_canonical (s : State) (h_s : (s).canonical) :
    (State.recStart s).canonical := by
  unfold State.recStart
  repeat' first
    | with_reducible intro x
    | with_reducible assumption
    | with_reducible apply State.each_canonical
    | with_reducible apply State.setWord_canonical
    | with_reducible apply State.set64_canonical
    | with_reducible apply State.recSums_canonical
    | with_reducible apply State.inc_canonical
    | with_reducible apply State.floodSums_canonical
    | with_reducible apply canonical_ite
    | (extract_lets +onlyGivenNames x; clear_value x)
    | (simp only [↓State.canonical_mk]; with_reducible apply State.canonical_parts)

theorem State.recScan_canonical (s : State) (h_s : (s).canonical) :
    (State.recScan s).canonical := by
  unfold State.recScan
  repeat' first
    | with_reducible intro x
    | with_reducible assumption
    | with_reducible apply State.each_canonical
    | with_reducible apply State.inc_canonical
    | with_reducible apply State.setBit_canonical
    | with_reducible apply State.evFixed_canonical
    | with_reducible apply State.setWord_canonical

theorem State.recUpset_canonical (s : State) (c n : Nat) (h_s : (s).canonical) :
    (State.recUpset s c n).canonical := by
  unfold State.recUpset
  repeat' first | with_reducible assumption | with_reducible apply State.putRec_canonical | with_reducible apply canonical_ite

end Sys2Proof.Machine
end

