-- ==== Sys2Proof/Laws/CanonApply.lean ====
section
/-!
SUPPORT. Every function of Machine/Apply.lean keeps the canonical form of State.
-/

set_option linter.all false

namespace Sys2Proof.Machine

theorem State.paramEffect_canonical (s : State) (id : Nat) (old v : U32) (h_s : (s).canonical) :
    (State.paramEffect s id old v).canonical := by
  unfold State.paramEffect
  repeat' first
    | with_reducible assumption
    | with_reducible apply State.modPort_canonical
    | with_reducible apply State.cuPortLost_canonical
    | with_reducible apply State.setBit_canonical
    | with_reducible apply State.evFixed_canonical
    | with_reducible apply State.portConnsLost_canonical
    | with_reducible apply canonical_ite

theorem State.applyParam_canonical (s : State) (id : Nat) (v : U32) (h_s : (s).canonical) :
    (State.applyParam s id v).canonical := by
  delta State.applyParam
  generalize paramRow id = o
  cases o with
  | none => exact h_s
  | some r =>
    dsimp only
    generalize r.acc = a
    cases a with
    | ro => exact h_s
    | w1c => exact State.setWord_canonical _ _ _ h_s
    | rw =>
      apply canonical_ite
      · exact State.pendRestart_canonical _ _ _ h_s
      · apply State.paramEffect_canonical
        apply canonical_ite
        · exact State.rateChange_canonical _ _ _ h_s (fun t ht => State.setWord_canonical _ _ _ ht)
        · exact State.setWord_canonical _ _ _ h_s

theorem State.rateChanges_canonical (s : State) (key : Nat) (v : U32) (z0 : Nat) (h_s : (s).canonical) :
    (State.rateChanges s key v z0).canonical := by
  induction z0 generalizing s with
  | zero => exact State.setWord_canonical _ _ _ h_s
  | succ n ih => exact State.rateChange_canonical _ _ _ h_s (fun t ht => ih t ht)

theorem State.applyTable_canonical (s : State) (tid e w : Nat) (v : U32) (h_s : (s).canonical) :
    (State.applyTable s tid e w v).canonical := by
  unfold State.applyTable
  repeat' first
    | with_reducible assumption
    | with_reducible apply State.modPort_canonical
    | with_reducible apply State.setWord_canonical
    | with_reducible apply State.gaugeRec_canonical
    | with_reducible apply State.modDio_canonical
    | with_reducible apply State.rateChanges_canonical
    | with_reducible apply canonical_ite
    | (extract_lets +onlyGivenNames x; have hx : State.canonical x := ?_; clear_value x)
    | (extract_lets +onlyGivenNames x; clear_value x)
    | split

theorem State.applySets_canonical (s : State) (p : Nat) (h_s : (s).canonical) :
    (State.applySets s p).canonical := by
  unfold State.applySets
  repeat' first
    | with_reducible intro x
    | with_reducible assumption
    | with_reducible apply State.modPort_canonical
    | with_reducible apply State.each_canonical
    | with_reducible apply State.setWord_canonical
    | with_reducible apply State.setFld_canonical
    | with_reducible apply State.refreshReady_canonical
    | with_reducible apply canonical_ite

theorem State.clearCounter_canonical (s : State) (id : Nat) (h_s : (s).canonical) :
    (State.clearCounter s id).canonical := by
  unfold State.clearCounter
  repeat' first
    | with_reducible intro x
    | with_reducible assumption
    | with_reducible apply State.setWords_canonical
    | with_reducible apply State.setWord_canonical
    | with_reducible apply State.each_canonical
    | with_reducible apply canonical_ite
    | split

theorem State.applyItem_canonical (s : State) (rq : Option Rq) (it : StagedItem) (h_s : (s).canonical) :
    (State.applyItem s rq it).canonical := by
  unfold State.applyItem
  repeat' first
    | with_reducible assumption
    | with_reducible apply State.applyParam_canonical
    | with_reducible apply State.ev_canonical
    | with_reducible apply State.applyTable_canonical
    | with_reducible apply State.clearCounter_canonical
    | with_reducible apply State.setBit_canonical
    | with_reducible apply State.faultSums_canonical
    | with_reducible apply State.setWord_canonical
    | with_reducible apply State.clearEntry_canonical
    | with_reducible apply State.keeperRequest_canonical
    | with_reducible apply State.takeClaim_canonical
    | with_reducible apply State.suspend_canonical
    | with_reducible apply State.gaugeRec_canonical
    | with_reducible apply State.restoreSettings_canonical
    | with_reducible apply canonical_ite
    | (extract_lets +onlyGivenNames x; have _ : FioS := x; simp only [x]; clear x)
    | (simp only [↓State.canonical_mk]; with_reducible apply State.canonical_parts)
    | split

theorem State.configChanged_canonical (s : State) (h_s : (s).canonical) :
    (State.configChanged s).canonical := by
  unfold State.configChanged
  repeat' first
    | with_reducible assumption
    | with_reducible apply State.setWord_canonical
    | with_reducible apply State.setBit_canonical
    | with_reducible apply State.gaugeRec_canonical
    | with_reducible apply canonical_ite

theorem State.changeDone_canonical (s : State) (c : StagedChange) (h_s : (s).canonical) :
    (State.changeDone s c).canonical := by
  unfold State.changeDone
  repeat' first | with_reducible assumption | with_reducible apply State.respond_canonical | with_reducible apply canonical_ite | split

theorem State.applyChange_canonical (s : State) (c : StagedChange) (h_s : (s).canonical) :
    (State.applyChange s c).canonical := by
  unfold State.applyChange
  repeat' first
    | with_reducible intro x
    | with_reducible assumption
    | with_reducible apply State.each_canonical
    | with_reducible apply State.applyItem_canonical
    | with_reducible apply State.when_canonical
    | with_reducible apply State.configChanged_canonical
    | with_reducible apply State.changeDone_canonical
    | (simp only [x, ↓State.canonical_mk]; with_reducible apply State.canonical_parts)

theorem State.applyDue_canonical (s : State) (due : StagedChange → Bool) (h_s : (s).canonical) :
    (State.applyDue s due).canonical := by
  unfold State.applyDue
  repeat' first
    | with_reducible intro x
    | with_reducible assumption
    | with_reducible apply State.each_canonical
    | with_reducible apply State.applyChange_canonical
    | (extract_lets +onlyGivenNames x; have _ : KprS := x; simp only [x]; clear x)
    | (simp only [↓State.canonical_mk]; with_reducible apply State.canonical_parts)

end Sys2Proof.Machine
end

