-- ==== Sys2Proof/Laws/CanonGuards.lean ====
section
/-!
SUPPORT. Every function of Machine/Guards.lean keeps the canonical form of State.
-/

set_option linter.all false

namespace Sys2Proof.Machine

theorem State.regionError_canonical (s : State) (n e : Nat) (z0 : RegionError) (h_s : (s).canonical) :
    (State.regionError s n e z0).canonical := by
  unfold State.regionError
  repeat' first
    | with_reducible assumption
    | with_reducible apply State.inc_canonical
    | with_reducible apply State.setBit_canonical
    | with_reducible apply State.setWords_canonical
    | split

theorem State.stopRun_canonical (s : State) (ep : Nat) (inst : List (Nat × Byte)) (h_s : (s).canonical) :
    (State.stopRun s ep inst).canonical := by
  unfold State.stopRun
  repeat' first
    | with_reducible assumption
    | with_reducible apply State.putCells_canonical
    | with_reducible apply State.modTask_canonical
    | with_reducible apply State.setBit_canonical
    | with_reducible apply State.taskMiss_canonical
    | (extract_lets +onlyGivenNames x; have hx : State.canonical x := ?_; clear_value x)
    | (extract_lets +onlyGivenNames x; have _ : ProgS := x; simp only [x]; clear x)
    | (extract_lets +onlyGivenNames x; clear_value x)
    | (simp only [↓State.canonical_mk, List.length_modify, List.length_set, List.length_map, List.length_replicate, List.length_zipIdx]; with_reducible apply State.canonical_parts)
    | split

theorem State.refusal_canonical (s : State) (who : Initiator) (h_s : (s).canonical) :
    (State.refusal s who).canonical := by
  unfold State.refusal
  repeat' first
    | with_reducible assumption
    | with_reducible apply State.stopRun_canonical
    | with_reducible apply State.cuStop_canonical
    | with_reducible apply State.gaugeTick_canonical
    | with_reducible apply State.inc_canonical
    | with_reducible apply State.respond_canonical
    | with_reducible apply State.ev_canonical
    | with_reducible apply canonical_ite
    | (extract_lets +onlyGivenNames x; clear_value x)
    | (simp only [↓State.canonical_mk]; with_reducible apply State.canonical_parts)
    | split

theorem State.refuseAt_canonical (s : State) (n : Nat) (who : Initiator) (kind addr len : Nat) (f : Nat × Nat × Nat) (h_s : (s).canonical) :
    (State.refuseAt s n who kind addr len f).canonical := by
  unfold State.refuseAt
  repeat' first
    | with_reducible intro x
    | with_reducible assumption
    | with_reducible apply State.guardFault_canonical
    | with_reducible apply State.inc_canonical
    | with_reducible apply State.setBit_canonical
    | with_reducible apply State.when_canonical
    | with_reducible apply State.ev_canonical
    | with_reducible apply State.refusal_canonical
    | with_reducible apply canonical_ite

theorem execGuardAccessRefused_canonical (who : Initiator) (kind : Fin 3) (addr : BitVec 48) (len : Fin 65) (passed : Bool) (errors : List (Fin 16 × Fin 32 × RegionError)) (s : State) (h_s : (s).canonical) :
    Res.canonical (execGuardAccessRefused who kind addr len passed errors s) := by
  unfold execGuardAccessRefused
  repeat' first
    | with_reducible intro x
    | with_reducible assumption
    | with_reducible apply State.each_canonical
    | with_reducible apply State.regionError_canonical
    | with_reducible apply State.refuseAt_canonical
    | with_reducible apply Res.canonical_next
    | (extract_lets +onlyGivenNames x; have hx : State.canonical x := ?_; clear_value x)
    | split

theorem execGuardSwitch_canonical (s : State) (h_s : (s).canonical) :
    Res.canonical (execGuardSwitch s) := by
  unfold execGuardSwitch
  repeat' first
    | with_reducible intro x
    | with_reducible assumption
    | with_reducible apply State.each_canonical
    | with_reducible apply State.guardSwitch_canonical
    | with_reducible apply Res.canonical_next
    | (simp only [x, ↓State.canonical_mk]; with_reducible apply State.canonical_parts)

end Sys2Proof.Machine
end

