-- ==== Sys2Proof/Laws/CanonImages.lean ====
section
/-!
SUPPORT. Every function of Machine/Images.lean keeps the canonical form of State.
-/

set_option linter.all false

namespace Sys2Proof.Machine

theorem execImgXferOpen_canonical (rq : Rq) (kind : U8) (size : U64) (hash : List Byte) (s : State) (h_s : (s).canonical) :
    Res.canonical (execImgXferOpen rq kind size hash s) := by
  unfold execImgXferOpen
  repeat' first
    | with_reducible intro x
    | with_reducible assumption
    | with_reducible apply State.cmd_canonical
    | with_reducible apply State.respond_canonical
    | with_reducible apply canonical_ite
    | with_reducible apply Res.canonical_next
    | (simp only [x, ↓State.canonical_mk]; with_reducible apply State.canonical_parts)

theorem execImgXferData_canonical (rq : Rq) (num : U32) (offset : U64) (data : List Byte) (s : State) (h_s : (s).canonical) :
    Res.canonical (execImgXferData rq num offset data s) := by
  unfold execImgXferData
  repeat' first
    | with_reducible intro x
    | with_reducible assumption
    | with_reducible apply State.cmd_canonical
    | with_reducible apply State.respond_canonical
    | with_reducible apply canonical_ite
    | with_reducible apply Res.canonical_next
    | (simp only [x, ↓State.canonical_mk]; with_reducible apply State.canonical_parts)
    | (simp only [x]; split)

theorem execImgXferClose_canonical (rq : Rq) (num : U32) (s : State) (h_s : (s).canonical) :
    Res.canonical (execImgXferClose rq num s) := by
  unfold execImgXferClose
  repeat' first
    | with_reducible intro x
    | with_reducible assumption
    | with_reducible apply State.cmd_canonical
    | with_reducible apply State.respond_canonical
    | with_reducible apply State.bg_canonical
    | with_reducible apply State.ev_canonical
    | with_reducible apply State.dropObject_canonical
    | with_reducible apply canonical_ite
    | with_reducible apply Res.canonical_next
    | (simp only [x, ↓State.canonical_mk]; with_reducible apply State.canonical_parts)
    | (simp only [x]; split)

theorem execImgXferDrop_canonical (rq : Rq) (hash : List Byte) (s : State) (h_s : (s).canonical) :
    Res.canonical (execImgXferDrop rq hash s) := by
  unfold execImgXferDrop
  repeat' first
    | with_reducible intro x
    | with_reducible assumption
    | with_reducible apply State.cmd_canonical
    | with_reducible apply State.dropObject_canonical
    | with_reducible apply State.respond_canonical
    | with_reducible apply canonical_ite
    | with_reducible apply Res.canonical_next

theorem execTransferExpire_canonical (s : State) (h_s : (s).canonical) :
    Res.canonical (execTransferExpire s) := by
  unfold execTransferExpire
  repeat' first | with_reducible assumption | with_reducible apply Res.canonical_next | (extract_lets +onlyGivenNames x; clear_value x) | (simp only [↓State.canonical_mk]; with_reducible apply State.canonical_parts)

theorem execImgStage_canonical (rq : Rq) (hash : List Byte) (signed : Bool) (s : State) (h_s : (s).canonical) :
    Res.canonical (execImgStage rq hash signed s) := by
  unfold execImgStage
  repeat' first
    | with_reducible intro x
    | with_reducible assumption
    | with_reducible apply State.cmd_canonical
    | with_reducible apply State.respond_canonical
    | with_reducible apply State.bg_canonical
    | with_reducible apply State.ev_canonical
    | with_reducible apply State.setWords_canonical
    | with_reducible apply State.chamberWord_canonical
    | with_reducible apply State.dropObject_canonical
    | with_reducible apply canonical_ite
    | with_reducible apply Res.canonical_next
    | (simp only [x, ↓State.canonical_mk]; with_reducible apply State.canonical_parts)
    | (simp only [x]; split)

theorem execImgChamberClear_canonical (rq : Rq) (s : State) (h_s : (s).canonical) :
    Res.canonical (execImgChamberClear rq s) := by
  unfold execImgChamberClear
  repeat' first
    | with_reducible intro x
    | with_reducible assumption
    | with_reducible apply State.cmd_canonical
    | with_reducible apply State.respond_canonical
    | with_reducible apply State.emptyChamber_canonical
    | with_reducible apply Res.canonical_next

theorem execImgActivate_canonical (rq : Rq) (s : State) (h_s : (s).canonical) :
    Res.canonical (execImgActivate rq s) := by
  unfold execImgActivate
  repeat' first
    | with_reducible intro x
    | with_reducible assumption
    | with_reducible apply State.cmd_canonical
    | with_reducible apply State.respond_canonical
    | with_reducible apply State.setBit_canonical
    | with_reducible apply State.planRestart_canonical
    | with_reducible apply canonical_ite
    | with_reducible apply Res.canonical_next
    | (simp only [x, ↓State.canonical_mk]; with_reducible apply State.canonical_parts)

theorem execActivationCopy_canonical (ok : Bool) (bankOk : Fin 4) (s : State) (h_s : (s).canonical) :
    Res.canonical (execActivationCopy ok bankOk s) := by
  unfold execActivationCopy
  repeat' first
    | with_reducible intro x
    | with_reducible assumption
    | with_reducible apply State.setBit_canonical
    | with_reducible apply State.emptyChamber_canonical
    | with_reducible apply State.ev_canonical
    | with_reducible apply State.chooseBank_canonical
    | with_reducible apply State.each_canonical
    | with_reducible apply State.copyBank_canonical
    | with_reducible apply State.setWord_canonical
    | with_reducible apply State.inc_canonical
    | with_reducible apply canonical_ite
    | with_reducible apply Res.canonical_next
    | (extract_lets +onlyGivenNames x; have hx : State.canonical x := ?_; clear_value x)
    | (extract_lets +onlyGivenNames x; clear_value x)
    | (simp only [↓State.canonical_mk]; with_reducible apply State.canonical_parts)

theorem execImgConfirm_canonical (rq : Rq) (s : State) (h_s : (s).canonical) :
    Res.canonical (execImgConfirm rq s) := by
  unfold execImgConfirm
  repeat' first
    | with_reducible intro x
    | with_reducible assumption
    | with_reducible apply State.cmd_canonical
    | with_reducible apply State.respond_canonical
    | with_reducible apply State.confirmImage_canonical
    | with_reducible apply Res.canonical_next

theorem execImgRevert_canonical (rq : Rq) (s : State) (h_s : (s).canonical) :
    Res.canonical (execImgRevert rq s) := by
  unfold execImgRevert
  repeat' first
    | with_reducible intro x
    | with_reducible assumption
    | with_reducible apply State.cmd_canonical
    | with_reducible apply State.respond_canonical
    | with_reducible apply State.planFallBack_canonical
    | with_reducible apply Res.canonical_next

theorem execHealthWindowExpire_canonical (s : State) (h_s : (s).canonical) :
    Res.canonical (execHealthWindowExpire s) := by
  unfold execHealthWindowExpire
  repeat' first
    | with_reducible assumption
    | with_reducible apply State.planFallBack_canonical
    | with_reducible apply canonical_ite
    | with_reducible apply Res.canonical_next
    | split

theorem execHealthAutoConfirm_canonical (s : State) (h_s : (s).canonical) :
    Res.canonical (execHealthAutoConfirm s) := by
  unfold execHealthAutoConfirm
  repeat' first
    | with_reducible assumption
    | with_reducible apply State.tally_canonical
    | with_reducible apply State.confirmImage_canonical
    | with_reducible apply canonical_ite
    | with_reducible apply Res.canonical_next
    | split

theorem State.pushBank_canonical (s : State) (e : Nat) (ws : List U32) (h_s : (s).canonical) :
    (State.pushBank s e ws).canonical := by
  unfold State.pushBank
  repeat' first | with_reducible assumption | with_reducible apply State.setWords_canonical | with_reducible apply State.setBit_canonical

theorem execImgInstall_canonical (rq : Rq) (hash : List Byte) (signed : Bool) (pkg : Option Package) (words : List (Nat × U32)) (s : State) (h_s : (s).canonical) :
    Res.canonical (execImgInstall rq hash signed pkg words s) := by
  unfold execImgInstall
  repeat' first
    | with_reducible intro x
    | with_reducible assumption
    | with_reducible apply State.cmd_canonical
    | with_reducible apply State.respond_canonical
    | with_reducible apply State.bg_canonical
    | with_reducible apply State.ev_canonical
    | with_reducible apply State.dropObject_canonical
    | with_reducible apply State.pushBank_canonical
    | with_reducible apply State.loadTasks_canonical
    | with_reducible apply State.stage_canonical
    | with_reducible apply canonical_ite
    | with_reducible apply Res.canonical_next
    | (simp only [x, ↓State.canonical_mk]; with_reducible apply State.canonical_parts)
    | (simp only [x]; split)
    | split

theorem execAttest_canonical (rq : Rq) (nonce signature : List Byte) (s : State) (h_s : (s).canonical) :
    Res.canonical (execAttest rq nonce signature s) := by
  unfold execAttest
  repeat' first
    | with_reducible intro x
    | with_reducible assumption
    | with_reducible apply State.cmd_canonical
    | with_reducible apply State.respond_canonical
    | with_reducible apply State.bg_canonical
    | with_reducible apply State.inc_canonical
    | with_reducible apply canonical_ite
    | with_reducible apply Res.canonical_next

theorem execIdentityRead_canonical (rq : Rq) (s : State) (h_s : (s).canonical) :
    Res.canonical (execIdentityRead rq s) := by
  unfold execIdentityRead
  repeat' first
    | with_reducible intro x
    | with_reducible assumption
    | with_reducible apply State.cmd_canonical
    | with_reducible apply State.respond_canonical
    | with_reducible apply Res.canonical_next

end Sys2Proof.Machine
end

