-- ==== Sys2Proof/Laws/CanonResetOps.lean ====
section
/-!
SUPPORT. Every function of Machine/ResetOps.lean keeps the canonical form of State.
-/

set_option linter.all false

namespace Sys2Proof.Machine

theorem State.resetRecord_canonical (s : State) (h_s : (s).canonical) :
    (State.resetRecord s).canonical := by
  unfold State.resetRecord
  repeat' first | with_reducible assumption | with_reducible apply State.ev_canonical

theorem State.diesDown_canonical (s : State) (ds : List Nat) (h_s : (s).canonical) :
    (State.diesDown s ds).canonical := by
  unfold State.diesDown
  repeat' first
    | with_reducible intro x
    | with_reducible assumption
    | with_reducible apply State.each_canonical
    | with_reducible apply State.setBit_canonical
    | (extract_lets +onlyGivenNames x; have hx : State.canonical x := ?_; clear_value x)
    | (extract_lets +onlyGivenNames x; clear_value x)
    | (simp only [↓State.canonical_mk]; with_reducible apply State.canonical_parts)

theorem State.addBoot_canonical (s : State) (steps : List Nat) (h_s : (s).canonical) :
    (State.addBoot s steps).canonical := by
  unfold State.addBoot
  repeat' first | with_reducible assumption | (extract_lets +onlyGivenNames x; clear_value x) | (simp only [↓State.canonical_mk]; with_reducible apply State.canonical_parts)

theorem State.portDown_canonical (s : State) (p : Nat) (h_s : (s).canonical) :
    (State.portDown s p).canonical := by
  unfold State.portDown
  repeat' first | with_reducible assumption | with_reducible apply State.tdrAbort_canonical | with_reducible apply State.cuPortLost_canonical | with_reducible apply State.modPort_canonical

theorem State.lineReset_canonical (s : State) (h_s : (s).canonical) :
    (State.lineReset s).canonical := by
  unfold State.lineReset
  repeat' first
    | with_reducible intro x
    | with_reducible assumption
    | with_reducible apply State.each_canonical
    | with_reducible apply State.portDown_canonical
    | (extract_lets +onlyGivenNames x; have hx : State.canonical x := ?_; clear_value x)
    | (simp only [↓State.canonical_mk]; with_reducible apply State.canonical_parts)

theorem State.fieldReset_canonical (s : State) (d : Nat) (h_s : (s).canonical) :
    (State.fieldReset s d).canonical := by
  unfold State.fieldReset
  repeat' first
    | with_reducible intro x
    | with_reducible assumption
    | with_reducible apply State.each_canonical
    | with_reducible apply State.groupReset_canonical
    | (extract_lets +onlyGivenNames x; have hx : State.canonical x := ?_; clear_value x)
    | (simp only [↓State.canonical_mk]; with_reducible apply State.canonical_parts)

theorem State.abortMain_canonical (s : State) (h_s : (s).canonical) :
    (State.abortMain s).canonical := by
  unfold State.abortMain
  repeat' first
    | with_reducible intro x
    | with_reducible assumption
    | with_reducible apply State.each_canonical
    | with_reducible apply State.respond_canonical
    | (extract_lets +onlyGivenNames x; have hx : State.canonical x := ?_; clear_value x)
    | (extract_lets +onlyGivenNames x; have _ : KprS := x; simp only [x]; clear x)
    | (simp only [↓State.canonical_mk]; with_reducible apply State.canonical_parts)
    | split

theorem State.coreWords_canonical (s : State) (h_s : (s).canonical) :
    (State.coreWords s).canonical := by
  unfold State.coreWords
  repeat' first
    | with_reducible intro x
    | with_reducible assumption
    | with_reducible apply State.keepWords_canonical
    | with_reducible apply State.each_canonical
    | with_reducible apply State.setBit_canonical
    | with_reducible apply State.setWord_canonical
    | with_reducible apply State.setFld_canonical

theorem State.coreFresh_canonical (s : State) (held : Nat) (h_s : (s).canonical) :
    (State.coreFresh s held).canonical := by
  have h := State.canonical_parts h_s
  simp only [State.coreFresh, State.canonical_mk, List.length_map, List.length_replicate, ProgS.fresh, h, and_self, and_true, true_and]
  rfl

theorem State.coreReset_canonical (s : State) (h_s : (s).canonical) :
    (State.coreReset s).canonical := by
  unfold State.coreReset
  repeat' first
    | with_reducible intro x
    | with_reducible assumption
    | with_reducible apply State.inc_canonical
    | with_reducible apply State.cuDropAll_canonical
    | with_reducible apply State.refusePending_canonical
    | with_reducible apply State.enterMode_canonical
    | with_reducible apply State.resyncDrop_canonical
    | with_reducible apply State.coreWords_canonical
    | with_reducible apply State.each_canonical
    | with_reducible apply State.stnHalt_canonical
    | with_reducible apply State.coreFresh_canonical
    | with_reducible apply State.clearPairWork_canonical
    | with_reducible apply State.chgReset_canonical
    | with_reducible apply State.gaugeLose_canonical
    | with_reducible apply State.abortMain_canonical
    | with_reducible apply State.freshTasks_canonical
    | with_reducible apply State.stopLoops_canonical
    | (extract_lets +onlyGivenNames x; have _ : KprS := x; simp only [x]; clear x)
    | (simp only [↓State.canonical_mk]; with_reducible apply State.canonical_parts)

theorem State.keeperFresh_canonical (s : State) (h_s : (s).canonical) :
    (State.keeperFresh s).canonical := by
  have h := State.canonical_parts h_s
  simp only [State.keeperFresh, State.canonical_mk, List.length_replicate, KprS.fresh, h, and_self, and_true, true_and]

theorem State.keeperReset_canonical (s : State) (h_s : (s).canonical) :
    (State.keeperReset s).canonical := by
  unfold State.keeperReset
  repeat' first
    | with_reducible intro x
    | with_reducible assumption
    | with_reducible apply State.each_canonical
    | with_reducible apply State.setWord_canonical
    | with_reducible apply State.keeperFresh_canonical

theorem State.scopeReset_canonical (s : State) (sc : ResetScope) (h_s : (s).canonical) :
    (State.scopeReset s sc).canonical := by
  unfold State.scopeReset
  repeat' first
    | with_reducible intro x
    | with_reducible assumption
    | with_reducible apply State.fieldReset_canonical
    | with_reducible apply State.diesDown_canonical
    | with_reducible apply State.addBoot_canonical
    | with_reducible apply State.lineReset_canonical
    | with_reducible apply State.coreReset_canonical
    | with_reducible apply State.keeperReset_canonical
    | (extract_lets +onlyGivenNames x; have hx : ∀ s : State, State.canonical s → State.canonical (x s) := ?_; clear_value x)
    | split
    | with_reducible apply_assumption

theorem State.reset1_canonical (s : State) (src : ResetSrc) (sc : ResetScope) (others : List (ResetSrc × ResetScope)) (h_s : (s).canonical) :
    (State.reset1 s src sc others).canonical := by
  unfold State.reset1
  repeat' first
    | with_reducible intro x
    | with_reducible assumption
    | with_reducible apply State.setWord_canonical
    | with_reducible apply State.scopeReset_canonical
    | with_reducible apply State.each_canonical
    | with_reducible apply State.resetRecord_canonical
    | with_reducible apply canonical_ite

end Sys2Proof.Machine
end

