-- ==== Sys2Proof/Laws/CanonResets.lean ====
section
/-!
SUPPORT. Every function of Machine/Resets.lean keeps the canonical form of State.
-/

set_option linter.all false

namespace Sys2Proof.Machine

theorem State.regionClose_canonical (s : State) (r : Fin 14) (src : ResetSrc) (h_s : (s).canonical) :
    (State.regionClose s r src).canonical := by
  unfold State.regionClose
  repeat' first
    | with_reducible intro x
    | with_reducible assumption
    | with_reducible apply State.setWord_canonical
    | with_reducible apply State.resetRecord_canonical
    | with_reducible apply State.decideWithdraw_canonical
    | with_reducible apply State.each_canonical
    | with_reducible apply State.portDown_canonical
    | with_reducible apply State.groupReset_canonical
    | with_reducible apply State.cuDropAll_canonical
    | with_reducible apply canonical_ite
    | (extract_lets +onlyGivenNames x; have _ : ProgS := x; simp only [x]; clear x)
    | (extract_lets +onlyGivenNames x; clear_value x)
    | (simp only [↓State.canonical_mk]; with_reducible apply State.canonical_parts)
    | (simp only [↓State.canonical_mk, List.length_modify, List.length_set, List.length_map, List.length_replicate, List.length_zipIdx]; with_reducible apply State.canonical_parts)

theorem execRegionReset_canonical (r : Fin 14) (src : ResetSrc) (s : State) (h_s : (s).canonical) :
    Res.canonical (execRegionReset r src s) := by
  unfold execRegionReset
  repeat' first | with_reducible assumption | with_reducible apply State.regionClose_canonical | with_reducible apply Res.canonical_next | split

theorem execRegionRelease_canonical (r : Fin 14) (s : State) (h_s : (s).canonical) :
    Res.canonical (execRegionRelease r s) := by
  unfold execRegionRelease
  repeat' first
    | with_reducible assumption
    | with_reducible apply canonical_ite
    | with_reducible apply Res.canonical_next
    | (extract_lets +onlyGivenNames x; clear_value x)
    | (simp only [↓State.canonical_mk]; with_reducible apply State.canonical_parts)

theorem State.testFailed_canonical (s : State) (eps : Nat) (h_s : (s).canonical) :
    (State.testFailed s eps).canonical := by
  unfold State.testFailed
  repeat' first
    | with_reducible assumption
    | with_reducible apply State.setBit_canonical
    | with_reducible apply State.setFld_canonical
    | with_reducible apply State.ev_canonical
    | (extract_lets +onlyGivenNames x; have hx : State.canonical x := ?_; clear_value x)
    | (extract_lets +onlyGivenNames x; clear_value x)
    | (simp only [↓State.canonical_mk]; with_reducible apply State.canonical_parts)

theorem State.calibrate_canonical (s : State) (p : Nat) (fail : Bool) (h_s : (s).canonical) :
    (State.calibrate s p fail).canonical := by
  unfold State.calibrate
  repeat' first
    | with_reducible assumption
    | with_reducible apply State.setBit_canonical
    | with_reducible apply State.modPort_canonical
    | with_reducible apply State.ev_canonical
    | with_reducible apply State.cuPortLost_canonical
    | with_reducible apply canonical_ite

theorem execRegionInitDone_canonical (r : Fin 14) (fail : Fin 16) (volts : List Nat) (s : State) (h_s : (s).canonical) :
    Res.canonical (execRegionInitDone r fail volts s) := by
  unfold execRegionInitDone
  repeat' first
    | with_reducible intro x
    | with_reducible assumption
    | with_reducible apply State.testFailed_canonical
    | with_reducible apply State.dropPending_canonical
    | with_reducible apply State.enterMode_canonical
    | with_reducible apply State.each_canonical
    | with_reducible apply State.calibrate_canonical
    | with_reducible apply State.groupStart_canonical
    | with_reducible apply State.stopLoops_canonical
    | with_reducible apply State.ev_canonical
    | with_reducible apply canonical_ite
    | with_reducible apply Res.canonical_next
    | (simp only [↓State.canonical_mk]; with_reducible apply State.canonical_parts)

theorem execResetPor_canonical (others : List (ResetSrc × ResetScope)) (s : State) (h_s : (s).canonical) :
    Res.canonical (execResetPor others s) := by
  unfold execResetPor
  repeat' first | with_reducible assumption | with_reducible apply State.reset1_canonical | with_reducible apply State.inc_canonical | with_reducible apply Res.canonical_next

theorem execResetBor_canonical (p : Pkg) (others : List (ResetSrc × ResetScope)) (s : State) (h_s : (s).canonical) :
    Res.canonical (execResetBor p others s) := by
  unfold execResetBor
  repeat' first | with_reducible assumption | with_reducible apply State.reset1_canonical | with_reducible apply Res.canonical_next

theorem execResetPin_canonical (lowNs : Nat) (others : List (ResetSrc × ResetScope)) (s : State) (h_s : (s).canonical) :
    Res.canonical (execResetPin lowNs others s) := by
  unfold execResetPin
  repeat' first
    | with_reducible assumption
    | with_reducible apply State.reset1_canonical
    | with_reducible apply canonical_ite
    | with_reducible apply Res.canonical_next
    | (simp only [↓State.canonical_mk]; with_reducible apply State.canonical_parts)

theorem execResetWdt_canonical (sc : ResetScope) (others : List (ResetSrc × ResetScope)) (s : State) (h_s : (s).canonical) :
    Res.canonical (execResetWdt sc others s) := by
  unfold execResetWdt
  repeat' first
    | with_reducible assumption
    | with_reducible apply State.reset1_canonical
    | with_reducible apply State.regionClose_canonical
    | with_reducible apply Res.canonical_next
    | split

theorem execResetSwr_canonical (others : List (ResetSrc × ResetScope)) (s : State) (h_s : (s).canonical) :
    Res.canonical (execResetSwr others s) := by
  unfold execResetSwr
  repeat' first
    | with_reducible assumption
    | with_reducible apply State.reset1_canonical
    | with_reducible apply canonical_ite
    | with_reducible apply Res.canonical_next
    | (extract_lets +onlyGivenNames x; have _ : KprS := x; simp only [x]; clear x)
    | (simp only [↓State.canonical_mk]; with_reducible apply State.canonical_parts)
    | split

theorem execResetClkf_canonical (d : Die) (others : List (ResetSrc × ResetScope)) (s : State) (h_s : (s).canonical) :
    Res.canonical (execResetClkf d others s) := by
  unfold execResetClkf
  repeat' first | with_reducible assumption | with_reducible apply State.reset1_canonical | with_reducible apply State.setBit_canonical | with_reducible apply Res.canonical_next

theorem execResetLockup_canonical (ep : Option (Fin 4)) (others : List (ResetSrc × ResetScope)) (s : State) (h_s : (s).canonical) :
    Res.canonical (execResetLockup ep others s) := by
  unfold execResetLockup
  repeat' first | with_reducible assumption | with_reducible apply State.reset1_canonical | with_reducible apply Res.canonical_next

theorem State.defer_canonical (s : State) (d : Nat) (h_s : (s).canonical) :
    (State.defer s d).canonical := by
  unfold State.defer
  repeat' first
    | with_reducible assumption
    | with_reducible apply State.setBit_canonical
    | (extract_lets +onlyGivenNames x; have hx : State.canonical x := ?_; clear_value x)
    | (extract_lets +onlyGivenNames x; clear_value x)
    | (simp only [↓State.canonical_mk]; with_reducible apply State.canonical_parts)

theorem State.undefer_canonical (s : State) (d : Nat) (h_s : (s).canonical) :
    (State.undefer s d).canonical := by
  unfold State.undefer
  repeat' first
    | with_reducible assumption
    | with_reducible apply State.setBit_canonical
    | (extract_lets +onlyGivenNames x; have hx : State.canonical x := ?_; clear_value x)
    | (extract_lets +onlyGivenNames x; clear_value x)
    | (simp only [↓State.canonical_mk]; with_reducible apply State.canonical_parts)

theorem State.comparatorTest_canonical (s : State) (r : StepRes) (h_s : (s).canonical) :
    (State.comparatorTest s r).canonical := by
  unfold State.comparatorTest
  repeat' first
    | with_reducible assumption
    | with_reducible apply State.setBit_canonical
    | with_reducible apply State.setFld_canonical
    | with_reducible apply State.set64_canonical
    | with_reducible apply State.setWord_canonical
    | with_reducible apply State.testFailed_canonical
    | with_reducible apply canonical_ite
    | (extract_lets +onlyGivenNames x; have hx : State.canonical x := ?_; clear_value x)
    | (extract_lets +onlyGivenNames x; clear_value x)
    | (simp only [↓State.canonical_mk]; with_reducible apply State.canonical_parts)

theorem State.coreRelease_canonical (s : State) (raw : Nat) (h_s : (s).canonical) :
    (State.coreRelease s raw).canonical := by
  unfold State.coreRelease
  repeat' first
    | with_reducible assumption
    | with_reducible apply State.keepDram_canonical
    | (extract_lets +onlyGivenNames x; have hx : State.canonical x := ?_; clear_value x)
    | (extract_lets +onlyGivenNames x; have _ : AcqS := x; simp only [x]; clear x)
    | (extract_lets +onlyGivenNames x; clear_value x)
    | (simp only [↓State.canonical_mk]; with_reducible apply State.canonical_parts)

theorem State.stepDone_canonical (s : State) (k : Nat) (r : StepRes) (h_s : (s).canonical) :
    (State.stepDone s k r).canonical := by
  unfold State.stepDone
  repeat' first
    | with_reducible intro x
    | with_reducible assumption
    | with_reducible apply State.setFld_canonical
    | with_reducible apply State.setBit_canonical
    | with_reducible apply State.planFallBack_canonical
    | with_reducible apply State.coreRelease_canonical
    | with_reducible apply State.applyRestart_canonical
    | with_reducible apply State.guardLoad_canonical
    | with_reducible apply State.comparatorTest_canonical
    | with_reducible apply State.each_canonical
    | with_reducible apply State.calibrate_canonical
    | with_reducible apply State.groupStart_canonical
    | with_reducible apply canonical_ite
    | (simp only [x, ↓State.canonical_mk]; with_reducible apply State.canonical_parts)
    | (extract_lets +onlyGivenNames x; have hx : State.canonical x := ?_; clear_value x)
    | (extract_lets +onlyGivenNames x; clear_value x)
    | (simp only [↓State.canonical_mk]; with_reducible apply State.canonical_parts)
    | split

theorem State.bootStep_canonical (s : State) (r : StepRes) (h_s : (s).canonical) :
    (State.bootStep s r).canonical := by
  unfold State.bootStep
  repeat' first
    | with_reducible intro x
    | with_reducible assumption
    | with_reducible apply State.each_canonical
    | with_reducible apply State.defer_canonical
    | with_reducible apply State.ev_canonical
    | with_reducible apply State.stepDone_canonical
    | with_reducible apply canonical_ite
    | (extract_lets +onlyGivenNames x; have hx : State.canonical x := ?_; clear_value x)
    | (extract_lets +onlyGivenNames x; clear_value x)
    | (simp only [↓State.canonical_mk]; with_reducible apply State.canonical_parts)
    | split

theorem execBootReleaseStep_canonical (r : StepRes) (s : State) (h_s : (s).canonical) :
    Res.canonical (execBootReleaseStep r s) := by
  unfold execBootReleaseStep
  repeat' first | with_reducible assumption | with_reducible apply State.bootStep_canonical | with_reducible apply Res.canonical_next

theorem execDeferredRelease_canonical (d : Die) (r : StepRes) (s : State) (h_s : (s).canonical) :
    Res.canonical (execDeferredRelease d r s) := by
  unfold execDeferredRelease
  repeat' first
    | with_reducible assumption
    | with_reducible apply State.undefer_canonical
    | with_reducible apply State.bootStep_canonical
    | with_reducible apply canonical_ite
    | with_reducible apply Res.canonical_next

theorem execDeferredReleaseTimeout_canonical (d : Die) (s : State) (h_s : (s).canonical) :
    Res.canonical (execDeferredReleaseTimeout d s) := by
  unfold execDeferredReleaseTimeout
  repeat' first
    | with_reducible assumption
    | with_reducible apply State.undefer_canonical
    | with_reducible apply State.setBit_canonical
    | with_reducible apply State.setWord_canonical
    | with_reducible apply State.resetRecord_canonical
    | with_reducible apply canonical_ite
    | with_reducible apply Res.canonical_next

theorem execClkfReleaseRetry_canonical (d : Die) (r : StepRes) (s : State) (h_s : (s).canonical) :
    Res.canonical (execClkfReleaseRetry d r s) := by
  unfold execClkfReleaseRetry
  repeat' first
    | with_reducible assumption
    | with_reducible apply State.defer_canonical
    | with_reducible apply State.undefer_canonical
    | with_reducible apply State.bootStep_canonical
    | with_reducible apply canonical_ite
    | with_reducible apply Res.canonical_next

theorem execClkFallback_canonical (s : State) (h_s : (s).canonical) :
    Res.canonical (execClkFallback s) := by
  unfold execClkFallback
  repeat' first
    | with_reducible assumption
    | with_reducible apply State.setBit_canonical
    | with_reducible apply State.setFld_canonical
    | with_reducible apply State.ev_canonical
    | with_reducible apply canonical_ite
    | with_reducible apply Res.canonical_next

theorem execKeeperDomainRelease_canonical (k : KeeperStart) (s : State) (h_s : (s).canonical) :
    Res.canonical (execKeeperDomainRelease k s) := by
  unfold execKeeperDomainRelease
  repeat' first
    | with_reducible intro x
    | with_reducible assumption
    | with_reducible apply State.resetRecord_canonical
    | with_reducible apply State.when_canonical
    | with_reducible apply State.setRestart_canonical
    | with_reducible apply State.setBit_canonical
    | with_reducible apply State.ev_canonical
    | with_reducible apply State.chooseBank_canonical
    | with_reducible apply State.recStart_canonical
    | with_reducible apply canonical_ite
    | with_reducible apply Res.canonical_next
    | (extract_lets +onlyGivenNames x; clear_value x)
    | (simp only [↓State.canonical_mk]; with_reducible apply State.canonical_parts)

theorem State.writeJournal_canonical (s : State) (h_s : (s).canonical) :
    (State.writeJournal s).canonical := by
  unfold State.writeJournal
  repeat' first
    | with_reducible intro x
    | with_reducible assumption
    | with_reducible apply State.each_canonical
    | with_reducible apply State.ev_canonical
    | with_reducible apply canonical_ite
    | (extract_lets +onlyGivenNames x; have hx : State.canonical x := ?_; clear_value x)
    | (extract_lets +onlyGivenNames x; have _ : KprS := x; simp only [x]; clear x)
    | (simp only [↓State.canonical_mk]; with_reducible apply State.canonical_parts)

theorem execBootEnd_canonical (s : State) (h_s : (s).canonical) :
    Res.canonical (execBootEnd s) := by
  unfold execBootEnd
  repeat' first
    | with_reducible assumption
    | with_reducible apply State.writeJournal_canonical
    | with_reducible apply State.enterMode_canonical
    | with_reducible apply State.ev_canonical
    | with_reducible apply canonical_ite
    | with_reducible apply Res.canonical_next
    | (extract_lets +onlyGivenNames x; clear_value x)
    | (simp only [↓State.canonical_mk]; with_reducible apply State.canonical_parts)

theorem execMateBreak_canonical (s : State) (h_s : (s).canonical) :
    Res.canonical (execMateBreak s) := by
  unfold execMateBreak
  repeat' first
    | with_reducible assumption
    | with_reducible apply State.hardWithdraw_canonical
    | with_reducible apply Res.canonical_next
    | (simp only [x, ↓State.canonical_mk]; with_reducible apply State.canonical_parts)
    | (extract_lets +onlyGivenNames x; have hx : State.canonical x := ?_; clear_value x)
    | (extract_lets +onlyGivenNames x; clear_value x)
    | split

theorem execMainsLoss_canonical (s : State) (h_s : (s).canonical) :
    Res.canonical (execMainsLoss s) := by
  unfold execMainsLoss
  repeat' first | with_reducible assumption | with_reducible apply Res.canonical_next | (extract_lets +onlyGivenNames x; clear_value x) | (simp only [↓State.canonical_mk]; with_reducible apply State.canonical_parts)

theorem execMainsReturn_canonical (s : State) (h_s : (s).canonical) :
    Res.canonical (execMainsReturn s) := by
  unfold execMainsReturn
  repeat' first | with_reducible assumption | with_reducible apply Res.canonical_next | (extract_lets +onlyGivenNames x; clear_value x) | (simp only [↓State.canonical_mk]; with_reducible apply State.canonical_parts)

theorem State.leverHold_canonical (s : State) (h_s : (s).canonical) :
    (State.leverHold s).canonical := by
  unfold State.leverHold
  repeat' first | with_reducible assumption | with_reducible apply State.pend_canonical | (extract_lets +onlyGivenNames x; clear_value x) | (simp only [↓State.canonical_mk]; with_reducible apply State.canonical_parts)

theorem execSwapLeverOut_canonical (s : State) (h_s : (s).canonical) :
    Res.canonical (execSwapLeverOut s) := by
  unfold execSwapLeverOut
  repeat' first
    | with_reducible assumption
    | with_reducible apply State.setBit_canonical
    | with_reducible apply State.ev_canonical
    | with_reducible apply State.startHandover_canonical
    | with_reducible apply State.control_canonical
    | with_reducible apply State.decideWithdraw_canonical
    | with_reducible apply State.leverHold_canonical
    | with_reducible apply State.dropPending_canonical
    | with_reducible apply canonical_ite
    | with_reducible apply Res.canonical_next
    | (extract_lets +onlyGivenNames x; have _ : KprS := x; simp only [x]; clear x)
    | (extract_lets +onlyGivenNames x; clear_value x)
    | (simp only [↓State.canonical_mk]; with_reducible apply State.canonical_parts)
    | split

theorem execSwapLeverIn_canonical (s : State) (h_s : (s).canonical) :
    Res.canonical (execSwapLeverIn s) := by
  unfold execSwapLeverIn
  repeat' first
    | with_reducible assumption
    | with_reducible apply State.setBit_canonical
    | with_reducible apply State.pend_canonical
    | with_reducible apply canonical_ite
    | with_reducible apply Res.canonical_next
    | (extract_lets +onlyGivenNames x; have hx : State.canonical x := ?_; clear_value x)
    | (extract_lets +onlyGivenNames x; clear_value x)
    | (simp only [↓State.canonical_mk]; with_reducible apply State.canonical_parts)

end Sys2Proof.Machine
end

