-- ==== Sys2Proof/Laws/CanonModes.lean ====
section
/-!
SUPPORT. Every function of Machine/Modes.lean keeps the canonical form of State.
-/

set_option linter.all false

namespace Sys2Proof.Machine

theorem State.pendRequest_canonical (s : State) (rq : Rq) (op : Nat) (m : Mode) (h_s : (s).canonical) :
    (State.pendRequest s rq op m).canonical := by
  unfold State.pendRequest
  repeat' first | with_reducible assumption | (extract_lets +onlyGivenNames x; clear_value x) | (simp only [↓State.canonical_mk]; with_reducible apply State.canonical_parts)

theorem State.withdrawFor_canonical (s : State) (rq : Rq) (m : Mode) (h_s : (s).canonical) :
    (State.withdrawFor s rq m).canonical := by
  unfold State.withdrawFor
  repeat' first | with_reducible assumption | (extract_lets +onlyGivenNames x; clear_value x) | (simp only [↓State.canonical_mk]; with_reducible apply State.canonical_parts)

theorem execModeTransition_canonical (s : State) (h_s : (s).canonical) :
    Res.canonical (execModeTransition s) := by
  unfold execModeTransition
  repeat' first
    | with_reducible assumption
    | with_reducible apply State.dropPending_canonical
    | with_reducible apply State.ev_canonical
    | with_reducible apply State.takeClaim_canonical
    | with_reducible apply State.enterMode_canonical
    | with_reducible apply State.respond_canonical
    | with_reducible apply canonical_ite
    | with_reducible apply Res.canonical_next
    | (simp only [x, ↓State.canonical_mk]; with_reducible apply State.canonical_parts)
    | (simp only [x]; split)
    | (extract_lets +onlyGivenNames x; have hx : State.canonical x := ?_; clear_value x)
    | (extract_lets +onlyGivenNames x; clear_value x)
    | split

theorem State.wrongCarrier_canonical (s : State) (rq : Rq) (op : Nat) (h_s : (s).canonical) :
    (State.wrongCarrier s rq op).canonical := by
  unfold State.wrongCarrier
  repeat' first | with_reducible assumption | with_reducible apply State.ev_canonical | with_reducible apply State.respond_canonical

theorem execModeRun_canonical (rq : Rq) (s : State) (h_s : (s).canonical) :
    Res.canonical (execModeRun rq s) := by
  unfold execModeRun
  repeat' first
    | with_reducible intro x
    | with_reducible assumption
    | with_reducible apply State.cmd_canonical
    | with_reducible apply State.respond_canonical
    | with_reducible apply State.wrongCarrier_canonical
    | with_reducible apply State.pendRequest_canonical
    | with_reducible apply canonical_ite
    | with_reducible apply Res.canonical_next
    | (simp only [x, ↓State.canonical_mk]; with_reducible apply State.canonical_parts)

theorem State.acceptUpdate_canonical (s : State) (rq : Rq) (h_s : (s).canonical) :
    (State.acceptUpdate s rq).canonical := by
  unfold State.acceptUpdate
  repeat' first
    | with_reducible assumption
    | with_reducible apply State.withdrawFor_canonical
    | with_reducible apply State.startHandover_canonical
    | with_reducible apply State.decideWithdraw_canonical
    | with_reducible apply State.pendRequest_canonical
    | (simp only [x, ↓State.canonical_mk]; with_reducible apply State.canonical_parts)
    | (extract_lets +onlyGivenNames x; have hx : State.canonical x := ?_; clear_value x)
    | (extract_lets +onlyGivenNames x; clear_value x)
    | (simp only [↓State.canonical_mk]; with_reducible apply State.canonical_parts)
    | split

theorem execModeRequest_canonical (rq : Rq) (n : U8) (s : State) (h_s : (s).canonical) :
    Res.canonical (execModeRequest rq n s) := by
  unfold execModeRequest
  repeat' first
    | with_reducible intro x
    | with_reducible assumption
    | with_reducible apply State.cmd_canonical
    | with_reducible apply State.respond_canonical
    | with_reducible apply State.wrongCarrier_canonical
    | with_reducible apply State.refuseConflict_canonical
    | with_reducible apply State.starting_canonical
    | with_reducible apply State.relay_canonical
    | with_reducible apply State.acceptUpdate_canonical
    | with_reducible apply State.withdrawFor_canonical
    | with_reducible apply State.decideWithdraw_canonical
    | with_reducible apply State.pendRequest_canonical
    | with_reducible apply canonical_ite
    | with_reducible apply Res.canonical_next
    | (simp only [x, ↓State.canonical_mk]; with_reducible apply State.canonical_parts)
    | (simp only [x]; split)

theorem execSysRestart_canonical (rq : Rq) (scope : U32) (s : State) (h_s : (s).canonical) :
    Res.canonical (execSysRestart rq scope s) := by
  unfold execSysRestart
  repeat' first
    | with_reducible intro x
    | with_reducible assumption
    | with_reducible apply State.cmd_canonical
    | with_reducible apply State.respond_canonical
    | with_reducible apply State.planRestart_canonical
    | with_reducible apply canonical_ite
    | with_reducible apply Res.canonical_next

theorem execSysRegionReset_canonical (rq : Rq) (r : U8) (s : State) (h_s : (s).canonical) :
    Res.canonical (execSysRegionReset rq r s) := by
  unfold execSysRegionReset
  repeat' first
    | with_reducible intro x
    | with_reducible assumption
    | with_reducible apply State.cmd_canonical
    | with_reducible apply State.respond_canonical
    | with_reducible apply State.regionClose_canonical
    | with_reducible apply canonical_dite
    | with_reducible apply Res.canonical_next

end Sys2Proof.Machine
end

