-- ==== Sys2Proof/Laws/CanonLockstep.lean ====
section
/-!
SUPPORT. Every function of Machine/Lockstep.lean keeps the canonical form of State.
-/

set_option linter.all false

namespace Sys2Proof.Machine

theorem State.mismatch_canonical (s : State) (l : List Mismatch) (h_s : (s).canonical) :
    (State.mismatch s l).canonical := by
  unfold State.mismatch
  repeat' first
    | with_reducible intro x
    | with_reducible assumption
    | with_reducible apply State.each_canonical
    | with_reducible apply State.ev_canonical
    | with_reducible apply State.setWords_canonical
    | with_reducible apply State.setBit_canonical
    | with_reducible apply State.incBy_canonical
    | with_reducible apply State.hardWithdraw_canonical
    | with_reducible apply canonical_ite
    | (extract_lets +onlyGivenNames x; have hx : State.canonical x := ?_; clear_value x)
    | (extract_lets +onlyGivenNames x; clear_value x)
    | split

theorem execLockstepMismatch_canonical (l : List (Fin 4 × Fin 8 × U64 × U64)) (s : State) (h_s : (s).canonical) :
    Res.canonical (execLockstepMismatch l s) := by
  unfold execLockstepMismatch
  repeat' first | with_reducible assumption | with_reducible apply State.mismatch_canonical | with_reducible apply canonical_ite | with_reducible apply Res.canonical_next

theorem execTickEndDigest_canonical (reached : Nat) (diff : List (Fin 4 × U64)) (s : State) (h_s : (s).canonical) :
    Res.canonical (execTickEndDigest reached diff s) := by
  unfold execTickEndDigest
  repeat' first
    | with_reducible assumption
    | with_reducible apply State.mismatch_canonical
    | with_reducible apply canonical_ite
    | with_reducible apply Res.canonical_next
    | (simp only [↓State.canonical_mk, List.length_modify, List.length_set, List.length_map, List.length_replicate, List.length_zipIdx]; with_reducible apply State.canonical_parts)

theorem State.acceptProof_canonical (s : State) (rq : Rq) (h_s : (s).canonical) :
    (State.acceptProof s rq).canonical := by
  unfold State.acceptProof
  repeat' first
    | with_reducible assumption
    | with_reducible apply State.decideWithdraw_canonical
    | with_reducible apply State.respond_canonical
    | with_reducible apply State.planRestart_canonical
    | (extract_lets +onlyGivenNames x; clear_value x)
    | (simp only [↓State.canonical_mk]; with_reducible apply State.canonical_parts)

theorem execChkProofRestart_canonical (rq : Rq) (s : State) (h_s : (s).canonical) :
    Res.canonical (execChkProofRestart rq s) := by
  unfold execChkProofRestart
  repeat' first
    | with_reducible intro x
    | with_reducible assumption
    | with_reducible apply State.cmd_canonical
    | with_reducible apply State.respond_canonical
    | with_reducible apply State.starting_canonical
    | with_reducible apply State.relay_canonical
    | with_reducible apply canonical_ite
    | with_reducible apply Res.canonical_next

theorem execChkFaultClear_canonical (rq : Rq) (s : State) (h_s : (s).canonical) :
    Res.canonical (execChkFaultClear rq s) := by
  unfold execChkFaultClear
  repeat' first
    | with_reducible intro x
    | with_reducible assumption
    | with_reducible apply State.cmd_canonical
    | with_reducible apply State.clearEntry_canonical
    | with_reducible apply State.respond_canonical
    | with_reducible apply Res.canonical_next

theorem State.modEp_canonical (s : State) (n : Nat) (f : EpS → EpS) (h_s : (s).canonical) :
    (State.modEp s n f).canonical := by
  unfold State.modEp
  repeat' first | with_reducible assumption | (simp only [↓State.canonical_mk, List.length_modify, List.length_set, List.length_map, List.length_replicate, List.length_zipIdx]; with_reducible apply State.canonical_parts)

theorem State.dbg_canonical (s : State) (rq : Rq) (op : Nat) (n : U8) (f : State → State) (h_s : (s).canonical) (h_f : ∀ (y0 : State), (y0).canonical → (f y0).canonical) :
    (State.dbg s rq op n f).canonical := by
  unfold State.dbg
  repeat' first
    | with_reducible intro x
    | with_reducible assumption
    | with_reducible apply h_f
    | with_reducible apply State.cmd_canonical
    | with_reducible apply State.respond_canonical
    | with_reducible apply canonical_ite

theorem State.draw64_canonical (s : State) (h_s : (s).canonical) :
    (State.draw64 s).2.canonical := by
  unfold State.draw64
  repeat' first | with_reducible assumption | with_reducible apply State.drawWord_canonical

theorem execDbgHalt_canonical (rq : Rq) (n : U8) (s : State) (h_s : (s).canonical) :
    Res.canonical (execDbgHalt rq n s) := by
  unfold execDbgHalt
  repeat' first
    | with_reducible intro x
    | with_reducible assumption
    | with_reducible apply State.dbg_canonical
    | with_reducible apply State.draw64_canonical
    | with_reducible apply State.modEp_canonical
    | with_reducible apply State.respond_canonical
    | with_reducible apply Res.canonical_next
    | split

theorem execDbgResume_canonical (rq : Rq) (n : U8) (s : State) (h_s : (s).canonical) :
    Res.canonical (execDbgResume rq n s) := by
  unfold execDbgResume
  repeat' first
    | with_reducible intro x
    | with_reducible assumption
    | with_reducible apply State.dbg_canonical
    | with_reducible apply State.respond_canonical
    | with_reducible apply State.modEp_canonical
    | with_reducible apply canonical_ite
    | with_reducible apply Res.canonical_next

theorem execDbgStep_canonical (rq : Rq) (n : U8) (count : U16) (s : State) (h_s : (s).canonical) :
    Res.canonical (execDbgStep rq n count s) := by
  unfold execDbgStep
  repeat' first
    | with_reducible intro x
    | with_reducible assumption
    | with_reducible apply State.dbg_canonical
    | with_reducible apply State.respond_canonical
    | with_reducible apply State.draw64_canonical
    | with_reducible apply State.modEp_canonical
    | with_reducible apply canonical_ite
    | with_reducible apply Res.canonical_next

theorem State.regValue_canonical (s : State) (n r : Nat) (h_s : (s).canonical) :
    (State.regValue s n r).2.canonical := by
  unfold State.regValue
  repeat' first | with_reducible assumption | with_reducible apply State.draw64_canonical | with_reducible apply State.modEp_canonical | split

theorem execDbgRegRead_canonical (rq : Rq) (n : U8) (first count : U16) (s : State) (h_s : (s).canonical) :
    Res.canonical (execDbgRegRead rq n first count s) := by
  unfold execDbgRegRead
  repeat' first
    | with_reducible intro x
    | with_reducible assumption
    | with_reducible apply State.dbg_canonical
    | with_reducible apply State.respond_canonical
    | with_reducible apply State.regValue_canonical
    | with_reducible apply canonical_foldl_snd
    | with_reducible apply canonical_ite
    | with_reducible apply Res.canonical_next

theorem execDbgRegWrite_canonical (rq : Rq) (n : U8) (r : U16) (value : U64) (s : State) (h_s : (s).canonical) :
    Res.canonical (execDbgRegWrite rq n r value s) := by
  unfold execDbgRegWrite
  repeat' first
    | with_reducible intro x
    | with_reducible assumption
    | with_reducible apply State.dbg_canonical
    | with_reducible apply State.respond_canonical
    | with_reducible apply State.modEp_canonical
    | with_reducible apply canonical_ite
    | with_reducible apply Res.canonical_next

theorem State.dbgAccess_canonical (s : State) (rq : Rq) (op kind a len : Nat) (f : State → State) (h_s : (s).canonical) (h_f : ∀ (y0 : State), (y0).canonical → (f y0).canonical) :
    (State.dbgAccess s rq op kind a len f).canonical := by
  unfold State.dbgAccess
  repeat' first
    | with_reducible assumption
    | with_reducible apply h_f
    | with_reducible apply State.respond_canonical
    | with_reducible apply State.refuseAt_canonical
    | with_reducible apply canonical_ite
    | split

theorem execDbgMemRead_canonical (rq : Rq) (n : U8) (addr : U64) (len : U32) (s : State) (h_s : (s).canonical) :
    Res.canonical (execDbgMemRead rq n addr len s) := by
  unfold execDbgMemRead
  repeat' first
    | with_reducible intro x
    | with_reducible assumption
    | with_reducible apply State.dbg_canonical
    | with_reducible apply State.dbgAccess_canonical
    | with_reducible apply State.respond_canonical
    | with_reducible apply Res.canonical_next

theorem execDbgMemWrite_canonical (rq : Rq) (n : U8) (addr : U64) (data : List Byte) (s : State) (h_s : (s).canonical) :
    Res.canonical (execDbgMemWrite rq n addr data s) := by
  unfold execDbgMemWrite
  repeat' first
    | with_reducible intro x
    | with_reducible assumption
    | with_reducible apply State.dbg_canonical
    | with_reducible apply State.dbgAccess_canonical
    | with_reducible apply State.putCells_canonical
    | with_reducible apply State.respond_canonical
    | with_reducible apply Res.canonical_next

theorem execDbgBreak_canonical (rq : Rq) (n kind : U8) (slot : U16) (addr : U64) (s : State) (h_s : (s).canonical) :
    Res.canonical (execDbgBreak rq n kind slot addr s) := by
  unfold execDbgBreak
  repeat' first
    | with_reducible intro x
    | with_reducible assumption
    | with_reducible apply State.dbg_canonical
    | with_reducible apply State.respond_canonical
    | with_reducible apply State.modEp_canonical
    | with_reducible apply canonical_ite
    | with_reducible apply Res.canonical_next

theorem execDbgReset_canonical (rq : Rq) (scope : U32) (s : State) (h_s : (s).canonical) :
    Res.canonical (execDbgReset rq scope s) := by
  unfold execDbgReset
  repeat' first
    | with_reducible intro x
    | with_reducible assumption
    | with_reducible apply State.cmd_canonical
    | with_reducible apply State.respond_canonical
    | with_reducible apply State.reset1_canonical
    | with_reducible apply State.regionClose_canonical
    | with_reducible apply canonical_ite
    | with_reducible apply canonical_dite
    | with_reducible apply Res.canonical_next

theorem execDbgTraceRead_canonical (rq : Rq) (offset : U64) (len : U32) (s : State) (h_s : (s).canonical) :
    Res.canonical (execDbgTraceRead rq offset len s) := by
  unfold execDbgTraceRead
  repeat' first
    | with_reducible intro x
    | with_reducible assumption
    | with_reducible apply State.cmd_canonical
    | with_reducible apply State.respond_canonical
    | with_reducible apply State.drawBytes_canonical
    | with_reducible apply canonical_ite
    | with_reducible apply Res.canonical_next

end Sys2Proof.Machine
end

