-- ==== Sys2Proof/Laws/CanonTimeOps.lean ====
section
/-!
SUPPORT. Every function of Machine/TimeOps.lean keeps the canonical form of State.
-/

set_option linter.all false

namespace Sys2Proof.Machine

theorem State.slew_canonical (s : State) (off : Int) (h_s : (s).canonical) :
    (State.slew s off).canonical := by
  unfold State.slew
  repeat' first
    | with_reducible assumption
    | with_reducible apply State.setWord_canonical
    | with_reducible apply State.setBit_canonical
    | (extract_lets +onlyGivenNames x; have hx : State.canonical x := ?_; clear_value x)
    | (extract_lets +onlyGivenNames x; clear_value x)
    | (simp only [↓State.canonical_mk]; with_reducible apply State.canonical_parts)

theorem State.stepBy_canonical (s : State) (off : Int) (h_s : (s).canonical) :
    (State.stepBy s off).canonical := by
  unfold State.stepBy
  repeat' first
    | with_reducible assumption
    | with_reducible apply State.setWord_canonical
    | (extract_lets +onlyGivenNames x; have hx : State.canonical x := ?_; clear_value x)
    | (extract_lets +onlyGivenNames x; clear_value x)
    | (simp only [↓State.canonical_mk]; with_reducible apply State.canonical_parts)

theorem State.timeSet_canonical (s : State) (h_s : (s).canonical) :
    (State.timeSet s).canonical := by
  unfold State.timeSet
  repeat' first | with_reducible assumption | with_reducible apply State.setBit_canonical

theorem State.timeSource_canonical (s : State) (h_s : (s).canonical) :
    (State.timeSource s).canonical := by
  unfold State.timeSource
  repeat' first | with_reducible assumption | with_reducible apply State.setFld_canonical | with_reducible apply State.setBit_canonical

end Sys2Proof.Machine
end

