-- ==== Sys2Proof/Laws/CanonTime.lean ====
section
/-!
SUPPORT. Every function of Machine/Time.lean keeps the canonical form of State.
-/

set_option linter.all false

namespace Sys2Proof.Machine

theorem execTimeStep_canonical (rq : Rq) (plant : U64) (s : State) (h_s : (s).canonical) :
    Res.canonical (execTimeStep rq plant s) := by
  unfold execTimeStep
  repeat' first
    | with_reducible intro x
    | with_reducible assumption
    | with_reducible apply State.cmd_canonical
    | with_reducible apply State.timeSet_canonical
    | with_reducible apply State.respond_canonical
    | with_reducible apply State.setBit_canonical
    | with_reducible apply State.ev_canonical
    | with_reducible apply canonical_ite
    | with_reducible apply Res.canonical_next
    | (simp only [x, ↓State.canonical_mk]; with_reducible apply State.canonical_parts)

theorem execPtpMessageReceive_canonical (m : PtpMsg) (s : State) (h_s : (s).canonical) :
    Res.canonical (execPtpMessageReceive m s) := by
  unfold execPtpMessageReceive
  repeat' first
    | with_reducible assumption
    | with_reducible apply State.setBit_canonical
    | with_reducible apply State.ev_canonical
    | with_reducible apply State.setWord_canonical
    | with_reducible apply State.timeSet_canonical
    | with_reducible apply State.stepBy_canonical
    | with_reducible apply State.slew_canonical
    | with_reducible apply canonical_ite
    | with_reducible apply Res.canonical_next
    | (simp only [x, ↓State.canonical_mk]; with_reducible apply State.canonical_parts)
    | (extract_lets +onlyGivenNames x; have hx : State.canonical x := ?_; clear_value x)
    | (extract_lets +onlyGivenNames x; clear_value x)
    | (simp only [↓State.canonical_mk]; with_reducible apply State.canonical_parts)
    | split

theorem execPtpHoldover_canonical (s : State) (h_s : (s).canonical) :
    Res.canonical (execPtpHoldover s) := by
  unfold execPtpHoldover
  repeat' first
    | with_reducible assumption
    | with_reducible apply State.setBit_canonical
    | with_reducible apply State.ev_canonical
    | with_reducible apply canonical_ite
    | with_reducible apply Res.canonical_next
    | (extract_lets +onlyGivenNames x; have hx : State.canonical x := ?_; clear_value x)
    | (extract_lets +onlyGivenNames x; clear_value x)
    | (simp only [↓State.canonical_mk]; with_reducible apply State.canonical_parts)

theorem execAlignFault_canonical (s : State) (h_s : (s).canonical) :
    Res.canonical (execAlignFault s) := by
  unfold execAlignFault
  repeat' first
    | with_reducible assumption
    | with_reducible apply State.setBit_canonical
    | with_reducible apply State.ev_canonical
    | with_reducible apply State.decideWithdraw_canonical
    | with_reducible apply canonical_ite
    | with_reducible apply Res.canonical_next

end Sys2Proof.Machine
end

