-- ==== Sys2Proof/Laws/CanonTickOps.lean ====
section
/-!
SUPPORT. Every function of Machine/TickOps.lean keeps the canonical form of State.
-/

set_option linter.all false

namespace Sys2Proof.Machine

theorem State.rollPort_canonical (s : State) (p k : Nat) (h_s : (s).canonical) :
    (State.rollPort s p k).canonical := by
  unfold State.rollPort
  repeat' first
    | with_reducible intro x
    | with_reducible assumption
    | with_reducible apply State.withSched_canonical
    | with_reducible apply State.breakEstimate_canonical
    | with_reducible apply State.applySets_canonical
    | with_reducible apply State.modPort_canonical
    | with_reducible apply State.setBit_canonical
    | with_reducible apply State.when_canonical
    | with_reducible apply canonical_ite

theorem State.headLaunch_canonical (s : State) (p k : Nat) (dev : Int) (differs : Bool) (h_s : (s).canonical) :
    (State.headLaunch s p k dev differs).canonical := by
  unfold State.headLaunch
  repeat' first
    | with_reducible intro x
    | with_reducible assumption
    | with_reducible apply State.withSched_canonical
    | with_reducible apply State.launchBeacon_canonical
    | with_reducible apply State.launchBcast_canonical
    | with_reducible apply canonical_ite

theorem State.localIntake_canonical (s : State) (h_s : (s).canonical) :
    (State.localIntake s).canonical := by
  unfold State.localIntake
  repeat' first
    | with_reducible intro x
    | with_reducible assumption
    | with_reducible apply State.each_canonical
    | with_reducible apply State.setPm_canonical
    | with_reducible apply State.when_canonical
    | with_reducible apply State.gaugeRec_canonical
    | with_reducible apply canonical_ite

theorem State.deliver_canonical (s : State) (m : Nat × List Byte) (h_s : (s).canonical) :
    (State.deliver s m).canonical := by
  unfold State.deliver
  repeat' first
    | with_reducible assumption
    | with_reducible apply State.setPm_canonical
    | with_reducible apply State.gaugeRec_canonical
    | (extract_lets +onlyGivenNames x; have hx : State.canonical x := ?_; clear_value x)
    | (extract_lets +onlyGivenNames x; have _ : ProgS := x; simp only [x]; clear x)
    | (simp only [↓State.canonical_mk]; with_reducible apply State.canonical_parts)
    | split

theorem State.inboxIntake_canonical (s : State) (k : Nat) (h_s : (s).canonical) :
    (State.inboxIntake s k).canonical := by
  unfold State.inboxIntake
  repeat' first
    | with_reducible intro x
    | with_reducible assumption
    | with_reducible apply State.each_canonical
    | with_reducible apply State.deliver_canonical
    | (extract_lets +onlyGivenNames x; have _ : ProgS := x; simp only [x]; clear x)
    | (simp only [↓State.canonical_mk]; with_reducible apply State.canonical_parts)

theorem State.cellsRec_canonical (s : State) (before : List (Nat × U32)) (h_s : (s).canonical) :
    (State.cellsRec s before).canonical := by
  unfold State.cellsRec
  repeat' first | with_reducible intro x | with_reducible assumption | with_reducible apply State.when_canonical | with_reducible apply State.gaugeRec_canonical

theorem State.keepSkipped_canonical (s : State) (k : Nat) (changed : List (Nat × List (Nat × Nat))) (h_s : (s).canonical) :
    (State.keepSkipped s k changed).canonical := by
  unfold State.keepSkipped
  repeat' first | with_reducible assumption | (extract_lets +onlyGivenNames x; have _ : ProgS := x; simp only [x]; clear x) | (extract_lets +onlyGivenNames x; clear_value x) | (simp only [↓State.canonical_mk]; with_reducible apply State.canonical_parts)

theorem State.intake_canonical (s : State) (k : Nat) (h_s : (s).canonical) :
    (State.intake s k).canonical := by
  unfold State.intake
  repeat' first
    | with_reducible intro x
    | with_reducible assumption
    | with_reducible apply State.unforce_canonical
    | with_reducible apply State.each_canonical
    | with_reducible apply State.setPmByte_canonical
    | with_reducible apply State.publish_canonical
    | with_reducible apply State.localIntake_canonical
    | with_reducible apply State.cellsRec_canonical
    | with_reducible apply State.queueIntake_canonical
    | with_reducible apply State.inboxIntake_canonical
    | with_reducible apply State.forceInputs_canonical
    | with_reducible apply State.keepSkipped_canonical
    | with_reducible apply State.releases_canonical
    | with_reducible apply State.commitEffects_canonical

theorem State.settleRun_canonical (s : State) (own : Nat) (partner : Option Nat) (ps : List Nat) (m : Nat) (h_s : (s).canonical) :
    (State.settleRun s own partner ps m).canonical := by
  unfold State.settleRun
  repeat' first
    | with_reducible intro x
    | with_reducible assumption
    | with_reducible apply State.when_canonical
    | with_reducible apply State.inc_canonical
    | with_reducible apply State.setBit_canonical
    | with_reducible apply State.modTask_canonical
    | with_reducible apply State.taskMiss_canonical
    | with_reducible apply canonical_ite

theorem State.settleRuns_canonical (s : State) (k own : Nat) (partner : Option Nat) (h_s : (s).canonical) :
    (State.settleRuns s k own partner).canonical := by
  unfold State.settleRuns
  repeat' first
    | with_reducible intro x
    | with_reducible assumption
    | with_reducible apply State.each_canonical
    | with_reducible apply State.settleRun_canonical
    | with_reducible apply State.agreeRuns_canonical

theorem State.makeCuts_canonical (s : State) (k : Nat) (h_s : (s).canonical) :
    (State.makeCuts s k).canonical := by
  unfold State.makeCuts
  repeat' first
    | with_reducible intro x
    | with_reducible assumption
    | with_reducible apply State.holdOrphans_canonical
    | with_reducible apply State.each_canonical
    | with_reducible apply State.cutTrunk_canonical
    | with_reducible apply State.cutLocal_canonical

theorem State.tickRec_canonical (s : State) (agreed loops gens groups : Nat) (h_s : (s).canonical) :
    (State.tickRec s agreed loops gens groups).canonical := by
  unfold State.tickRec
  repeat' first | with_reducible assumption | with_reducible apply State.gaugeRec_canonical

theorem State.settle_canonical (s : State) (k own : Nat) (x : Option Exch) (h_s : (s).canonical) :
    (State.settle s k own x).canonical := by
  unfold State.settle
  repeat' first
    | with_reducible assumption
    | with_reducible apply State.settleRuns_canonical
    | with_reducible apply State.settleLoops_canonical
    | with_reducible apply State.makeCuts_canonical
    | with_reducible apply State.tickRec_canonical

end Sys2Proof.Machine
end

