-- ==== Sys2Proof/Laws/CanonSyncOps.lean ====
section
/-!
SUPPORT. Every function of Machine/SyncOps.lean keeps the canonical form of State.
-/

set_option linter.all false

namespace Sys2Proof.Machine

theorem State.modLink_canonical (s : State) (l : Link) (f : LinkS → LinkS) (h_s : (s).canonical) :
    (State.modLink s l f).canonical := by
  unfold State.modLink
  repeat' first | with_reducible assumption | (extract_lets +onlyGivenNames x; clear_value x) | (simp only [↓State.canonical_mk]; with_reducible apply State.canonical_parts) | split

theorem State.linkFrame_canonical (s : State) (h : LinkFrame) (h_s : (s).canonical) :
    (State.linkFrame s h).canonical := by
  unfold State.linkFrame
  repeat' first
    | with_reducible assumption
    | with_reducible apply State.inc_canonical
    | with_reducible apply State.modLink_canonical
    | with_reducible apply State.setBit_canonical
    | with_reducible apply State.ev_canonical
    | with_reducible apply canonical_ite

theorem State.frameIn_canonical (s : State) (h : LinkFrame) (data : Bool) (f : State → State) (h_s : (s).canonical) (h_f : ∀ (y0 : State), (y0).canonical → (f y0).canonical) :
    (State.frameIn s h data f).canonical := by
  unfold State.frameIn
  repeat' first
    | with_reducible assumption
    | with_reducible apply h_f
    | with_reducible apply State.linkFrame_canonical
    | with_reducible apply canonical_ite
    | (extract_lets +onlyGivenNames x; clear_value x)
    | (simp only [↓State.canonical_mk]; with_reducible apply State.canonical_parts)

theorem State.sendAcks_canonical (s : State) (h_s : (s).canonical) :
    (State.sendAcks s).canonical := by
  unfold State.sendAcks
  repeat' first
    | with_reducible intro x
    | with_reducible assumption
    | with_reducible apply State.each_canonical
    | with_reducible apply State.message_canonical
    | (extract_lets +onlyGivenNames x; have _ : KprS := x; simp only [x]; clear x)
    | (simp only [↓State.canonical_mk]; with_reducible apply State.canonical_parts)

theorem State.sendReady_canonical (s : State) (h_s : (s).canonical) :
    (State.sendReady s).canonical := by
  unfold State.sendReady
  repeat' first
    | with_reducible assumption
    | with_reducible apply State.control_canonical
    | with_reducible apply canonical_ite
    | (extract_lets +onlyGivenNames x; have hx : State.canonical x := ?_; clear_value x)
    | (extract_lets +onlyGivenNames x; clear_value x)
    | (simp only [↓State.canonical_mk]; with_reducible apply State.canonical_parts)
    | split

theorem State.formExch_canonical (s : State) (h_s : (s).canonical) :
    (State.formExch s).canonical := by
  unfold State.formExch
  repeat' first | with_reducible assumption | (extract_lets +onlyGivenNames x; clear_value x) | (simp only [↓State.canonical_mk]; with_reducible apply State.canonical_parts)

theorem State.outputCut_canonical (s : State) (fault : Bool) (h_s : (s).canonical) :
    (State.outputCut s fault).canonical := by
  unfold State.outputCut
  repeat' first
    | with_reducible apply State.formExch_canonical
    | with_reducible apply State.ownVerdict_canonical
    | with_reducible apply State.sendAcks_canonical
    | with_reducible apply State.sendReady_canonical
    | (extract_lets +onlyGivenNames x; have _ : ProgS := x; simp only [x]; clear x)
    | (extract_lets +onlyGivenNames x; clear_value x)
    | (simp only [↓State.canonical_mk, List.length_modify, List.length_set, List.length_map, List.length_replicate, List.length_zipIdx, true_and, and_true]; have h := State.canonical_parts ‹_›; simp only [h, and_self])

theorem State.sendVector_canonical (s : State) (p : Fin 16) (h_s : (s).canonical) :
    (State.sendVector s p).canonical := by
  unfold State.sendVector
  repeat' first
    | with_reducible intro x
    | with_reducible assumption
    | with_reducible apply State.withSched_canonical
    | with_reducible apply State.launchRecord_canonical
    | with_reducible apply canonical_ite

theorem State.launchBeat_canonical (s : State) (txA txB : Nat) (h_s : (s).canonical) :
    (State.launchBeat s txA txB).canonical := by
  unfold State.launchBeat
  repeat' first
    | with_reducible intro x
    | with_reducible assumption
    | with_reducible apply State.when_canonical
    | with_reducible apply State.settle_canonical
    | with_reducible apply State.compareWires_canonical
    | with_reducible apply State.each_canonical
    | with_reducible apply State.sendVector_canonical
    | with_reducible apply State.modLink_canonical
    | with_reducible apply State.gaugeRec_canonical
    | (extract_lets +onlyGivenNames x; clear_value x)
    | (simp only [↓State.canonical_mk]; with_reducible apply State.canonical_parts)

theorem State.measureLink_canonical (s : State) (l : Link) (rx : Nat) (tick : Nat) (b : Beat) (h_s : (s).canonical) :
    (State.measureLink s l rx tick b).canonical := by
  unfold State.measureLink
  repeat' first
    | with_reducible assumption
    | with_reducible apply State.modLink_canonical
    | with_reducible apply State.setWord_canonical
    | (extract_lets +onlyGivenNames x; have hx : State.canonical x := ?_; clear_value x)
    | (extract_lets +onlyGivenNames x; clear_value x)
    | split

theorem State.partnerShows_canonical (s : State) (m : Nat) (h_s : (s).canonical) :
    (State.partnerShows s m).canonical := by
  unfold State.partnerShows
  repeat' first
    | with_reducible intro x
    | with_reducible assumption
    | with_reducible apply State.partnerGone_canonical
    | with_reducible apply canonical_ite
    | (extract_lets +onlyGivenNames x; have hx : State.canonical x := ?_; clear_value x)
    | (extract_lets +onlyGivenNames x; have hx : ∀ s : State, State.canonical s → State.canonical (x s) := ?_; clear_value x)
    | (extract_lets +onlyGivenNames x; clear_value x)
    | (simp only [↓State.canonical_mk]; with_reducible apply State.canonical_parts)
    | split
    | with_reducible apply_assumption

theorem State.beatItem_canonical (s : State) (tick : Nat) (b : Beat) (h_s : (s).canonical) :
    (State.beatItem s tick b).canonical := by
  unfold State.beatItem
  repeat' first
    | with_reducible intro x
    | with_reducible assumption
    | with_reducible apply State.when_canonical
    | with_reducible apply State.hearClaim_canonical
    | with_reducible apply State.setWord_canonical
    | with_reducible apply State.setFld_canonical
    | with_reducible apply State.heard_canonical
    | with_reducible apply State.partnerShows_canonical
    | with_reducible apply canonical_ite
    | (simp only [x, ↓State.canonical_mk]; with_reducible apply State.canonical_parts)
    | (extract_lets +onlyGivenNames x; have hx : State.canonical x := ?_; clear_value x)
    | (extract_lets +onlyGivenNames x; clear_value x)
    | (simp only [↓State.canonical_mk]; with_reducible apply State.canonical_parts)

theorem State.countLink_canonical (s : State) (l : Link) (lock : Bool) (h_s : (s).canonical) :
    (State.countLink s l lock).canonical := by
  unfold State.countLink
  repeat' first | with_reducible assumption | with_reducible apply State.modLink_canonical

theorem State.useTheta_canonical (s : State) (h_s : (s).canonical) :
    (State.useTheta s).canonical := by
  unfold State.useTheta
  repeat' first
    | with_reducible intro x
    | with_reducible assumption
    | with_reducible apply State.when_canonical
    | with_reducible apply State.setBit_canonical
    | with_reducible apply State.modLink_canonical
    | with_reducible apply State.setWord_canonical
    | with_reducible apply State.slew_canonical
    | with_reducible apply State.stepBy_canonical
    | with_reducible apply State.timeSet_canonical
    | with_reducible apply canonical_ite
    | (extract_lets +onlyGivenNames x; have hx : State.canonical x := ?_; clear_value x)
    | (extract_lets +onlyGivenNames x; clear_value x)
    | (simp only [↓State.canonical_mk]; with_reducible apply State.canonical_parts)
    | split

theorem State.agreeDue_canonical (s : State) (pair : Bool) (p : Nat) (h_s : (s).canonical) :
    (State.agreeDue s pair p).canonical := by
  unfold State.agreeDue
  repeat' first
    | with_reducible intro x
    | with_reducible assumption
    | with_reducible apply State.withSched_canonical
    | with_reducible apply State.modPort_canonical
    | with_reducible apply State.agreeTrunk_canonical
    | with_reducible apply canonical_ite

theorem State.agreeSnaps_canonical (s : State) (pair : Bool) (h_s : (s).canonical) :
    (State.agreeSnaps s pair).canonical := by
  unfold State.agreeSnaps
  repeat' first
    | with_reducible assumption
    | with_reducible apply State.agreeLocal_canonical
    | with_reducible apply State.inc_canonical
    | with_reducible apply canonical_ite
    | (extract_lets +onlyGivenNames x; clear_value x)
    | (simp only [↓State.canonical_mk]; with_reducible apply State.canonical_parts)
    | split

theorem State.countHeartbeat_canonical (s : State) (h_s : (s).canonical) :
    (State.countHeartbeat s).canonical := by
  unfold State.countHeartbeat
  repeat' first
    | with_reducible assumption
    | with_reducible apply State.setBit_canonical
    | with_reducible apply canonical_ite
    | (extract_lets +onlyGivenNames x; have hx : State.canonical x := ?_; clear_value x)
    | (extract_lets +onlyGivenNames x; clear_value x)
    | (simp only [↓State.canonical_mk]; with_reducible apply State.canonical_parts)

theorem State.silenceRule_canonical (s : State) (h_s : (s).canonical) :
    (State.silenceRule s).canonical := by
  unfold State.silenceRule
  repeat' first
    | with_reducible assumption
    | with_reducible apply State.partnerGone_canonical
    | with_reducible apply canonical_ite
    | (extract_lets +onlyGivenNames x; clear_value x)
    | (simp only [↓State.canonical_mk]; with_reducible apply State.canonical_parts)

theorem State.decideDiverge_canonical (s : State) (h_s : (s).canonical) :
    (State.decideDiverge s).canonical := by
  unfold State.decideDiverge
  repeat' first
    | with_reducible assumption
    | with_reducible apply State.diverge_canonical
    | with_reducible apply canonical_ite
    | (extract_lets +onlyGivenNames x; clear_value x)
    | (simp only [↓State.canonical_mk]; with_reducible apply State.canonical_parts)
    | split

theorem State.windowEnd_canonical (s : State) (lockA lockB : Bool) (h_s : (s).canonical) :
    (State.windowEnd s lockA lockB).canonical := by
  unfold State.windowEnd
  repeat' first
    | with_reducible intro x
    | with_reducible assumption
    | with_reducible apply State.countLink_canonical
    | with_reducible apply State.useTheta_canonical
    | with_reducible apply State.heartbeatLost_canonical
    | with_reducible apply State.each_canonical
    | with_reducible apply State.agreeDue_canonical
    | with_reducible apply State.agreeEvents_canonical
    | with_reducible apply State.agreeSnaps_canonical
    | with_reducible apply State.decideDiverge_canonical
    | with_reducible apply State.countSilence_canonical
    | with_reducible apply State.silenceRule_canonical
    | with_reducible apply State.suspendDue_canonical
    | with_reducible apply State.commStep_canonical
    | with_reducible apply State.countHeartbeat_canonical
    | with_reducible apply canonical_ite
    | (extract_lets +onlyGivenNames x; have hx : State.canonical x := ?_; clear_value x)
    | (extract_lets +onlyGivenNames x; clear_value x)
    | (simp only [↓State.canonical_mk]; with_reducible apply State.canonical_parts)

theorem State.recordIn_canonical (s : State) (r : RxRecord) (h_s : (s).canonical) :
    (State.recordIn s r).canonical := by
  unfold State.recordIn
  repeat' first
    | with_reducible intro x
    | with_reducible assumption
    | with_reducible apply State.inc_canonical
    | with_reducible apply State.modPort_canonical
    | with_reducible apply canonical_ite
    | (extract_lets +onlyGivenNames x; have hx : ∀ s : State, State.canonical s → State.canonical (x s) := ?_; clear_value x)
    | (extract_lets +onlyGivenNames x; clear_value x)
    | split
    | with_reducible apply_assumption

end Sys2Proof.Machine
end

