-- ==== Sys2Proof/Laws/CanonResyncOps.lean ====
section
/-!
SUPPORT. Every function of Machine/ResyncOps.lean keeps the canonical form of State.
-/

set_option linter.all false

namespace Sys2Proof.Machine

theorem State.resyncPhase_canonical (s : State) (ph : Nat) (h_s : (s).canonical) :
    (State.resyncPhase s ph).canonical := by
  unfold State.resyncPhase
  repeat' first
    | with_reducible assumption
    | with_reducible apply State.setFld_canonical
    | (extract_lets +onlyGivenNames x; have hx : State.canonical x := ?_; clear_value x)
    | (extract_lets +onlyGivenNames x; clear_value x)
    | (simp only [↓State.canonical_mk]; with_reducible apply State.canonical_parts)

theorem State.resyncFail_canonical (s : State) (cause : Nat) (h_s : (s).canonical) :
    (State.resyncFail s cause).canonical := by
  unfold State.resyncFail
  repeat' first | with_reducible assumption | with_reducible apply State.resyncDrop_canonical | with_reducible apply State.enterMode_canonical | with_reducible apply canonical_ite

theorem State.acceptJoin_canonical (s : State) (h_s : (s).canonical) :
    (State.acceptJoin s).canonical := by
  unfold State.acceptJoin
  repeat' first
    | with_reducible assumption
    | with_reducible apply State.setBit_canonical
    | with_reducible apply State.control_canonical
    | (extract_lets +onlyGivenNames x; have hx : State.canonical x := ?_; clear_value x)
    | (extract_lets +onlyGivenNames x; clear_value x)
    | (simp only [↓State.canonical_mk]; with_reducible apply State.canonical_parts)

theorem State.deferredJoin_canonical (s : State) (h_s : (s).canonical) :
    (State.deferredJoin s).canonical := by
  unfold State.deferredJoin
  repeat' first | with_reducible assumption | with_reducible apply State.acceptJoin_canonical | with_reducible apply canonical_ite

theorem State.leadResync_canonical (s : State) (k : Nat) (h_s : (s).canonical) :
    (State.leadResync s k).canonical := by
  unfold State.leadResync
  repeat' first
    | with_reducible assumption
    | with_reducible apply State.resyncPhase_canonical
    | with_reducible apply State.setBit_canonical
    | with_reducible apply State.setFld_canonical
    | with_reducible apply State.enterMode_canonical
    | with_reducible apply canonical_ite
    | (simp only [x, ↓State.canonical_mk]; with_reducible apply State.canonical_parts)
    | (extract_lets +onlyGivenNames x; have hx : State.canonical x := ?_; clear_value x)
    | (extract_lets +onlyGivenNames x; clear_value x)
    | (simp only [↓State.canonical_mk]; with_reducible apply State.canonical_parts)

theorem State.leadSees_canonical (s : State) (b : Beat) (h_s : (s).canonical) :
    (State.leadSees s b).canonical := by
  unfold State.leadSees
  repeat' first | with_reducible assumption | with_reducible apply State.resyncPhase_canonical | with_reducible apply canonical_ite | split

theorem State.beginResync_canonical (s : State) (k : Nat) (h_s : (s).canonical) :
    (State.beginResync s k).canonical := by
  unfold State.beginResync
  repeat' first
    | with_reducible assumption
    | with_reducible apply State.enterMode_canonical
    | with_reducible apply State.resyncPhase_canonical
    | with_reducible apply State.setBit_canonical
    | with_reducible apply State.setFld_canonical
    | (extract_lets +onlyGivenNames x; clear_value x)
    | (simp only [↓State.canonical_mk]; with_reducible apply State.canonical_parts)

theorem State.imagesDone_canonical (s : State) (h_s : (s).canonical) :
    (State.imagesDone s).canonical := by
  unfold State.imagesDone
  repeat' first | with_reducible assumption | with_reducible apply State.resyncPhase_canonical | with_reducible apply canonical_ite | split

theorem State.imageIn_canonical (s : State) (content : MsgContent) (body : List Byte) (h_s : (s).canonical) :
    (State.imageIn s content body).canonical := by
  unfold State.imageIn
  repeat' first
    | with_reducible assumption
    | with_reducible apply State.pushBank_canonical
    | with_reducible apply State.loadTasks_canonical
    | with_reducible apply State.ev_canonical
    | with_reducible apply State.imagesDone_canonical
    | with_reducible apply State.restoreSettings_canonical
    | with_reducible apply State.configChanged_canonical
    | with_reducible apply State.resyncFail_canonical
    | with_reducible apply canonical_ite
    | (extract_lets +onlyGivenNames x; have hx : State.canonical x := ?_; clear_value x)
    | (extract_lets +onlyGivenNames x; clear_value x)
    | (simp only [↓State.canonical_mk]; with_reducible apply State.canonical_parts)
    | split

theorem State.converted_canonical (s : State) (bs : List (Nat × Byte)) (h_s : (s).canonical) :
    (State.converted s bs).2.canonical := by
  unfold State.converted
  repeat' first
    | with_reducible assumption
    | with_reducible apply State.drawBytes_canonical
    | (extract_lets +onlyGivenNames x; have hx : State.canonical x.2 := ?_; clear_value x)
    | (extract_lets +onlyGivenNames x; clear_value x)
    | split

theorem State.pageIn_canonical (s : State) (addr quarter pass : Nat) (data : List Byte) (h_s : (s).canonical) :
    (State.pageIn s addr quarter pass data).canonical := by
  unfold State.pageIn
  repeat' first
    | with_reducible assumption
    | with_reducible apply State.converted_canonical
    | with_reducible apply State.setFld_canonical
    | with_reducible apply State.putCells_canonical
    | with_reducible apply canonical_ite
    | (extract_lets +onlyGivenNames x; clear_value x)
    | (simp only [↓State.canonical_mk]; with_reducible apply State.canonical_parts)
    | split

theorem State.installProgram_canonical (s : State) (c : CutState) (h_s : (s).canonical) :
    (State.installProgram s c).canonical := by
  have h := State.canonical_parts h_s
  simp only [State.installProgram, State.canonical_mk, List.length_map, List.length_range, h, and_self, and_true, true_and]

theorem State.install_canonical (s : State) (c : CutState) (h_s : (s).canonical) :
    (State.install s c).canonical := by
  unfold State.install
  repeat' first
    | with_reducible intro x
    | with_reducible assumption
    | with_reducible apply State.converted_canonical
    | with_reducible apply State.keepWords_canonical
    | with_reducible apply State.each_canonical
    | with_reducible apply State.setWord_canonical
    | with_reducible apply State.setFld_canonical
    | with_reducible apply State.loadMem_canonical
    | with_reducible apply State.installProgram_canonical
    | with_reducible apply State.modPort_canonical
    | with_reducible apply State.recordIn_canonical
    | with_reducible apply State.setBit_canonical
    | with_reducible apply State.prgSums_canonical
    | (extract_lets +onlyGivenNames x; have _ : KprS := x; simp only [x]; clear x)
    | (simp only [↓State.canonical_mk]; with_reducible apply State.canonical_parts)

theorem State.leadAgrees_canonical (s : State) (t p : Nat) (h_s : (s).canonical) :
    (State.leadAgrees s t p).canonical := by
  unfold State.leadAgrees
  repeat' first
    | with_reducible intro x
    | with_reducible assumption
    | with_reducible apply State.modPort_canonical
    | with_reducible apply State.withSched_canonical
    | with_reducible apply State.agreeTrunk_canonical
    | with_reducible apply State.agreeEvents_canonical
    | with_reducible apply canonical_ite

theorem State.boundaryAt_canonical (s : State) (t : Nat) (h_s : (s).canonical) :
    (State.boundaryAt s t).canonical := by
  unfold State.boundaryAt
  repeat' first | with_reducible assumption | with_reducible apply State.applyDue_canonical

theorem State.leadTick_canonical (s : State) (t : Nat) (items : LeadItems) (runs : List (Fin 32 × RunEffects)) (h_s : (s).canonical) :
    (State.leadTick s t items runs).1.canonical := by
  unfold State.leadTick
  repeat' first
    | with_reducible intro x
    | with_reducible assumption
    | with_reducible apply State.boundaryAt_canonical
    | with_reducible apply State.each_canonical
    | with_reducible apply State.rollPort_canonical
    | with_reducible apply State.intake_canonical
    | with_reducible apply State.forceEffect_canonical
    | with_reducible apply State.schedSwitch_canonical
    | with_reducible apply State.loopWindow_canonical
    | with_reducible apply State.finishRun_canonical
    | with_reducible apply State.settle_canonical
    | with_reducible apply State.recordIn_canonical
    | with_reducible apply State.leadAgrees_canonical
    | with_reducible apply State.agreeLocal_canonical
    | with_reducible apply State.suspendDue_canonical
    | with_reducible apply canonical_ite

end Sys2Proof.Machine
end

