-- ==== Sys2Proof/Laws/CanonTick.lean ====
section
/-!
SUPPORT. Every function of Machine/Tick.lean keeps the canonical form of State.
-/

set_option linter.all false

namespace Sys2Proof.Machine

theorem State.freshTick_canonical (s : State) (h_s : (s).canonical) :
    (State.freshTick s).canonical := by
  unfold State.freshTick
  repeat' first | with_reducible assumption | (extract_lets +onlyGivenNames x; clear_value x) | (simp only [↓State.canonical_mk]; with_reducible apply State.canonical_parts)

theorem State.stopGuarded_canonical (s : State) (h_s : (s).canonical) :
    (State.stopGuarded s).canonical := by
  unfold State.stopGuarded
  repeat' first
    | with_reducible intro x
    | with_reducible assumption
    | with_reducible apply State.each_canonical
    | with_reducible apply State.suspend_canonical
    | (extract_lets +onlyGivenNames x; have _ : ProgS := x; simp only [x]; clear x)
    | (simp only [↓State.canonical_mk]; with_reducible apply State.canonical_parts)

theorem State.dueHandover_canonical (s : State) (h_s : (s).canonical) :
    (State.dueHandover s).canonical := by
  unfold State.dueHandover
  repeat' first
    | with_reducible assumption
    | with_reducible apply State.decideWithdraw_canonical
    | with_reducible apply State.setBit_canonical
    | with_reducible apply State.ev_canonical
    | with_reducible apply State.finish_canonical
    | with_reducible apply State.startHandover_canonical
    | with_reducible apply canonical_ite
    | (simp only [x, ↓State.canonical_mk]; with_reducible apply State.canonical_parts)
    | (simp only [x]; split)
    | (extract_lets +onlyGivenNames x; have hx : State.canonical x := ?_; clear_value x)
    | (extract_lets +onlyGivenNames x; clear_value x)
    | split

theorem State.boundaryChanges_canonical (s : State) (k : Nat) (h_s : (s).canonical) :
    (State.boundaryChanges s k).canonical := by
  unfold State.boundaryChanges
  repeat' first | with_reducible assumption | with_reducible apply State.applyDue_canonical

theorem execTickBoundary_canonical (dev : List Int) (differs : Nat) (cl : List U32) (gaugeLost : Bool) (s : State) (h_s : (s).canonical) :
    Res.canonical (execTickBoundary dev differs cl gaugeLost s) := by
  unfold execTickBoundary
  repeat' first
    | with_reducible intro x
    | with_reducible assumption
    | with_reducible apply State.gaugeTick_canonical
    | with_reducible apply State.freshTick_canonical
    | with_reducible apply State.each_canonical
    | with_reducible apply State.measure_canonical
    | with_reducible apply State.stopGuarded_canonical
    | with_reducible apply State.boundaryChanges_canonical
    | with_reducible apply State.when_canonical
    | with_reducible apply State.rollPort_canonical
    | with_reducible apply State.headLaunch_canonical
    | with_reducible apply State.intake_canonical
    | with_reducible apply State.admitAll_canonical
    | with_reducible apply State.emit_canonical
    | with_reducible apply State.timeSource_canonical
    | with_reducible apply State.dueHandover_canonical
    | with_reducible apply State.deferredJoin_canonical
    | with_reducible apply State.maintRefresh_canonical
    | with_reducible apply canonical_ite
    | with_reducible apply Res.canonical_next
    | (simp only [↓State.canonical_mk]; with_reducible apply State.canonical_parts)

theorem execOutputCut_canonical (fault : Bool) (volts : List U16) (s : State) (h_s : (s).canonical) :
    Res.canonical (execOutputCut fault volts s) := by
  unfold execOutputCut
  repeat' first
    | with_reducible assumption
    | with_reducible apply State.outputCut_canonical
    | with_reducible apply State.supplies_canonical
    | with_reducible apply canonical_ite
    | with_reducible apply Res.canonical_next

theorem execExchTimeout_canonical (s : State) (h_s : (s).canonical) :
    Res.canonical (execExchTimeout s) := by
  unfold execExchTimeout
  repeat' first
    | with_reducible assumption
    | with_reducible apply canonical_ite
    | with_reducible apply Res.canonical_next
    | (extract_lets +onlyGivenNames x; clear_value x)
    | (simp only [↓State.canonical_mk]; with_reducible apply State.canonical_parts)

theorem execBeatLaunch_canonical (txA txB : Nat) (s : State) (h_s : (s).canonical) :
    Res.canonical (execBeatLaunch txA txB s) := by
  unfold execBeatLaunch
  repeat' first | with_reducible assumption | with_reducible apply State.launchBeat_canonical | with_reducible apply canonical_ite | with_reducible apply Res.canonical_next

theorem execExchangeWindowEnd_canonical (lockA lockB : Bool) (s : State) (h_s : (s).canonical) :
    Res.canonical (execExchangeWindowEnd lockA lockB s) := by
  unfold execExchangeWindowEnd
  repeat' first | with_reducible assumption | with_reducible apply State.windowEnd_canonical | with_reducible apply canonical_ite | with_reducible apply Res.canonical_next

theorem execPartnerExchReceive_canonical (h : LinkFrame) (x : Exch) (s : State) (h_s : (s).canonical) :
    Res.canonical (execPartnerExchReceive h x s) := by
  unfold execPartnerExchReceive
  repeat' first
    | with_reducible intro x
    | with_reducible assumption
    | with_reducible apply State.frameIn_canonical
    | with_reducible apply State.inc_canonical
    | with_reducible apply canonical_ite
    | with_reducible apply Res.canonical_next
    | (simp only [x, ↓State.canonical_mk]; with_reducible apply State.canonical_parts)

theorem State.beatResync_canonical (s : State) (old : Option Beat) (b : Beat) (h_s : (s).canonical) :
    (State.beatResync s old b).canonical := by
  unfold State.beatResync
  repeat' first
    | with_reducible intro x
    | with_reducible assumption
    | with_reducible apply State.resyncFail_canonical
    | with_reducible apply State.leadSees_canonical
    | with_reducible apply State.imagesDone_canonical
    | with_reducible apply State.when_canonical
    | with_reducible apply State.pend_canonical
    | with_reducible apply canonical_ite

theorem execPartnerBeatReceive_canonical (h : LinkFrame) (rx : Nat) (b : Beat) (s : State) (h_s : (s).canonical) :
    Res.canonical (execPartnerBeatReceive h rx b s) := by
  unfold execPartnerBeatReceive
  repeat' first
    | with_reducible intro x
    | with_reducible assumption
    | with_reducible apply State.when_canonical
    | with_reducible apply State.measureLink_canonical
    | with_reducible apply State.frameIn_canonical
    | with_reducible apply State.beatItem_canonical
    | with_reducible apply State.beatResync_canonical
    | with_reducible apply Res.canonical_next

theorem execRxRecordReceive_canonical (h : LinkFrame) (records : List RxRecord) (s : State) (h_s : (s).canonical) :
    Res.canonical (execRxRecordReceive h records s) := by
  unfold execRxRecordReceive
  repeat' first
    | with_reducible intro x
    | with_reducible assumption
    | with_reducible apply State.frameIn_canonical
    | with_reducible apply State.each_canonical
    | with_reducible apply State.recordIn_canonical
    | with_reducible apply canonical_ite
    | with_reducible apply Res.canonical_next

theorem execPartnerBroadcastReceive_canonical (p : Fin 16) (f : RxFrame) (s : State) (h_s : (s).canonical) :
    Res.canonical (execPartnerBroadcastReceive p f s) := by
  unfold execPartnerBroadcastReceive
  repeat' first
    | with_reducible assumption
    | with_reducible apply State.inc_canonical
    | with_reducible apply State.modPort_canonical
    | with_reducible apply State.setFld_canonical
    | with_reducible apply State.setBit_canonical
    | with_reducible apply State.hearClaim_canonical
    | with_reducible apply State.checkDeposed_canonical
    | with_reducible apply State.leadHeard_canonical
    | with_reducible apply State.heard_canonical
    | with_reducible apply canonical_ite
    | with_reducible apply Res.canonical_next
    | (extract_lets +onlyGivenNames x; have hx : State.canonical x := ?_; clear_value x)
    | split

theorem execLinkUnusable_canonical (l : Link) (s : State) (h_s : (s).canonical) :
    Res.canonical (execLinkUnusable l s) := by
  unfold execLinkUnusable
  repeat' first
    | with_reducible assumption
    | with_reducible apply State.setBit_canonical
    | with_reducible apply State.ev_canonical
    | with_reducible apply canonical_ite
    | with_reducible apply Res.canonical_next

theorem execLinkUsable_canonical (l : Link) (s : State) (h_s : (s).canonical) :
    Res.canonical (execLinkUsable l s) := by
  unfold execLinkUsable
  repeat' first
    | with_reducible assumption
    | with_reducible apply State.setBit_canonical
    | with_reducible apply State.ev_canonical
    | with_reducible apply canonical_ite
    | with_reducible apply Res.canonical_next

end Sys2Proof.Machine
end

