-- ==== Sys2Proof/Laws/CanonResync.lean ====
section
/-!
SUPPORT. Every function of Machine/Resync.lean keeps the canonical form of State.
-/

set_option linter.all false

namespace Sys2Proof.Machine

theorem execJoinReqSend_canonical (s : State) (h_s : (s).canonical) :
    Res.canonical (execJoinReqSend s) := by
  unfold execJoinReqSend
  repeat' first
    | with_reducible assumption
    | with_reducible apply State.ev_canonical
    | with_reducible apply State.setBit_canonical
    | with_reducible apply State.control_canonical
    | with_reducible apply canonical_ite
    | with_reducible apply Res.canonical_next
    | (extract_lets +onlyGivenNames x; have hx : State.canonical x := ?_; clear_value x)
    | (extract_lets +onlyGivenNames x; clear_value x)
    | (simp only [↓State.canonical_mk]; with_reducible apply State.canonical_parts)
    | split

theorem execJoinReq_canonical (s : State) (h_s : (s).canonical) :
    Res.canonical (execJoinReq s) := by
  unfold execJoinReq
  repeat' first
    | with_reducible assumption
    | with_reducible apply State.setBit_canonical
    | with_reducible apply State.incFld_canonical
    | with_reducible apply State.ev_canonical
    | with_reducible apply State.control_canonical
    | with_reducible apply State.acceptJoin_canonical
    | with_reducible apply canonical_ite
    | with_reducible apply Res.canonical_next
    | (extract_lets +onlyGivenNames x; have hx : State.canonical x := ?_; clear_value x)
    | (extract_lets +onlyGivenNames x; clear_value x)
    | (simp only [↓State.canonical_mk]; with_reducible apply State.canonical_parts)
    | split

theorem execJoinAccept_canonical (k : Nat) (s : State) (h_s : (s).canonical) :
    Res.canonical (execJoinAccept k s) := by
  unfold execJoinAccept
  repeat' first
    | with_reducible assumption
    | with_reducible apply State.setBit_canonical
    | with_reducible apply canonical_ite
    | with_reducible apply Res.canonical_next
    | (extract_lets +onlyGivenNames x; have hx : State.canonical x := ?_; clear_value x)
    | (extract_lets +onlyGivenNames x; clear_value x)
    | (simp only [↓State.canonical_mk]; with_reducible apply State.canonical_parts)

theorem execResyncEnter_canonical (s : State) (h_s : (s).canonical) :
    Res.canonical (execResyncEnter s) := by
  unfold execResyncEnter
  repeat' first
    | with_reducible assumption
    | with_reducible apply State.beginResync_canonical
    | with_reducible apply State.leadResync_canonical
    | with_reducible apply canonical_ite
    | with_reducible apply Res.canonical_next
    | (extract_lets +onlyGivenNames x; clear_value x)
    | (simp only [↓State.canonical_mk]; with_reducible apply State.canonical_parts)
    | split

theorem execJoinAcceptTimeout_canonical (s : State) (h_s : (s).canonical) :
    Res.canonical (execJoinAcceptTimeout s) := by
  unfold execJoinAcceptTimeout
  repeat' first
    | with_reducible assumption
    | with_reducible apply State.resyncWords_canonical
    | with_reducible apply canonical_ite
    | with_reducible apply Res.canonical_next
    | (extract_lets +onlyGivenNames x; have hx : State.canonical x := ?_; clear_value x)
    | (extract_lets +onlyGivenNames x; clear_value x)
    | (simp only [↓State.canonical_mk]; with_reducible apply State.canonical_parts)
    | split

theorem execCopyPassEnd_canonical (dirty sent : Nat) (s : State) (h_s : (s).canonical) :
    Res.canonical (execCopyPassEnd dirty sent s) := by
  unfold execCopyPassEnd
  repeat' first
    | with_reducible assumption
    | with_reducible apply State.resyncDrop_canonical
    | with_reducible apply State.setFld_canonical
    | with_reducible apply canonical_ite
    | with_reducible apply Res.canonical_next
    | (extract_lets +onlyGivenNames x; have hx : State.canonical x := ?_; clear_value x)
    | (extract_lets +onlyGivenNames x; clear_value x)
    | (simp only [↓State.canonical_mk]; with_reducible apply State.canonical_parts)
    | split

theorem execCutTick_canonical (s : State) (h_s : (s).canonical) :
    Res.canonical (execCutTick s) := by
  unfold execCutTick
  repeat' first
    | with_reducible assumption
    | with_reducible apply State.resyncPhase_canonical
    | with_reducible apply State.control_canonical
    | with_reducible apply canonical_ite
    | with_reducible apply Res.canonical_next
    | split

theorem execCut_canonical (st : CutState) (s : State) (h_s : (s).canonical) :
    Res.canonical (execCut st s) := by
  unfold execCut
  repeat' first
    | with_reducible assumption
    | with_reducible apply State.install_canonical
    | with_reducible apply State.resyncPhase_canonical
    | with_reducible apply canonical_ite
    | with_reducible apply Res.canonical_next
    | (extract_lets +onlyGivenNames x; have hx : State.canonical x := ?_; clear_value x)
    | (extract_lets +onlyGivenNames x; clear_value x)
    | (simp only [↓State.canonical_mk]; with_reducible apply State.canonical_parts)
    | split

theorem State.executeTick_canonical (s : State) (t : Nat) (items : LeadItems) (runs : List (Fin 32 × RunEffects)) (h_s : (s).canonical) :
    (State.executeTick s t items runs).1.canonical := by
  unfold State.executeTick
  repeat' first
    | with_reducible intro x
    | with_reducible assumption
    | with_reducible apply State.leadTick_canonical
    | with_reducible apply State.each_canonical
    | with_reducible apply State.setBit_canonical
    | with_reducible apply State.modPort_canonical
    | (simp only [x, ↓State.canonical_mk]; with_reducible apply State.canonical_parts)
    | (extract_lets +onlyGivenNames x; have hx : State.canonical x := ?_; clear_value x)
    | (extract_lets +onlyGivenNames x; clear_value x)
    | (simp only [↓State.canonical_mk]; with_reducible apply State.canonical_parts)

theorem execCatchupTick_canonical (items : LeadItems) (runs : List (Fin 32 × RunEffects)) (s : State) (h_s : (s).canonical) :
    Res.canonical (execCatchupTick items runs s) := by
  unfold execCatchupTick
  repeat' first
    | with_reducible intro x
    | with_reducible assumption
    | with_reducible apply State.executeTick_canonical
    | with_reducible apply State.resyncFail_canonical
    | with_reducible apply State.when_canonical
    | with_reducible apply State.resyncPhase_canonical
    | with_reducible apply canonical_ite
    | with_reducible apply Res.canonical_next
    | (extract_lets +onlyGivenNames x; clear_value x)
    | (simp only [↓State.canonical_mk]; with_reducible apply State.canonical_parts)
    | split

theorem execCatchupTimeout_canonical (s : State) (h_s : (s).canonical) :
    Res.canonical (execCatchupTimeout s) := by
  unfold execCatchupTimeout
  repeat' first
    | with_reducible assumption
    | with_reducible apply State.resyncFail_canonical
    | with_reducible apply canonical_ite
    | with_reducible apply Res.canonical_next
    | split

theorem execReady_canonical (x : Nat) (s : State) (h_s : (s).canonical) :
    Res.canonical (execReady x s) := by
  unfold execReady
  repeat' first
    | with_reducible assumption
    | with_reducible apply State.resyncPhase_canonical
    | with_reducible apply State.control_canonical
    | with_reducible apply canonical_ite
    | with_reducible apply Res.canonical_next
    | (extract_lets +onlyGivenNames x; have hx : State.canonical x := ?_; clear_value x)
    | (extract_lets +onlyGivenNames x; clear_value x)
    | (simp only [↓State.canonical_mk]; with_reducible apply State.canonical_parts)
    | split

theorem execJoin_canonical (j : Nat) (s : State) (h_s : (s).canonical) :
    Res.canonical (execJoin j s) := by
  unfold execJoin
  repeat' first
    | with_reducible assumption
    | with_reducible apply canonical_ite
    | with_reducible apply Res.canonical_next
    | (extract_lets +onlyGivenNames x; clear_value x)
    | (simp only [↓State.canonical_mk]; with_reducible apply State.canonical_parts)
    | split

theorem execReadyTimeout_canonical (s : State) (h_s : (s).canonical) :
    Res.canonical (execReadyTimeout s) := by
  unfold execReadyTimeout
  repeat' first
    | with_reducible assumption
    | with_reducible apply State.resyncFail_canonical
    | with_reducible apply canonical_ite
    | with_reducible apply Res.canonical_next
    | split

theorem State.retainBoth_canonical (s : State) (h_s : (s).canonical) :
    (State.retainBoth s).canonical := by
  unfold State.retainBoth
  repeat' first
    | with_reducible assumption
    | with_reducible apply State.setBit_canonical
    | (extract_lets +onlyGivenNames x; have hx : State.canonical x := ?_; clear_value x)
    | (extract_lets +onlyGivenNames x; have _ : ProgS := x; simp only [x]; clear x)
    | (extract_lets +onlyGivenNames x; clear_value x)
    | (simp only [↓State.canonical_mk]; with_reducible apply State.canonical_parts)

theorem State.joinTrail_canonical (s : State) (r : Resync) (h_s : (s).canonical) :
    (State.joinTrail s r).canonical := by
  unfold State.joinTrail
  repeat' first
    | with_reducible intro x
    | with_reducible assumption
    | with_reducible apply State.setFld_canonical
    | with_reducible apply State.setWord_canonical
    | with_reducible apply State.takeClaim_canonical
    | with_reducible apply State.enterMode_canonical
    | with_reducible apply State.setBit_canonical
    | with_reducible apply State.gaugeStart_canonical
    | with_reducible apply State.each_canonical
    | with_reducible apply State.rollPort_canonical
    | with_reducible apply State.intake_canonical
    | with_reducible apply State.retainBoth_canonical
    | (extract_lets +onlyGivenNames x; clear_value x)
    | (simp only [↓State.canonical_mk]; with_reducible apply State.canonical_parts)

theorem State.joinLead_canonical (s : State) (r : Resync) (h_s : (s).canonical) :
    (State.joinLead s r).canonical := by
  unfold State.joinLead
  repeat' first
    | with_reducible assumption
    | with_reducible apply State.setFld_canonical
    | with_reducible apply State.setBit_canonical
    | with_reducible apply State.setWord_canonical
    | with_reducible apply State.ev_canonical
    | (extract_lets +onlyGivenNames x; clear_value x)
    | (simp only [↓State.canonical_mk]; with_reducible apply State.canonical_parts)

theorem execJoinTick_canonical (s : State) (h_s : (s).canonical) :
    Res.canonical (execJoinTick s) := by
  unfold execJoinTick
  repeat' first
    | with_reducible assumption
    | with_reducible apply State.joinLead_canonical
    | with_reducible apply State.joinTrail_canonical
    | with_reducible apply canonical_ite
    | with_reducible apply Res.canonical_next
    | split

theorem execJoinAbandon_canonical (cause : U8) (s : State) (h_s : (s).canonical) :
    Res.canonical (execJoinAbandon cause s) := by
  unfold execJoinAbandon
  repeat' first
    | with_reducible assumption
    | with_reducible apply State.resyncFail_canonical
    | with_reducible apply State.setBit_canonical
    | with_reducible apply canonical_ite
    | with_reducible apply Res.canonical_next
    | (extract_lets +onlyGivenNames x; have hx : State.canonical x := ?_; clear_value x)
    | (extract_lets +onlyGivenNames x; clear_value x)
    | (simp only [↓State.canonical_mk]; with_reducible apply State.canonical_parts)
    | split

theorem execResyncAbandon_canonical (cause : U8) (s : State) (h_s : (s).canonical) :
    Res.canonical (execResyncAbandon cause s) := by
  unfold execResyncAbandon
  repeat' first | with_reducible assumption | with_reducible apply State.resyncFail_canonical | with_reducible apply canonical_ite | with_reducible apply Res.canonical_next

theorem execResyncRetry_canonical (s : State) (h_s : (s).canonical) :
    Res.canonical (execResyncRetry s) := by
  unfold execResyncRetry
  repeat' first
    | with_reducible assumption
    | with_reducible apply canonical_ite
    | with_reducible apply Res.canonical_next
    | (extract_lets +onlyGivenNames x; clear_value x)
    | (simp only [↓State.canonical_mk]; with_reducible apply State.canonical_parts)
    | split

end Sys2Proof.Machine
end

