-- ==== Sys2Proof/Laws/CanonRelay.lean ====
section
/-!
SUPPORT. Every function of Machine/Relay.lean keeps the canonical form of State.
-/

set_option linter.all false

namespace Sys2Proof.Machine

theorem State.takeRelayed_canonical (s : State) (eff : Nat) (id : U32) (items : List StagedItem) (h_s : (s).canonical) :
    (State.takeRelayed s eff id items).canonical := by
  unfold State.takeRelayed
  repeat' first | with_reducible assumption | (extract_lets +onlyGivenNames x; have _ : KprS := x; simp only [x]; clear x) | (simp only [↓State.canonical_mk]; with_reducible apply State.canonical_parts)

theorem execRelayChangeReceive_canonical (effect : Nat) (id : U32) (items : List StagedItem) (s : State) (h_s : (s).canonical) :
    Res.canonical (execRelayChangeReceive effect id items s) := by
  unfold execRelayChangeReceive
  repeat' first | with_reducible assumption | with_reducible apply State.takeRelayed_canonical | with_reducible apply canonical_ite | with_reducible apply Res.canonical_next

theorem State.stageSched_canonical (s : State) (p t : Nat) (h_s : (s).canonical) :
    (State.stageSched s p t).canonical := by
  unfold State.stageSched
  repeat' first | with_reducible assumption | with_reducible apply State.modPort_canonical | with_reducible apply State.setBit_canonical

theorem State.unstageSched_canonical (s : State) (it : StagedItem) (h_s : (s).canonical) :
    (State.unstageSched s it).canonical := by
  unfold State.unstageSched
  repeat' first | with_reducible assumption | with_reducible apply State.modPort_canonical | with_reducible apply State.setBit_canonical | split

theorem execAction_canonical (arg : U8) (effect : Nat) (fseq : U32) (s : State) (h_s : (s).canonical) :
    Res.canonical (execAction arg effect fseq s) := by
  unfold execAction
  repeat' first
    | with_reducible assumption
    | with_reducible apply State.takeRelayed_canonical
    | with_reducible apply State.stageSched_canonical
    | with_reducible apply canonical_ite
    | with_reducible apply Res.canonical_next
    | (extract_lets +onlyGivenNames x; have _ : ProgS := x; simp only [x]; clear x)
    | (extract_lets +onlyGivenNames x; clear_value x)
    | (simp only [↓State.canonical_mk]; with_reducible apply State.canonical_parts)
    | split

theorem execPairChangeEffect_canonical (s : State) (h_s : (s).canonical) :
    Res.canonical (execPairChangeEffect s) := by
  unfold execPairChangeEffect
  repeat' first | with_reducible assumption | with_reducible apply State.applyDue_canonical | with_reducible apply canonical_ite | with_reducible apply Res.canonical_next

theorem State.abandonChange_canonical (s : State) (c : StagedChange) (h_s : (s).canonical) :
    (State.abandonChange s c).canonical := by
  unfold State.abandonChange
  repeat' first
    | with_reducible intro x
    | with_reducible assumption
    | with_reducible apply State.message_canonical
    | with_reducible apply State.each_canonical
    | with_reducible apply State.unstageSched_canonical
    | with_reducible apply State.respond_canonical
    | (extract_lets +onlyGivenNames x; have hx : State.canonical x := ?_; clear_value x)
    | (extract_lets +onlyGivenNames x; have _ : KprS := x; simp only [x]; clear x)
    | (simp only [↓State.canonical_mk]; with_reducible apply State.canonical_parts)
    | split

theorem execRelayAckTimeout_canonical (s : State) (h_s : (s).canonical) :
    Res.canonical (execRelayAckTimeout s) := by
  unfold execRelayAckTimeout
  repeat' first
    | with_reducible intro x
    | with_reducible assumption
    | with_reducible apply State.each_canonical
    | with_reducible apply State.abandonChange_canonical
    | with_reducible apply Res.canonical_next

theorem execRelayedRequest_canonical (tag : U16) (opcode : Nat) (payload : List Byte) (s : State) (h_s : (s).canonical) :
    Res.canonical (execRelayedRequest tag opcode payload s) := by
  unfold execRelayedRequest
  repeat' first
    | with_reducible assumption
    | with_reducible apply canonical_ite
    | with_reducible apply Res.canonical_next
    | (extract_lets +onlyGivenNames x; have _ : KprS := x; simp only [x]; clear x)
    | (extract_lets +onlyGivenNames x; clear_value x)
    | (simp only [↓State.canonical_mk]; with_reducible apply State.canonical_parts)

theorem State.relayAnswer_canonical (s : State) (body : List Byte) (h_s : (s).canonical) :
    (State.relayAnswer s body).canonical := by
  unfold State.relayAnswer
  repeat' first
    | with_reducible assumption
    | with_reducible apply State.accept_canonical
    | with_reducible apply State.acceptUpdate_canonical
    | with_reducible apply State.acceptProof_canonical
    | with_reducible apply State.respond_canonical
    | with_reducible apply canonical_ite
    | (extract_lets +onlyGivenNames x; have _ : KprS := x; simp only [x]; clear x)
    | (extract_lets +onlyGivenNames x; clear_value x)
    | (simp only [↓State.canonical_mk]; with_reducible apply State.canonical_parts)
    | split

theorem execMaintRecordReceive_canonical (set : U16) (ports : List (Fin 10 × U16)) (s : State) (h_s : (s).canonical) :
    Res.canonical (execMaintRecordReceive set ports s) := by
  unfold execMaintRecordReceive
  repeat' first
    | with_reducible assumption
    | with_reducible apply State.maintRefresh_canonical
    | with_reducible apply Res.canonical_next
    | (extract_lets +onlyGivenNames x; clear_value x)
    | (simp only [↓State.canonical_mk]; with_reducible apply State.canonical_parts)

theorem State.packageIn_canonical (s : State) (k : Package) (signed : Bool) (h_s : (s).canonical) :
    (State.packageIn s k signed).canonical := by
  unfold State.packageIn
  repeat' first
    | with_reducible assumption
    | with_reducible apply State.chgRefuse_canonical
    | with_reducible apply State.setChgPhase_canonical
    | with_reducible apply State.setBit_canonical
    | with_reducible apply State.message_canonical
    | with_reducible apply canonical_ite
    | (extract_lets +onlyGivenNames x; have hx : State.canonical x := ?_; clear_value x)
    | (extract_lets +onlyGivenNames x; clear_value x)
    | (simp only [↓State.canonical_mk]; with_reducible apply State.canonical_parts)

theorem State.packageAnswer_canonical (s : State) (cause : Nat) (h_s : (s).canonical) :
    (State.packageAnswer s cause).canonical := by
  unfold State.packageAnswer
  repeat' first
    | with_reducible assumption
    | with_reducible apply State.setBit_canonical
    | with_reducible apply State.stagedNow_canonical
    | with_reducible apply State.chgRefuse_canonical
    | with_reducible apply State.dropPackage_canonical
    | with_reducible apply State.finish_canonical
    | with_reducible apply canonical_ite

theorem State.ackIn_canonical (s : State) (id : Nat) (h_s : (s).canonical) :
    (State.ackIn s id).canonical := by
  unfold State.ackIn
  repeat' first | with_reducible assumption | (extract_lets +onlyGivenNames x; have _ : KprS := x; simp only [x]; clear x) | (simp only [↓State.canonical_mk]; with_reducible apply State.canonical_parts)

theorem State.dropRelayed_canonical (s : State) (id : Nat) (h_s : (s).canonical) :
    (State.dropRelayed s id).canonical := by
  unfold State.dropRelayed
  repeat' first
    | with_reducible intro x
    | with_reducible assumption
    | with_reducible apply State.each_canonical
    | with_reducible apply State.unstageSched_canonical
    | (extract_lets +onlyGivenNames x; have _ : KprS := x; simp only [x]; clear x)
    | (simp only [↓State.canonical_mk]; with_reducible apply State.canonical_parts)

theorem State.discardIn_canonical (s : State) (h_s : (s).canonical) :
    (State.discardIn s).canonical := by
  unfold State.discardIn
  repeat' first | with_reducible assumption | with_reducible apply State.dropPackage_canonical | with_reducible apply canonical_ite

theorem State.msgIn_canonical (s : State) (kind : Nat) (fseq : U32) (body : List Byte) (content : MsgContent) (h_s : (s).canonical) :
    (State.msgIn s kind fseq body content).canonical := by
  unfold State.msgIn
  repeat' first
    | with_reducible assumption
    | with_reducible apply State.packageIn_canonical
    | with_reducible apply State.discardIn_canonical
    | with_reducible apply State.abandonCommit_canonical
    | with_reducible apply State.holdPkg_canonical
    | with_reducible apply State.relayAnswer_canonical
    | with_reducible apply State.packageAnswer_canonical
    | with_reducible apply State.ackIn_canonical
    | with_reducible apply State.dropRelayed_canonical
    | with_reducible apply State.imageIn_canonical
    | with_reducible apply canonical_ite
    | (extract_lets +onlyGivenNames x; clear_value x)
    | (simp only [↓State.canonical_mk]; with_reducible apply State.canonical_parts)
    | split

theorem execMsgFrameReceive_canonical (h : LinkFrame) (kind : Nat) (body : List Byte) (content : MsgContent) (s : State) (h_s : (s).canonical) :
    Res.canonical (execMsgFrameReceive h kind body content s) := by
  unfold execMsgFrameReceive
  repeat' first
    | with_reducible intro x
    | with_reducible assumption
    | with_reducible apply State.frameIn_canonical
    | with_reducible apply State.msgIn_canonical
    | with_reducible apply Res.canonical_next

theorem execXferFrameReceive_canonical (h : LinkFrame) (addr : Nat) (quarter : Fin 4) (pass : U8) (data : List Byte) (s : State) (h_s : (s).canonical) :
    Res.canonical (execXferFrameReceive h addr quarter pass data s) := by
  unfold execXferFrameReceive
  repeat' first
    | with_reducible intro x
    | with_reducible assumption
    | with_reducible apply State.frameIn_canonical
    | with_reducible apply State.pageIn_canonical
    | with_reducible apply Res.canonical_next

end Sys2Proof.Machine
end

