-- ==== Sys2Proof/Laws/CanonTrunkCmds.lean ====
section
/-!
SUPPORT. Every function of Machine/TrunkCmds.lean keeps the canonical form of State.
-/

set_option linter.all false

namespace Sys2Proof.Machine

theorem State.startComm_canonical (s : State) (rq : Rq) (p steps : Nat) (addrs : List Nat) (h_s : (s).canonical) :
    (State.startComm s rq p steps addrs).canonical := by
  unfold State.startComm
  repeat' first | with_reducible assumption | with_reducible apply State.modPort_canonical | with_reducible apply State.commStep_canonical

theorem execTrkCommission_canonical (rq : Rq) (port steps : U8) (addrs : List U8) (s : State) (h_s : (s).canonical) :
    Res.canonical (execTrkCommission rq port steps addrs s) := by
  unfold execTrkCommission
  repeat' first
    | with_reducible intro x
    | with_reducible assumption
    | with_reducible apply State.cmd_canonical
    | with_reducible apply State.respond_canonical
    | with_reducible apply State.bg_canonical
    | with_reducible apply State.startComm_canonical
    | with_reducible apply State.starting_canonical
    | with_reducible apply canonical_ite
    | with_reducible apply Res.canonical_next

theorem execTrkTdr_canonical (rq : Rq) (port : U8) (s : State) (h_s : (s).canonical) :
    Res.canonical (execTrkTdr rq port s) := by
  unfold execTrkTdr
  repeat' first
    | with_reducible intro x
    | with_reducible assumption
    | with_reducible apply State.cmd_canonical
    | with_reducible apply State.respond_canonical
    | with_reducible apply State.bg_canonical
    | with_reducible apply State.setBit_canonical
    | with_reducible apply State.modPort_canonical
    | with_reducible apply canonical_ite
    | with_reducible apply Res.canonical_next

theorem execTrkAssign_canonical (rq : Rq) (port addr : U8) (serial : U32) (s : State) (h_s : (s).canonical) :
    Res.canonical (execTrkAssign rq port addr serial s) := by
  unfold execTrkAssign
  repeat' first
    | with_reducible intro x
    | with_reducible assumption
    | with_reducible apply State.cmd_canonical
    | with_reducible apply State.relay_canonical
    | with_reducible apply State.respond_canonical
    | with_reducible apply State.hold_canonical
    | with_reducible apply State.stage_canonical
    | with_reducible apply canonical_ite
    | with_reducible apply Res.canonical_next

theorem execTrkRelease_canonical (rq : Rq) (port : U8) (serial : U32) (s : State) (h_s : (s).canonical) :
    Res.canonical (execTrkRelease rq port serial s) := by
  unfold execTrkRelease
  repeat' first
    | with_reducible intro x
    | with_reducible assumption
    | with_reducible apply State.cmd_canonical
    | with_reducible apply State.relay_canonical
    | with_reducible apply State.respond_canonical
    | with_reducible apply State.hold_canonical
    | with_reducible apply State.keeperRequest_canonical
    | with_reducible apply canonical_ite
    | with_reducible apply Res.canonical_next

theorem State.schedRefuse_canonical (s : State) (p cause : Nat) (h_s : (s).canonical) :
    (State.schedRefuse s p cause).canonical := by
  unfold State.schedRefuse
  repeat' first | with_reducible assumption | with_reducible apply State.setBit_canonical | with_reducible apply State.setFld_canonical

theorem State.commitSched_canonical (s : State) (rq : Rq) (p t : Nat) (c : Sched) (h_s : (s).canonical) :
    (State.commitSched s rq p t c).canonical := by
  unfold State.commitSched
  repeat' first
    | with_reducible intro x
    | with_reducible assumption
    | with_reducible apply State.modPort_canonical
    | with_reducible apply State.setBit_canonical
    | with_reducible apply State.each_canonical
    | with_reducible apply State.sendConfig_canonical
    | with_reducible apply State.when_canonical
    | with_reducible apply State.message_canonical
    | with_reducible apply State.control_canonical
    | with_reducible apply canonical_ite
    | (simp only [x, ↓State.canonical_mk]; with_reducible apply State.canonical_parts)

theorem execSchedCommit_canonical (rq : Rq) (port : U8) (tick : Nat) (s : State) (h_s : (s).canonical) :
    Res.canonical (execSchedCommit rq port tick s) := by
  unfold execSchedCommit
  repeat' first
    | with_reducible intro x
    | with_reducible assumption
    | with_reducible apply State.cmd_canonical
    | with_reducible apply State.relay_canonical
    | with_reducible apply State.respond_canonical
    | with_reducible apply State.schedRefuse_canonical
    | with_reducible apply State.starting_canonical
    | with_reducible apply State.bg_canonical
    | with_reducible apply State.commitSched_canonical
    | with_reducible apply State.makeCurrent_canonical
    | with_reducible apply State.setBit_canonical
    | with_reducible apply canonical_ite
    | with_reducible apply Res.canonical_next

end Sys2Proof.Machine
end

