-- ==== Sys2Proof/Laws/CanonParamCmds.lean ====
section
/-!
SUPPORT. Every function of Machine/ParamCmds.lean keeps the canonical form of State.
-/

set_option linter.all false

namespace Sys2Proof.Machine

theorem State.refuseItem_canonical (s : State) (rq : Rq) (op index id status : Nat) (h_s : (s).canonical) :
    (State.refuseItem s rq op index id status).canonical := by
  unfold State.refuseItem
  repeat' first | with_reducible assumption | with_reducible apply State.setWord_canonical | with_reducible apply State.respond_canonical

theorem State.byOwner_canonical (s : State) (rq : Rq) (op : Nat) (ids : List Nat) (pair : Nat → Bool) (payload : List Byte) (f : State → State) (h_s : (s).canonical) (h_f : ∀ (y0 : State), (y0).canonical → (f y0).canonical) :
    (State.byOwner s rq op ids pair payload f).canonical := by
  unfold State.byOwner
  repeat' first
    | with_reducible assumption
    | with_reducible apply h_f
    | with_reducible apply State.refuseItem_canonical
    | with_reducible apply State.relay_canonical
    | with_reducible apply canonical_ite
    | split

theorem execParamRead_canonical (rq : Rq) (ids : List U16) (s : State) (h_s : (s).canonical) :
    Res.canonical (execParamRead rq ids s) := by
  unfold execParamRead
  repeat' first
    | with_reducible intro x
    | with_reducible assumption
    | with_reducible apply State.cmd_canonical
    | with_reducible apply State.respond_canonical
    | with_reducible apply canonical_ite
    | with_reducible apply Res.canonical_next

theorem State.armPending_canonical (s : State) (items : List StagedItem) (h_s : (s).canonical) :
    (State.armPending s items).canonical := by
  unfold State.armPending
  repeat' first
    | with_reducible intro x
    | with_reducible assumption
    | with_reducible apply State.each_canonical
    | with_reducible apply State.setBit_canonical
    | split

theorem State.acceptWrite_canonical (s : State) (rq : Rq) (op : Nat) (pair : Bool) (items : List StagedItem) (h_s : (s).canonical) :
    (State.acceptWrite s rq op pair items).canonical := by
  unfold State.acceptWrite
  repeat' first
    | with_reducible assumption
    | with_reducible apply State.inc_canonical
    | with_reducible apply State.respond_canonical
    | with_reducible apply State.hold_canonical
    | with_reducible apply State.armPending_canonical
    | with_reducible apply State.stage_canonical
    | with_reducible apply canonical_ite

theorem State.paramWrite_canonical (s : State) (rq : Rq) (op : Nat) (items : List (Nat × U32)) (h_s : (s).canonical) :
    (State.paramWrite s rq op items).canonical := by
  unfold State.paramWrite
  repeat' first
    | with_reducible intro x
    | with_reducible assumption
    | with_reducible apply State.refuseItem_canonical
    | with_reducible apply State.byOwner_canonical
    | with_reducible apply State.acceptWrite_canonical
    | with_reducible apply State.starting_canonical
    | with_reducible apply canonical_ite
    | (extract_lets +onlyGivenNames x; have hx : ∀ s : State, State.canonical s → State.canonical (x s) := ?_; clear_value x)
    | (extract_lets +onlyGivenNames x; clear_value x)
    | split
    | with_reducible apply_assumption

theorem execParamWrite_canonical (rq : Rq) (items : List (U16 × U32)) (s : State) (h_s : (s).canonical) :
    Res.canonical (execParamWrite rq items s) := by
  unfold execParamWrite
  repeat' first
    | with_reducible intro x
    | with_reducible assumption
    | with_reducible apply State.cmd_canonical
    | with_reducible apply State.respond_canonical
    | with_reducible apply State.paramWrite_canonical
    | with_reducible apply canonical_ite
    | with_reducible apply Res.canonical_next

theorem execGuardArm_canonical (rq : Rq) (n : Fin 16) (s : State) (h_s : (s).canonical) :
    Res.canonical (execGuardArm rq n s) := by
  unfold execGuardArm
  repeat' first
    | with_reducible intro x
    | with_reducible assumption
    | with_reducible apply State.cmd_canonical
    | with_reducible apply State.paramWrite_canonical
    | with_reducible apply Res.canonical_next

theorem execTableRead_canonical (rq : Rq) (tid : U16) (first : U32) (count : U16) (s : State) (h_s : (s).canonical) :
    Res.canonical (execTableRead rq tid first count s) := by
  unfold execTableRead
  repeat' first
    | with_reducible intro x
    | with_reducible assumption
    | with_reducible apply State.cmd_canonical
    | with_reducible apply State.respond_canonical
    | with_reducible apply canonical_ite
    | with_reducible apply Res.canonical_next
    | (simp only [x]; split)

theorem execTableInfo_canonical (rq : Rq) (tid : U16) (s : State) (h_s : (s).canonical) :
    Res.canonical (execTableInfo rq tid s) := by
  unfold execTableInfo
  repeat' first
    | with_reducible intro x
    | with_reducible assumption
    | with_reducible apply State.cmd_canonical
    | with_reducible apply State.respond_canonical
    | with_reducible apply Res.canonical_next
    | split

theorem State.tableWrite_canonical (s : State) (rq : Rq) (r : TableRow) (tid first : Nat) (entries : List (List U32)) (payload : List Byte) (h_s : (s).canonical) :
    (State.tableWrite s rq r tid first entries payload).canonical := by
  unfold State.tableWrite
  repeat' first
    | with_reducible intro x
    | with_reducible assumption
    | with_reducible apply State.refuseItem_canonical
    | with_reducible apply State.ruleFault_canonical
    | with_reducible apply State.byOwner_canonical
    | with_reducible apply State.acceptWrite_canonical
    | (extract_lets +onlyGivenNames x; clear_value x)
    | split

theorem execTableWrite_canonical (rq : Rq) (tid : U16) (first : U32) (entries : List (List U32)) (s : State) (h_s : (s).canonical) :
    Res.canonical (execTableWrite rq tid first entries s) := by
  unfold execTableWrite
  repeat' first
    | with_reducible intro x
    | with_reducible assumption
    | with_reducible apply State.cmd_canonical
    | with_reducible apply State.refuseItem_canonical
    | with_reducible apply State.tableWrite_canonical
    | with_reducible apply canonical_ite
    | with_reducible apply Res.canonical_next
    | (simp only [x]; split)

theorem execCntClear_canonical (rq : Rq) (ids : List U16) (s : State) (h_s : (s).canonical) :
    Res.canonical (execCntClear rq ids s) := by
  unfold execCntClear
  repeat' first
    | with_reducible intro x
    | with_reducible assumption
    | with_reducible apply State.cmd_canonical
    | with_reducible apply State.respond_canonical
    | with_reducible apply State.refuseItem_canonical
    | with_reducible apply State.byOwner_canonical
    | with_reducible apply State.acceptWrite_canonical
    | with_reducible apply canonical_ite
    | with_reducible apply Res.canonical_next
    | split

end Sys2Proof.Machine
end

