-- ==== Sys2Proof/Laws/CanonSessions.lean ====
section
/-!
SUPPORT. Every function of Machine/Sessions.lean keeps the canonical form of State.
-/

set_option linter.all false

namespace Sys2Proof.Machine

theorem State.authFail_canonical (s : State) (rq : Rq) (op : Nat) (h_s : (s).canonical) :
    (State.authFail s rq op).canonical := by
  unfold State.authFail
  repeat' first
    | with_reducible assumption
    | with_reducible apply State.inc_canonical
    | with_reducible apply State.setBit_canonical
    | with_reducible apply State.ev_canonical
    | with_reducible apply State.respond_canonical

theorem execSessionOpen_canonical (rq : Rq) (port : Fin 3) (cert : Cert) (payload secret answer : List Byte) (s : State) (h_s : (s).canonical) :
    Res.canonical (execSessionOpen rq port cert payload secret answer s) := by
  unfold execSessionOpen
  repeat' first
    | with_reducible intro x
    | with_reducible assumption
    | with_reducible apply State.cmd_canonical
    | with_reducible apply State.respond_canonical
    | with_reducible apply State.authFail_canonical
    | with_reducible apply State.bg_canonical
    | with_reducible apply State.when_canonical
    | with_reducible apply State.ev_canonical
    | with_reducible apply canonical_ite
    | with_reducible apply Res.canonical_next
    | (simp only [x, ↓State.canonical_mk]; with_reducible apply State.canonical_parts)

theorem execSessionProve_canonical (rq : Rq) (port : Fin 3) (payload : List Byte) (sigOk : Bool) (s : State) (h_s : (s).canonical) :
    Res.canonical (execSessionProve rq port payload sigOk s) := by
  unfold execSessionProve
  repeat' first
    | with_reducible intro x
    | with_reducible assumption
    | with_reducible apply State.cmd_canonical
    | with_reducible apply State.respond_canonical
    | with_reducible apply State.authFail_canonical
    | with_reducible apply State.drawWord_canonical
    | with_reducible apply State.ev_canonical
    | with_reducible apply canonical_ite
    | with_reducible apply Res.canonical_next
    | (simp only [x, ↓State.canonical_mk]; with_reducible apply State.canonical_parts)
    | (simp only [x]; split)

theorem execSessionClose_canonical (rq : Rq) (s : State) (h_s : (s).canonical) :
    Res.canonical (execSessionClose rq s) := by
  unfold execSessionClose
  repeat' first
    | with_reducible intro x
    | with_reducible assumption
    | with_reducible apply State.cmd_canonical
    | with_reducible apply State.respond_canonical
    | with_reducible apply State.closeSession_canonical
    | with_reducible apply Res.canonical_next

theorem execEcho_canonical (rq : Rq) (data : List Byte) (s : State) (h_s : (s).canonical) :
    Res.canonical (execEcho rq data s) := by
  unfold execEcho
  repeat' first
    | with_reducible intro x
    | with_reducible assumption
    | with_reducible apply State.cmd_canonical
    | with_reducible apply State.respond_canonical
    | with_reducible apply Res.canonical_next

theorem execSessionExpire_canonical (mb : Fin 8) (s : State) (h_s : (s).canonical) :
    Res.canonical (execSessionExpire mb s) := by
  unfold execSessionExpire
  repeat' first | with_reducible assumption | with_reducible apply State.closeSession_canonical | with_reducible apply canonical_ite | with_reducible apply Res.canonical_next

theorem execConnectionLost_canonical (port : Fin 3) (mb : Fin 8) (s : State) (h_s : (s).canonical) :
    Res.canonical (execConnectionLost port mb s) := by
  unfold execConnectionLost
  repeat' first | with_reducible assumption | with_reducible apply State.connLost_canonical | with_reducible apply Res.canonical_next

theorem State.setOwner_canonical (s : State) (rq : Rq) (keyType : Nat) (key : List Byte) (h_s : (s).canonical) :
    (State.setOwner s rq keyType key).canonical := by
  unfold State.setOwner
  repeat' first
    | with_reducible assumption
    | with_reducible apply State.ev_canonical
    | with_reducible apply State.respond_canonical
    | (extract_lets +onlyGivenNames x; have _ : KprS := x; simp only [x]; clear x)
    | (simp only [↓State.canonical_mk]; with_reducible apply State.canonical_parts)

theorem execKeyInstall_canonical (rq : Rq) (port : Fin 3) (keyType : U32) (key : List Byte) (sigOk : Bool) (s : State) (h_s : (s).canonical) :
    Res.canonical (execKeyInstall rq port keyType key sigOk s) := by
  unfold execKeyInstall
  repeat' first
    | with_reducible intro x
    | with_reducible assumption
    | with_reducible apply State.cmd_canonical
    | with_reducible apply State.respond_canonical
    | with_reducible apply State.setOwner_canonical
    | with_reducible apply State.openHeadwater_canonical
    | with_reducible apply canonical_ite
    | with_reducible apply Res.canonical_next
    | split

theorem execKeyRevoke_canonical (rq : Rq) (serial : U64) (s : State) (h_s : (s).canonical) :
    Res.canonical (execKeyRevoke rq serial s) := by
  unfold execKeyRevoke
  repeat' first
    | with_reducible intro x
    | with_reducible assumption
    | with_reducible apply State.cmd_canonical
    | with_reducible apply State.respond_canonical
    | with_reducible apply State.ev_canonical
    | with_reducible apply canonical_ite
    | with_reducible apply Res.canonical_next
    | (simp only [x, ↓State.canonical_mk]; with_reducible apply State.canonical_parts)

end Sys2Proof.Machine
end

