-- ==== Sys2Proof/Laws/CanonKeeper.lean ====
section
/-!
SUPPORT. Every function of Machine/Keeper.lean keeps the canonical form of State.
-/

set_option linter.all false

namespace Sys2Proof.Machine

theorem State.setSens_canonical (s : State) (n : Nat) (x : SensS) (h_s : (s).canonical) :
    (State.setSens s n x).canonical := by
  unfold State.setSens
  repeat' first | with_reducible assumption | (extract_lets +onlyGivenNames x; have _ : KprS := x; simp only [x]; clear x) | (simp only [↓State.canonical_mk, List.length_modify, List.length_set, List.length_map, List.length_replicate, List.length_zipIdx]; with_reducible apply State.canonical_parts)

theorem State.sensCounts_canonical (s : State) (n : Nat) (h_s : (s).canonical) :
    (State.sensCounts s n).canonical := by
  unfold State.sensCounts
  repeat' first | with_reducible assumption | with_reducible apply State.setFld_canonical

theorem State.sensEnter_canonical (s : State) (n level : Nat) (low : Bool) (name : String) (h_s : (s).canonical) :
    (State.sensEnter s n level low name).canonical := by
  unfold State.sensEnter
  repeat' first
    | with_reducible assumption
    | with_reducible apply State.setFld_canonical
    | with_reducible apply State.setBit_canonical
    | with_reducible apply State.setWord_canonical
    | with_reducible apply State.ev_canonical
    | with_reducible apply State.sensCounts_canonical

theorem State.sample_canonical (s : State) (p : Period) (n : Nat) (v : Option Int) (h_s : (s).canonical) :
    (State.sample s p n v).canonical := by
  unfold State.sample
  repeat' first
    | with_reducible intro x
    | with_reducible assumption
    | with_reducible apply State.setWord_canonical
    | with_reducible apply State.setSens_canonical
    | with_reducible apply State.setFld_canonical
    | with_reducible apply State.sensCounts_canonical
    | with_reducible apply State.sensEnter_canonical
    | with_reducible apply State.when_canonical
    | with_reducible apply canonical_ite
    | (extract_lets +onlyGivenNames x; have hx : State.canonical x := ?_; clear_value x)
    | split

theorem execSensorWarning_canonical (n : Fin 32) (s : State) (h_s : (s).canonical) :
    Res.canonical (execSensorWarning n s) := by
  unfold execSensorWarning
  repeat' first
    | with_reducible assumption
    | with_reducible apply State.inc_canonical
    | with_reducible apply State.sensEnter_canonical
    | with_reducible apply canonical_ite
    | with_reducible apply Res.canonical_next

theorem execSensorAlarm_canonical (n : Fin 32) (s : State) (h_s : (s).canonical) :
    Res.canonical (execSensorAlarm n s) := by
  unfold execSensorAlarm
  repeat' first
    | with_reducible assumption
    | with_reducible apply State.inc_canonical
    | with_reducible apply State.sensEnter_canonical
    | with_reducible apply canonical_ite
    | with_reducible apply Res.canonical_next

theorem execSensorClear_canonical (n : Fin 32) (s : State) (h_s : (s).canonical) :
    Res.canonical (execSensorClear n s) := by
  unfold execSensorClear
  repeat' first | with_reducible assumption | with_reducible apply State.sensEnter_canonical | with_reducible apply canonical_ite | with_reducible apply Res.canonical_next

theorem State.strike_canonical (s : State) (i : Nat) (failed : Bool) (h_s : (s).canonical) :
    (State.strike s i failed).canonical := by
  unfold State.strike
  repeat' first | with_reducible assumption | (extract_lets +onlyGivenNames x; have _ : KprS := x; simp only [x]; clear x) | (simp only [↓State.canonical_mk]; with_reducible apply State.canonical_parts)

theorem State.epCheck_canonical (s : State) (n : Nat) (h_s : (s).canonical) :
    (State.epCheck s n).canonical := by
  unfold State.epCheck
  repeat' first
    | with_reducible assumption
    | with_reducible apply State.strike_canonical
    | (extract_lets +onlyGivenNames x; have hx : State.canonical x := ?_; clear_value x)
    | (extract_lets +onlyGivenNames x; have _ : KprS := x; simp only [x]; clear x)
    | (extract_lets +onlyGivenNames x; clear_value x)
    | (simp only [↓State.canonical_mk]; with_reducible apply State.canonical_parts)

theorem State.supervise_canonical (s : State) (p : Period) (h_s : (s).canonical) :
    (State.supervise s p).canonical := by
  unfold State.supervise
  repeat' first
    | with_reducible intro x
    | with_reducible assumption
    | with_reducible apply State.strike_canonical
    | with_reducible apply State.each_canonical
    | with_reducible apply State.epCheck_canonical
    | with_reducible apply State.reset1_canonical
    | with_reducible apply State.when_canonical
    | with_reducible apply State.regionClose_canonical
    | with_reducible apply canonical_ite
    | (extract_lets +onlyGivenNames x; have _ : KprS := x; simp only [x]; clear x)
    | (simp only [↓State.canonical_mk]; with_reducible apply State.canonical_parts)

theorem execKeeperWatchdogExpire_canonical (s : State) (h_s : (s).canonical) :
    Res.canonical (execKeeperWatchdogExpire s) := by
  unfold execKeeperWatchdogExpire
  repeat' first | with_reducible assumption | with_reducible apply State.reset1_canonical | with_reducible apply canonical_ite | with_reducible apply Res.canonical_next

theorem State.wear_canonical (s : State) (m ref : Int) (h_s : (s).canonical) :
    (State.wear s m ref).2.canonical := by
  unfold State.wear
  repeat' first | with_reducible assumption | with_reducible apply State.drawWord_canonical

theorem State.age_canonical (s : State) (e : Nat) (ref : Int) (h_s : (s).canonical) :
    (State.age s e ref).canonical := by
  unfold State.age
  repeat' first
    | with_reducible assumption
    | with_reducible apply State.wear_canonical
    | with_reducible apply canonical_ite
    | (extract_lets +onlyGivenNames x; have hx : State.canonical x := ?_; clear_value x)
    | (extract_lets +onlyGivenNames x; have hx : State.canonical x.2 := ?_; clear_value x)
    | (extract_lets +onlyGivenNames x; have _ : KprS := x; simp only [x]; clear x)
    | (simp only [↓State.canonical_mk]; with_reducible apply State.canonical_parts)

theorem State.lifeWords_canonical (s : State) (h_s : (s).canonical) :
    (State.lifeWords s).canonical := by
  unfold State.lifeWords
  repeat' first | with_reducible intro x | with_reducible assumption | with_reducible apply State.each_canonical | with_reducible apply State.setWords_canonical

theorem State.lifeStep_canonical (s : State) (sm : List (Option Int)) (hour : Bool) (h_s : (s).canonical) :
    (State.lifeStep s sm hour).canonical := by
  unfold State.lifeStep
  repeat' first
    | with_reducible assumption
    | with_reducible apply State.age_canonical
    | with_reducible apply State.lifeWords_canonical
    | with_reducible apply canonical_ite
    | (extract_lets +onlyGivenNames x; have _ : KprS := x; simp only [x]; clear x)
    | (simp only [↓State.canonical_mk]; with_reducible apply State.canonical_parts)

theorem execLifeSave_canonical (s : State) (h_s : (s).canonical) :
    Res.canonical (execLifeSave s) := by
  unfold execLifeSave
  repeat' first
    | with_reducible assumption
    | with_reducible apply canonical_ite
    | with_reducible apply Res.canonical_next
    | (extract_lets +onlyGivenNames x; have _ : KprS := x; simp only [x]; clear x)
    | (simp only [↓State.canonical_mk]; with_reducible apply State.canonical_parts)

end Sys2Proof.Machine
end

