-- ==== Sys2Proof/Laws/CanonPair.lean ====
section
/-!
SUPPORT. Every function of Machine/Pair.lean keeps the canonical form of State.
-/

set_option linter.all false

namespace Sys2Proof.Machine

theorem execWithdrawal_canonical (s : State) (h_s : (s).canonical) :
    Res.canonical (execWithdrawal s) := by
  unfold execWithdrawal
  repeat' first
    | with_reducible assumption
    | with_reducible apply State.ev_canonical
    | with_reducible apply State.withdraw_canonical
    | with_reducible apply canonical_ite
    | with_reducible apply Res.canonical_next
    | (extract_lets +onlyGivenNames x; clear_value x)
    | (simp only [↓State.canonical_mk]; with_reducible apply State.canonical_parts)
    | split

theorem execWithdraw_canonical (cause : U8) (s : State) (h_s : (s).canonical) :
    Res.canonical (execWithdraw cause s) := by
  unfold execWithdraw
  repeat' first
    | with_reducible assumption
    | with_reducible apply State.ev_canonical
    | with_reducible apply State.partnerGone_canonical
    | with_reducible apply canonical_ite
    | with_reducible apply Res.canonical_next
    | (extract_lets +onlyGivenNames x; clear_value x)
    | (simp only [↓State.canonical_mk]; with_reducible apply State.canonical_parts)

theorem execVerdict_canonical (fault : Bool) (k : Nat) (s : State) (h_s : (s).canonical) :
    Res.canonical (execVerdict fault k s) := by
  unfold execVerdict
  repeat' first
    | with_reducible assumption
    | with_reducible apply State.inc_canonical
    | with_reducible apply canonical_ite
    | with_reducible apply Res.canonical_next
    | (extract_lets +onlyGivenNames x; clear_value x)
    | (simp only [↓State.canonical_mk]; with_reducible apply State.canonical_parts)
    | split

theorem execDivergenceOutcome_canonical (s : State) (h_s : (s).canonical) :
    Res.canonical (execDivergenceOutcome s) := by
  unfold execDivergenceOutcome
  repeat' first
    | with_reducible intro x
    | with_reducible assumption
    | with_reducible apply State.setBit_canonical
    | with_reducible apply State.ev_canonical
    | with_reducible apply State.withdraw_canonical
    | with_reducible apply State.takeOver_canonical
    | with_reducible apply State.inc_canonical
    | with_reducible apply canonical_ite
    | with_reducible apply Res.canonical_next
    | (simp only [x, ↓State.canonical_mk]; with_reducible apply State.canonical_parts)
    | (extract_lets +onlyGivenNames x; have hx : State.canonical x := ?_; clear_value x)
    | (extract_lets +onlyGivenNames x; have hx : ∀ s : State, State.canonical s → State.canonical (x s) := ?_; clear_value x)
    | (extract_lets +onlyGivenNames x; clear_value x)
    | (simp only [↓State.canonical_mk]; with_reducible apply State.canonical_parts)
    | split
    | with_reducible apply_assumption

theorem execTakeover_canonical (s : State) (h_s : (s).canonical) :
    Res.canonical (execTakeover s) := by
  unfold execTakeover
  repeat' first
    | with_reducible assumption
    | with_reducible apply State.takeOver_canonical
    | with_reducible apply canonical_ite
    | with_reducible apply Res.canonical_next
    | (extract_lets +onlyGivenNames x; clear_value x)
    | (simp only [↓State.canonical_mk]; with_reducible apply State.canonical_parts)

theorem execHeartbeatLost_canonical (s : State) (h_s : (s).canonical) :
    Res.canonical (execHeartbeatLost s) := by
  unfold execHeartbeatLost
  repeat' first | with_reducible assumption | with_reducible apply State.heartbeatLost_canonical | with_reducible apply Res.canonical_next

theorem execListenAloneExpire_canonical (s : State) (h_s : (s).canonical) :
    Res.canonical (execListenAloneExpire s) := by
  unfold execListenAloneExpire
  repeat' first
    | with_reducible assumption
    | with_reducible apply State.takeClaim_canonical
    | with_reducible apply State.clearPairWork_canonical
    | with_reducible apply State.enterMode_canonical
    | with_reducible apply State.stnResume_canonical
    | with_reducible apply State.gaugeStart_canonical
    | with_reducible apply State.startProgram_canonical
    | with_reducible apply canonical_ite
    | with_reducible apply Res.canonical_next
    | (extract_lets +onlyGivenNames x; have hx : State.canonical x := ?_; clear_value x)
    | (extract_lets +onlyGivenNames x; clear_value x)
    | (simp only [↓State.canonical_mk]; with_reducible apply State.canonical_parts)

theorem execClaimSuspect_canonical (p : Fin 16) (s : State) (h_s : (s).canonical) :
    Res.canonical (execClaimSuspect p s) := by
  unfold execClaimSuspect
  repeat' first
    | with_reducible assumption
    | with_reducible apply State.setBit_canonical
    | with_reducible apply State.ev_canonical
    | with_reducible apply canonical_ite
    | with_reducible apply Res.canonical_next
    | (extract_lets +onlyGivenNames x; have hx : State.canonical x := ?_; clear_value x)
    | (extract_lets +onlyGivenNames x; clear_value x)
    | (simp only [↓State.canonical_mk]; with_reducible apply State.canonical_parts)

theorem execHoPropose_canonical (x : Nat) (s : State) (h_s : (s).canonical) :
    Res.canonical (execHoPropose x s) := by
  unfold execHoPropose
  repeat' first
    | with_reducible assumption
    | with_reducible apply State.setBit_canonical
    | with_reducible apply State.control_canonical
    | with_reducible apply canonical_ite
    | with_reducible apply Res.canonical_next
    | (extract_lets +onlyGivenNames x; clear_value x)
    | (simp only [↓State.canonical_mk]; with_reducible apply State.canonical_parts)

theorem execHoAck_canonical (x : Nat) (s : State) (h_s : (s).canonical) :
    Res.canonical (execHoAck x s) := by
  unfold execHoAck
  repeat' first
    | with_reducible assumption
    | with_reducible apply State.control_canonical
    | with_reducible apply canonical_ite
    | with_reducible apply Res.canonical_next
    | (extract_lets +onlyGivenNames x; clear_value x)
    | (simp only [↓State.canonical_mk]; with_reducible apply State.canonical_parts)
    | split

theorem execHoConfirm_canonical (x : Nat) (s : State) (h_s : (s).canonical) :
    Res.canonical (execHoConfirm x s) := by
  unfold execHoConfirm
  repeat' first
    | with_reducible assumption
    | with_reducible apply canonical_ite
    | with_reducible apply Res.canonical_next
    | (extract_lets +onlyGivenNames x; clear_value x)
    | (simp only [↓State.canonical_mk]; with_reducible apply State.canonical_parts)
    | split

theorem execHoAckTimeout_canonical (s : State) (h_s : (s).canonical) :
    Res.canonical (execHoAckTimeout s) := by
  unfold execHoAckTimeout
  repeat' first
    | with_reducible assumption
    | with_reducible apply State.ev_canonical
    | with_reducible apply State.abandonHandover_canonical
    | with_reducible apply canonical_ite
    | with_reducible apply Res.canonical_next
    | split

theorem execHoConfirmTimeout_canonical (s : State) (h_s : (s).canonical) :
    Res.canonical (execHoConfirmTimeout s) := by
  unfold execHoConfirmTimeout
  repeat' first
    | with_reducible assumption
    | with_reducible apply State.setBit_canonical
    | with_reducible apply canonical_ite
    | with_reducible apply Res.canonical_next
    | (extract_lets +onlyGivenNames x; have hx : State.canonical x := ?_; clear_value x)
    | (extract_lets +onlyGivenNames x; clear_value x)
    | (simp only [↓State.canonical_mk]; with_reducible apply State.canonical_parts)
    | split

theorem execHandoverTick_canonical (s : State) (h_s : (s).canonical) :
    Res.canonical (execHandoverTick s) := by
  unfold execHandoverTick
  repeat' first
    | with_reducible assumption
    | with_reducible apply State.setBit_canonical
    | with_reducible apply State.inc_canonical
    | with_reducible apply State.finish_canonical
    | with_reducible apply State.takeClaim_canonical
    | with_reducible apply State.enterMode_canonical
    | with_reducible apply State.hearClaim_canonical
    | with_reducible apply State.stnResume_canonical
    | with_reducible apply State.withdraw_canonical
    | with_reducible apply State.setFld_canonical
    | with_reducible apply canonical_ite
    | with_reducible apply Res.canonical_next
    | (simp only [x, ↓State.canonical_mk]; with_reducible apply State.canonical_parts)
    | (extract_lets +onlyGivenNames x; have hx : State.canonical x := ?_; clear_value x)
    | (extract_lets +onlyGivenNames x; clear_value x)
    | (simp only [↓State.canonical_mk]; with_reducible apply State.canonical_parts)
    | split

theorem execPairHandover_canonical (rq : Rq) (s : State) (h_s : (s).canonical) :
    Res.canonical (execPairHandover rq s) := by
  unfold execPairHandover
  repeat' first
    | with_reducible intro x
    | with_reducible assumption
    | with_reducible apply State.cmd_canonical
    | with_reducible apply State.respond_canonical
    | with_reducible apply State.bg_canonical
    | with_reducible apply State.startHandover_canonical
    | with_reducible apply canonical_ite
    | with_reducible apply Res.canonical_next

theorem execPairWithdraw_canonical (rq : Rq) (s : State) (h_s : (s).canonical) :
    Res.canonical (execPairWithdraw rq s) := by
  unfold execPairWithdraw
  repeat' first
    | with_reducible intro x
    | with_reducible assumption
    | with_reducible apply State.cmd_canonical
    | with_reducible apply State.respond_canonical
    | with_reducible apply State.decideWithdraw_canonical
    | with_reducible apply canonical_ite
    | with_reducible apply Res.canonical_next

theorem execPairRejoin_canonical (rq : Rq) (s : State) (h_s : (s).canonical) :
    Res.canonical (execPairRejoin rq s) := by
  unfold execPairRejoin
  repeat' first
    | with_reducible intro x
    | with_reducible assumption
    | with_reducible apply State.cmd_canonical
    | with_reducible apply State.setBit_canonical
    | with_reducible apply State.respond_canonical
    | with_reducible apply Res.canonical_next
    | (simp only [x, ↓State.canonical_mk]; with_reducible apply State.canonical_parts)

theorem execPairClaimRaise_canonical (rq : Rq) (amount : U32) (s : State) (h_s : (s).canonical) :
    Res.canonical (execPairClaimRaise rq amount s) := by
  unfold execPairClaimRaise
  repeat' first
    | with_reducible intro x
    | with_reducible assumption
    | with_reducible apply State.cmd_canonical
    | with_reducible apply State.respond_canonical
    | with_reducible apply State.stage_canonical
    | with_reducible apply canonical_ite
    | with_reducible apply Res.canonical_next

end Sys2Proof.Machine
end

