-- ==== Sys2Proof/Laws/CanonRecorder.lean ====
section
/-!
SUPPORT. Every function of Machine/Recorder.lean keeps the canonical form of State.
-/

set_option linter.all false

namespace Sys2Proof.Machine

theorem execTokenRefill_canonical (s : State) (h_s : (s).canonical) :
    Res.canonical (execTokenRefill s) := by
  unfold execTokenRefill
  repeat' first
    | with_reducible intro x
    | with_reducible assumption
    | with_reducible apply State.each_canonical
    | with_reducible apply State.setBucket_canonical
    | with_reducible apply State.floodSums_canonical
    | with_reducible apply Res.canonical_next

theorem execRecorderScan_canonical (upsets : List (Fin 8 × Nat)) (s : State) (h_s : (s).canonical) :
    Res.canonical (execRecorderScan upsets s) := by
  unfold execRecorderScan
  repeat' first
    | with_reducible intro x
    | with_reducible assumption
    | with_reducible apply State.each_canonical
    | with_reducible apply State.recUpset_canonical
    | with_reducible apply State.finish_canonical
    | with_reducible apply State.recScan_canonical
    | with_reducible apply canonical_ite
    | with_reducible apply Res.canonical_next

theorem execRecRead_canonical (rq : Rq) (chan : U8) (count : U16) (first : U64) (s : State) (h_s : (s).canonical) :
    Res.canonical (execRecRead rq chan count first s) := by
  unfold execRecRead
  repeat' first
    | with_reducible intro x
    | with_reducible assumption
    | with_reducible apply State.cmd_canonical
    | with_reducible apply State.respond_canonical
    | with_reducible apply canonical_ite
    | with_reducible apply Res.canonical_next

theorem execRecSubscribe_canonical (rq : Rq) (mask : U8) (s : State) (h_s : (s).canonical) :
    Res.canonical (execRecSubscribe rq mask s) := by
  unfold execRecSubscribe
  repeat' first
    | with_reducible intro x
    | with_reducible assumption
    | with_reducible apply State.cmd_canonical
    | with_reducible apply State.respond_canonical
    | with_reducible apply State.each_canonical
    | with_reducible apply State.setBit_canonical
    | with_reducible apply canonical_ite
    | with_reducible apply Res.canonical_next
    | (simp only [x, ↓State.canonical_mk]; with_reducible apply State.canonical_parts)

theorem execRecUser_canonical (rq : Rq) (code : U16) (sev count : U8) (key : U16) (vals : List U32) (s : State) (h_s : (s).canonical) :
    Res.canonical (execRecUser rq code sev count key vals s) := by
  unfold execRecUser
  repeat' first
    | with_reducible intro x
    | with_reducible assumption
    | with_reducible apply State.when_canonical
    | with_reducible apply State.inc_canonical
    | with_reducible apply State.cmd_canonical
    | with_reducible apply State.respond_canonical
    | with_reducible apply canonical_ite
    | with_reducible apply Res.canonical_next
    | (simp only [x, ↓State.canonical_mk]; with_reducible apply State.canonical_parts)

theorem execRecScan_canonical (rq : Rq) (s : State) (h_s : (s).canonical) :
    Res.canonical (execRecScan rq s) := by
  unfold execRecScan
  repeat' first
    | with_reducible intro x
    | with_reducible assumption
    | with_reducible apply State.cmd_canonical
    | with_reducible apply State.bg_canonical
    | with_reducible apply Res.canonical_next

end Sys2Proof.Machine
end

