-- ==== Sys2Proof/Laws/CanonMailbox.lean ====
section
/-!
SUPPORT. Every function of Machine/Mailbox.lean keeps the canonical form of State.
-/

set_option linter.all false

namespace Sys2Proof.Machine

theorem State.addSegment_canonical (s : State) (q : MbReq) (more : Bool) (payload : List Byte) (h_s : (s).canonical) :
    (State.addSegment s q more payload).canonical := by
  unfold State.addSegment
  repeat' first
    | with_reducible assumption
    | with_reducible apply State.respond_canonical
    | with_reducible apply canonical_ite
    | (extract_lets +onlyGivenNames x; have _ : KprS := x; simp only [x]; clear x)
    | (simp only [↓State.canonical_mk]; with_reducible apply State.canonical_parts)

theorem State.takeMessage_canonical (s : State) (rq : Rq) (port opcode : Nat) (more : Bool) (payload : List Byte) (h_s : (s).canonical) :
    (State.takeMessage s rq port opcode more payload).canonical := by
  unfold State.takeMessage
  repeat' first
    | with_reducible assumption
    | with_reducible apply State.addSegment_canonical
    | (extract_lets +onlyGivenNames x; have _ : KprS := x; simp only [x]; clear x)
    | (extract_lets +onlyGivenNames x; clear_value x)
    | (simp only [↓State.canonical_mk]; with_reducible apply State.canonical_parts)
    | split

theorem execMailboxMessageReceive_canonical (port : Fin 3) (mb : Fin 8) (opcode tag : U16) (session : U32) (more gcmOk : Bool) (payload : List Byte) (s : State) (h_s : (s).canonical) :
    Res.canonical (execMailboxMessageReceive port mb opcode tag session more gcmOk payload s) := by
  unfold execMailboxMessageReceive
  repeat' first
    | with_reducible intro x
    | with_reducible assumption
    | with_reducible apply State.when_canonical
    | with_reducible apply State.respond_canonical
    | with_reducible apply State.takeMessage_canonical
    | with_reducible apply State.closeSession_canonical
    | with_reducible apply canonical_ite
    | with_reducible apply Res.canonical_next
    | (simp only [x, ↓State.canonical_mk]; with_reducible apply State.canonical_parts)
    | (extract_lets +onlyGivenNames x; have _ : KprS := x; simp only [x]; clear x)
    | (simp only [↓State.canonical_mk]; with_reducible apply State.canonical_parts)

theorem Res.after_canonical (r : Res) (s : State) (h_r : Res.canonical (r)) (h_s : (s).canonical) :
    (Res.after r s).canonical := by
  cases r with
  | next t => exact h_r
  | fault f => exact h_s
  | refused f => exact h_s

theorem State.need_canonical (s : State) (q : MbReq) (ok : Bool) (f : State → Res) (h_s : (s).canonical) (h_f : ∀ (y0 : State), (y0).canonical → Res.canonical (f y0)) :
    (State.need s q ok f).canonical := by
  unfold State.need
  repeat' first
    | with_reducible assumption
    | with_reducible apply h_f
    | with_reducible apply State.respond_canonical
    | with_reducible apply Res.after_canonical
    | with_reducible apply canonical_ite

theorem State.sized_canonical (s : State) (q : MbReq) (n : Nat) (f : State → Res) (h_s : (s).canonical) (h_f : ∀ (y0 : State), (y0).canonical → Res.canonical (f y0)) :
    (State.sized s q n f).canonical := by
  unfold State.sized
  repeat' first | with_reducible intro x | with_reducible assumption | with_reducible apply h_f | with_reducible apply State.need_canonical

theorem State.named_canonical (s : State) (q : MbReq) (n m : Nat) (f : Fin m → State → Res) (h_s : (s).canonical) (h_f : ∀ (y0 : Fin m) (y1 : State), (y1).canonical → Res.canonical (f y0 y1)) :
    (State.named s q n m f).canonical := by
  unfold State.named
  repeat' first
    | with_reducible intro x
    | with_reducible assumption
    | with_reducible apply h_f
    | with_reducible apply State.sized_canonical
    | with_reducible apply State.respond_canonical
    | with_reducible apply Res.canonical_next
    | with_reducible apply Res.canonical_dite

theorem State.reqSession_canonical (s : State) (q : MbReq) (f : Option ReqFact) (h_s : (s).canonical) :
    (State.reqSession s q f).canonical := by
  unfold State.reqSession
  repeat' first
    | with_reducible intro x
    | with_reducible assumption
    | with_reducible apply State.need_canonical
    | with_reducible apply execSessionOpen_canonical
    | with_reducible apply execSessionProve_canonical
    | with_reducible apply State.sized_canonical
    | with_reducible apply execSessionClose_canonical
    | with_reducible apply execKeyInstall_canonical
    | with_reducible apply execKeyRevoke_canonical
    | with_reducible apply execEcho_canonical
    | with_reducible apply State.respond_canonical
    | (extract_lets +onlyGivenNames x; clear_value x)
    | split

theorem State.reqParam_canonical (s : State) (q : MbReq) (h_s : (s).canonical) :
    (State.reqParam s q).canonical := by
  unfold State.reqParam
  repeat' first
    | with_reducible intro x
    | with_reducible assumption
    | with_reducible apply State.need_canonical
    | with_reducible apply execParamRead_canonical
    | with_reducible apply execParamWrite_canonical
    | with_reducible apply State.sized_canonical
    | with_reducible apply execTableRead_canonical
    | with_reducible apply execTableWrite_canonical
    | with_reducible apply execCntClear_canonical
    | with_reducible apply execTableInfo_canonical
    | with_reducible apply State.respond_canonical
    | (extract_lets +onlyGivenNames x; clear_value x)
    | split

theorem State.partnerActivity_canonical (s : State) (rq : Rq) (op a : Nat) (h_s : (s).canonical) :
    (State.partnerActivity s rq op a).canonical := by
  unfold State.partnerActivity
  repeat' first
    | with_reducible assumption
    | with_reducible apply State.refuseConflict_canonical
    | with_reducible apply State.maintRefresh_canonical
    | with_reducible apply State.respond_canonical
    | (extract_lets +onlyGivenNames x; clear_value x)
    | (simp only [↓State.canonical_mk]; with_reducible apply State.canonical_parts)
    | split

theorem State.reqMode_canonical (s : State) (q : MbReq) (h_s : (s).canonical) :
    (State.reqMode s q).canonical := by
  unfold State.reqMode
  repeat' first
    | with_reducible intro x
    | with_reducible assumption
    | with_reducible apply State.sized_canonical
    | with_reducible apply execModeRun_canonical
    | with_reducible apply State.partnerActivity_canonical
    | with_reducible apply execModeRequest_canonical
    | with_reducible apply execSysRestart_canonical
    | with_reducible apply execSysRegionReset_canonical
    | with_reducible apply execTimeStep_canonical
    | with_reducible apply State.respond_canonical
    | with_reducible apply canonical_ite
    | (extract_lets +onlyGivenNames x; clear_value x)
    | split

theorem State.reqTrunk_canonical (s : State) (q : MbReq) (h_s : (s).canonical) :
    (State.reqTrunk s q).canonical := by
  unfold State.reqTrunk
  repeat' first
    | with_reducible intro x
    | with_reducible assumption
    | with_reducible apply State.need_canonical
    | with_reducible apply execTrkCommission_canonical
    | with_reducible apply State.sized_canonical
    | with_reducible apply execTrkTdr_canonical
    | with_reducible apply execTrkAssign_canonical
    | with_reducible apply execTrkRelease_canonical
    | with_reducible apply execSchedCommit_canonical
    | with_reducible apply State.respond_canonical
    | (extract_lets +onlyGivenNames x; clear_value x)
    | split

theorem State.reqPrg_canonical (s : State) (q : MbReq) (f : Option ReqFact) (h_s : (s).canonical) :
    (State.reqPrg s q f).canonical := by
  unfold State.reqPrg
  repeat' first
    | with_reducible intro x
    | with_reducible assumption
    | with_reducible apply State.sized_canonical
    | with_reducible apply execPrgChangeStage_canonical
    | with_reducible apply execPrgChangeCommit_canonical
    | with_reducible apply execPrgChangeDiscard_canonical
    | with_reducible apply execPrgForceCommit_canonical
    | with_reducible apply execPrgForceClear_canonical
    | with_reducible apply execPrgTaskResume_canonical
    | with_reducible apply State.need_canonical
    | with_reducible apply execPrgMsgSend_canonical
    | with_reducible apply State.respond_canonical
    | (extract_lets +onlyGivenNames x; clear_value x)
    | split

theorem State.reqPair_canonical (s : State) (q : MbReq) (h_s : (s).canonical) :
    (State.reqPair s q).canonical := by
  unfold State.reqPair
  repeat' first
    | with_reducible intro x
    | with_reducible assumption
    | with_reducible apply State.sized_canonical
    | with_reducible apply execPairHandover_canonical
    | with_reducible apply execPairWithdraw_canonical
    | with_reducible apply execPairRejoin_canonical
    | with_reducible apply execPairClaimRaise_canonical
    | with_reducible apply State.respond_canonical
    | (extract_lets +onlyGivenNames x; clear_value x)
    | split

theorem State.reqCheck_canonical (s : State) (q : MbReq) (h_s : (s).canonical) :
    (State.reqCheck s q).canonical := by
  unfold State.reqCheck
  repeat' first
    | with_reducible intro x
    | with_reducible assumption
    | with_reducible apply State.partnerActivity_canonical
    | with_reducible apply State.sized_canonical
    | with_reducible apply execChkProofRestart_canonical
    | with_reducible apply execChkFaultClear_canonical
    | with_reducible apply execDbgHalt_canonical
    | with_reducible apply execDbgResume_canonical
    | with_reducible apply execDbgStep_canonical
    | with_reducible apply execDbgRegRead_canonical
    | with_reducible apply execDbgRegWrite_canonical
    | with_reducible apply execDbgMemRead_canonical
    | with_reducible apply State.need_canonical
    | with_reducible apply execDbgMemWrite_canonical
    | with_reducible apply execDbgBreak_canonical
    | with_reducible apply execDbgReset_canonical
    | with_reducible apply execDbgTraceRead_canonical
    | with_reducible apply State.respond_canonical
    | with_reducible apply canonical_ite
    | (extract_lets +onlyGivenNames x; clear_value x)
    | split

theorem State.reqFio_canonical (s : State) (q : MbReq) (h_s : (s).canonical) :
    (State.reqFio s q).canonical := by
  unfold State.reqFio
  repeat' first
    | with_reducible intro x
    | with_reducible assumption
    | with_reducible apply State.named_canonical
    | with_reducible apply execFioManual_canonical
    | with_reducible apply execFioGroupAck_canonical
    | with_reducible apply execFioHartScan_canonical
    | with_reducible apply execFioHartXfer_canonical
    | with_reducible apply State.respond_canonical
    | (extract_lets +onlyGivenNames x; clear_value x)
    | split

theorem State.reqAcq_canonical (s : State) (q : MbReq) (f : Option ReqFact) (h_s : (s).canonical) :
    (State.reqAcq s q f).canonical := by
  unfold State.reqAcq
  repeat' first
    | with_reducible intro x
    | with_reducible assumption
    | with_reducible apply State.named_canonical
    | with_reducible apply execAcqArm_canonical
    | with_reducible apply execAcqStop_canonical
    | with_reducible apply execAcqTrigger_canonical
    | with_reducible apply execAcqExport_canonical
    | with_reducible apply State.sized_canonical
    | with_reducible apply execGaugeMark_canonical
    | with_reducible apply execGaugeProtect_canonical
    | with_reducible apply execGaugeExport_canonical
    | with_reducible apply State.respond_canonical
    | with_reducible apply execReplayLoad_canonical
    | with_reducible apply execReplayStart_canonical
    | with_reducible apply execReplayStop_canonical
    | with_reducible apply Res.canonical_next
    | with_reducible apply Res.canonical_dite
    | (extract_lets +onlyGivenNames x; clear_value x)
    | split

theorem State.reqRec_canonical (s : State) (q : MbReq) (h_s : (s).canonical) :
    (State.reqRec s q).canonical := by
  unfold State.reqRec
  repeat' first
    | with_reducible intro x
    | with_reducible assumption
    | with_reducible apply State.sized_canonical
    | with_reducible apply execRecRead_canonical
    | with_reducible apply execRecSubscribe_canonical
    | with_reducible apply State.need_canonical
    | with_reducible apply execRecUser_canonical
    | with_reducible apply execRecScan_canonical
    | with_reducible apply State.respond_canonical
    | (extract_lets +onlyGivenNames x; clear_value x)
    | split

theorem State.reqImg_canonical (s : State) (q : MbReq) (f : Option ReqFact) (h_s : (s).canonical) :
    (State.reqImg s q f).canonical := by
  unfold State.reqImg
  repeat' first
    | with_reducible intro x
    | with_reducible assumption
    | with_reducible apply State.sized_canonical
    | with_reducible apply execImgXferOpen_canonical
    | with_reducible apply State.need_canonical
    | with_reducible apply execImgXferData_canonical
    | with_reducible apply execImgXferClose_canonical
    | with_reducible apply execImgXferDrop_canonical
    | with_reducible apply execImgStage_canonical
    | with_reducible apply execImgChamberClear_canonical
    | with_reducible apply execImgActivate_canonical
    | with_reducible apply execImgConfirm_canonical
    | with_reducible apply execImgRevert_canonical
    | with_reducible apply execImgInstall_canonical
    | with_reducible apply execAttest_canonical
    | with_reducible apply execIdentityRead_canonical
    | with_reducible apply execStnStage_canonical
    | with_reducible apply State.named_canonical
    | with_reducible apply execStnStart_canonical
    | with_reducible apply execStnStop_canonical
    | with_reducible apply execStnDiscard_canonical
    | with_reducible apply State.respond_canonical
    | (extract_lets +onlyGivenNames x; clear_value x)
    | split

theorem State.runReq_canonical (s : State) (q : MbReq) (f : Option ReqFact) (h_s : (s).canonical) :
    (State.runReq s q f).canonical := by
  unfold State.runReq
  repeat' first
    | with_reducible assumption
    | with_reducible apply State.respond_canonical
    | with_reducible apply State.reqSession_canonical
    | with_reducible apply State.reqParam_canonical
    | with_reducible apply State.reqMode_canonical
    | with_reducible apply State.reqTrunk_canonical
    | with_reducible apply State.reqPrg_canonical
    | with_reducible apply State.reqPair_canonical
    | with_reducible apply State.reqCheck_canonical
    | with_reducible apply State.reqFio_canonical
    | with_reducible apply State.reqAcq_canonical
    | with_reducible apply State.reqRec_canonical
    | with_reducible apply State.reqImg_canonical
    | with_reducible apply canonical_ite

theorem State.serveOne_canonical (s : State) (p : Period) (h_s : (s).canonical) :
    (State.serveOne s p).canonical := by
  unfold State.serveOne
  repeat' first
    | with_reducible assumption
    | with_reducible apply State.runReq_canonical
    | (extract_lets +onlyGivenNames x; have _ : KprS := x; simp only [x]; clear x)
    | (simp only [↓State.canonical_mk]; with_reducible apply State.canonical_parts)
    | split

theorem State.serve_canonical (s : State) (p : Period) (z0 : Nat) (h_s : (s).canonical) :
    (State.serve s p z0).canonical := by
  induction z0 generalizing s with
  | zero => unfold State.serve; split <;> exact h_s
  | succ n ih => exact ih _ (State.serveOne_canonical _ _ h_s)

theorem State.hourStep_canonical (s : State) (h_s : (s).canonical) :
    (State.hourStep s).canonical := by
  unfold State.hourStep
  repeat' first
    | with_reducible assumption
    | with_reducible apply State.inc_canonical
    | with_reducible apply State.setBit_canonical
    | with_reducible apply State.ev_canonical
    | with_reducible apply canonical_ite

theorem State.keeperClock_canonical (s : State) (h_s : (s).canonical) :
    (State.keeperClock s).canonical := by
  unfold State.keeperClock
  repeat' first
    | with_reducible intro x
    | with_reducible assumption
    | with_reducible apply State.when_canonical
    | with_reducible apply State.each_canonical
    | with_reducible apply State.inc_canonical
    | with_reducible apply State.hourStep_canonical
    | (extract_lets +onlyGivenNames x; have _ : KprS := x; simp only [x]; clear x)
    | (extract_lets +onlyGivenNames x; clear_value x)
    | (simp only [↓State.canonical_mk]; with_reducible apply State.canonical_parts)

theorem State.dropResps_canonical (s : State) (p : Period) (h_s : (s).canonical) :
    (State.dropResps s p).canonical := by
  unfold State.dropResps
  repeat' first | with_reducible assumption | (extract_lets +onlyGivenNames x; have _ : KprS := x; simp only [x]; clear x) | (extract_lets +onlyGivenNames x; clear_value x) | (simp only [↓State.canonical_mk]; with_reducible apply State.canonical_parts)

theorem State.keeperWords_canonical (s : State) (p : Period) (h_s : (s).canonical) :
    (State.keeperWords s p).canonical := by
  unfold State.keeperWords
  repeat' first
    | with_reducible intro x
    | with_reducible assumption
    | with_reducible apply State.maxWord_canonical
    | with_reducible apply State.setWord_canonical
    | with_reducible apply State.setBit_canonical
    | with_reducible apply State.when_canonical
    | with_reducible apply State.each_canonical
    | with_reducible apply State.incBy_canonical
    | (simp only [x, ↓State.canonical_mk]; with_reducible apply State.canonical_parts)

theorem State.saveTime_canonical (s : State) (p : Period) (h_s : (s).canonical) :
    (State.saveTime s p).canonical := by
  unfold State.saveTime
  repeat' first | with_reducible assumption | (extract_lets +onlyGivenNames x; clear_value x) | (simp only [↓State.canonical_mk]; with_reducible apply State.canonical_parts)

theorem execHousekeepingPeriod_canonical (p : Period) (s : State) (h_s : (s).canonical) :
    Res.canonical (execHousekeepingPeriod p s) := by
  unfold execHousekeepingPeriod
  repeat' first
    | with_reducible intro x
    | with_reducible assumption
    | with_reducible apply State.keeperClock_canonical
    | with_reducible apply State.each_canonical
    | with_reducible apply State.sample_canonical
    | with_reducible apply State.supervise_canonical
    | with_reducible apply State.saveTime_canonical
    | with_reducible apply State.lifeStep_canonical
    | with_reducible apply State.dropResps_canonical
    | with_reducible apply State.when_canonical
    | with_reducible apply State.applyDue_canonical
    | with_reducible apply State.serve_canonical
    | with_reducible apply State.recStep_canonical
    | with_reducible apply State.keeperWords_canonical
    | with_reducible apply State.stnJournals_canonical
    | with_reducible apply canonical_ite
    | with_reducible apply Res.canonical_next
    | (extract_lets +onlyGivenNames x; clear_value x)
    | (simp only [↓State.canonical_mk]; with_reducible apply State.canonical_parts)

end Sys2Proof.Machine
end

