-- ==== Sys2Proof/Laws/CanonStations.lean ====
section
/-!
SUPPORT. Every function of Machine/Stations.lean keeps the canonical form of State.
-/

set_option linter.all false

namespace Sys2Proof.Machine

theorem execStationRateSearch_canonical (p : Fin 16) (serial : U32) (restart : Bool) (s : State) (h_s : (s).canonical) :
    Res.canonical (execStationRateSearch p serial restart s) := by
  unfold execStationRateSearch
  repeat' first | with_reducible assumption | with_reducible apply State.modStn_canonical | with_reducible apply Res.canonical_next

theorem execStationBeaconReceive_canonical (p : Fin 16) (serial : U32) (f : RxFrame) (s : State) (h_s : (s).canonical) :
    Res.canonical (execStationBeaconReceive p serial f s) := by
  unfold execStationBeaconReceive
  repeat' first | with_reducible assumption | with_reducible apply State.modStn_canonical | with_reducible apply Res.canonical_next

theorem execStationBeaconMissed_canonical (p : Fin 16) (serial : U32) (s : State) (h_s : (s).canonical) :
    Res.canonical (execStationBeaconMissed p serial s) := by
  unfold execStationBeaconMissed
  repeat' first | with_reducible assumption | with_reducible apply State.modStn_canonical | with_reducible apply Res.canonical_next

theorem execStationHoldoverExpire_canonical (p : Fin 16) (serial : U32) (s : State) (h_s : (s).canonical) :
    Res.canonical (execStationHoldoverExpire p serial s) := by
  unfold execStationHoldoverExpire
  repeat' first | with_reducible assumption | with_reducible apply State.modStn_canonical | with_reducible apply Res.canonical_next

theorem execStationBeaconLoss_canonical (p : Fin 16) (serial : U32) (s : State) (h_s : (s).canonical) :
    Res.canonical (execStationBeaconLoss p serial s) := by
  unfold execStationBeaconLoss
  repeat' first | with_reducible assumption | with_reducible apply State.modStn_canonical | with_reducible apply Res.canonical_next

theorem execStationClaimLearned_canonical (p : Fin 16) (serial : U32) (s : State) (h_s : (s).canonical) :
    Res.canonical (execStationClaimLearned p serial s) := by
  unfold execStationClaimLearned
  repeat' first | with_reducible assumption | with_reducible apply State.modStn_canonical | with_reducible apply Res.canonical_next

theorem execStationBroadcastReceive_canonical (p : Fin 16) (serial : U32) (f : RxFrame) (s : State) (h_s : (s).canonical) :
    Res.canonical (execStationBroadcastReceive p serial f s) := by
  unfold execStationBroadcastReceive
  repeat' first | with_reducible assumption | with_reducible apply State.modStn_canonical | with_reducible apply Res.canonical_next

theorem execStationOutputApply_canonical (p : Fin 16) (serial : U32) (s : State) (h_s : (s).canonical) :
    Res.canonical (execStationOutputApply p serial s) := by
  unfold execStationOutputApply
  repeat' first | with_reducible assumption | with_reducible apply State.modStn_canonical | with_reducible apply Res.canonical_next

theorem execStationOutputTimeout_canonical (p : Fin 16) (serial : U32) (s : State) (h_s : (s).canonical) :
    Res.canonical (execStationOutputTimeout p serial s) := by
  unfold execStationOutputTimeout
  repeat' first | with_reducible assumption | with_reducible apply State.modStn_canonical | with_reducible apply Res.canonical_next

theorem execStationInputLaunch_canonical (p : Fin 16) (serial : U32) (part : Fin 4) (word : U64) (train : Option (Fin 32)) (s : State) (h_s : (s).canonical) :
    Res.canonical (execStationInputLaunch p serial part word train s) := by
  unfold execStationInputLaunch
  repeat' first | with_reducible assumption | with_reducible apply State.modStn_canonical | with_reducible apply Res.canonical_next

theorem execStationAnnounceNoAnswer_canonical (p : Fin 16) (serial : U32) (s : State) (h_s : (s).canonical) :
    Res.canonical (execStationAnnounceNoAnswer p serial s) := by
  unfold execStationAnnounceNoAnswer
  repeat' first | with_reducible assumption | with_reducible apply State.modStn_canonical | with_reducible apply Res.canonical_next

theorem execStationHushExpire_canonical (p : Fin 16) (serial : U32) (s : State) (h_s : (s).canonical) :
    Res.canonical (execStationHushExpire p serial s) := by
  unfold execStationHushExpire
  repeat' first | with_reducible assumption | with_reducible apply State.modStn_canonical | with_reducible apply Res.canonical_next

theorem execStationJabber_canonical (p : Fin 16) (serial : U32) (s : State) (h_s : (s).canonical) :
    Res.canonical (execStationJabber p serial s) := by
  unfold execStationJabber
  repeat' first | with_reducible assumption | with_reducible apply State.modStn_canonical | with_reducible apply Res.canonical_next

theorem execStationJabberRelease_canonical (p : Fin 16) (serial : U32) (s : State) (h_s : (s).canonical) :
    Res.canonical (execStationJabberRelease p serial s) := by
  unfold execStationJabberRelease
  repeat' first | with_reducible assumption | with_reducible apply State.modStn_canonical | with_reducible apply Res.canonical_next

theorem execStationRangingReply_canonical (p : Fin 16) (serial : U32) (f : RxFrame) (s : State) (h_s : (s).canonical) :
    Res.canonical (execStationRangingReply p serial f s) := by
  unfold execStationRangingReply
  repeat' first | with_reducible assumption | with_reducible apply State.modStn_canonical | with_reducible apply Res.canonical_next

theorem execIdentify_canonical (p : Fin 16) (serial : U32) (r : MReq) (s : State) (h_s : (s).canonical) :
    Res.canonical (execIdentify p serial r s) := by
  unfold execIdentify
  repeat' first | with_reducible assumption | with_reducible apply State.stnRequest_canonical | with_reducible apply Res.canonical_next

theorem execSetAddr_canonical (p : Fin 16) (serial : U32) (r : MReq) (s : State) (h_s : (s).canonical) :
    Res.canonical (execSetAddr p serial r s) := by
  unfold execSetAddr
  repeat' first | with_reducible assumption | with_reducible apply State.stnRequest_canonical | with_reducible apply Res.canonical_next

theorem execCfgSlots_canonical (p : Fin 16) (serial : U32) (r : MReq) (s : State) (h_s : (s).canonical) :
    Res.canonical (execCfgSlots p serial r s) := by
  unfold execCfgSlots
  repeat' first | with_reducible assumption | with_reducible apply State.stnRequest_canonical | with_reducible apply Res.canonical_next

theorem execCfgTiming_canonical (p : Fin 16) (serial : U32) (r : MReq) (s : State) (h_s : (s).canonical) :
    Res.canonical (execCfgTiming p serial r s) := by
  unfold execCfgTiming
  repeat' first | with_reducible assumption | with_reducible apply State.stnRequest_canonical | with_reducible apply Res.canonical_next

theorem execCfgCommit_canonical (p : Fin 16) (serial : U32) (r : MReq) (s : State) (h_s : (s).canonical) :
    Res.canonical (execCfgCommit p serial r s) := by
  unfold execCfgCommit
  repeat' first | with_reducible assumption | with_reducible apply State.stnRequest_canonical | with_reducible apply Res.canonical_next

theorem execReadDiag_canonical (p : Fin 16) (serial : U32) (r : MReq) (s : State) (h_s : (s).canonical) :
    Res.canonical (execReadDiag p serial r s) := by
  unfold execReadDiag
  repeat' first | with_reducible assumption | with_reducible apply State.stnRequest_canonical | with_reducible apply Res.canonical_next

theorem execQuarantine_canonical (p : Fin 16) (serial : U32) (r : MReq) (s : State) (h_s : (s).canonical) :
    Res.canonical (execQuarantine p serial r s) := by
  unfold execQuarantine
  repeat' first | with_reducible assumption | with_reducible apply State.stnRequest_canonical | with_reducible apply Res.canonical_next

theorem execRelease_canonical (p : Fin 16) (serial : U32) (r : MReq) (s : State) (h_s : (s).canonical) :
    Res.canonical (execRelease p serial r s) := by
  unfold execRelease
  repeat' first | with_reducible assumption | with_reducible apply State.stnRequest_canonical | with_reducible apply Res.canonical_next

theorem execHush_canonical (p : Fin 16) (serial : U32) (r : MReq) (s : State) (h_s : (s).canonical) :
    Res.canonical (execHush p serial r s) := by
  unfold execHush
  repeat' first | with_reducible assumption | with_reducible apply State.modStn_canonical | with_reducible apply Res.canonical_next

theorem execStationProfileCommand_canonical (p : Fin 16) (serial : U32) (r : MReq) (status : U8) (reply : List Byte) (holdMask safeVals : List (Nat × U64)) (diag : Bool) (s : State) (h_s : (s).canonical) :
    Res.canonical (execStationProfileCommand p serial r status reply holdMask safeVals diag s) := by
  unfold execStationProfileCommand
  repeat' first | with_reducible assumption | with_reducible apply State.stnRequest_canonical | with_reducible apply Res.canonical_next

theorem execUpdateFrame_canonical (p : Fin 16) (serial : U32) (r : MReq) (blockOk : Bool) (s : State) (h_s : (s).canonical) :
    Res.canonical (execUpdateFrame p serial r blockOk s) := by
  unfold execUpdateFrame
  repeat' first | with_reducible assumption | with_reducible apply State.modStn_canonical | with_reducible apply Res.canonical_next

theorem execUpdBegin_canonical (p : Fin 16) (serial : U32) (r : MReq) (s : State) (h_s : (s).canonical) :
    Res.canonical (execUpdBegin p serial r s) := by
  unfold execUpdBegin
  repeat' first | with_reducible assumption | with_reducible apply State.stnRequest_canonical | with_reducible apply Res.canonical_next

theorem execUpdVerify_canonical (p : Fin 16) (serial : U32) (r : MReq) (result : Fin 3) (s : State) (h_s : (s).canonical) :
    Res.canonical (execUpdVerify p serial r result s) := by
  unfold execUpdVerify
  repeat' first | with_reducible assumption | with_reducible apply State.stnRequest_canonical | with_reducible apply Res.canonical_next

theorem execUpdActivate_canonical (p : Fin 16) (serial : U32) (r : MReq) (s : State) (h_s : (s).canonical) :
    Res.canonical (execUpdActivate p serial r s) := by
  unfold execUpdActivate
  repeat' first | with_reducible assumption | with_reducible apply State.stnRequest_canonical | with_reducible apply Res.canonical_next

theorem execStationBankSwitch_canonical (p : Fin 16) (serial : U32) (s : State) (h_s : (s).canonical) :
    Res.canonical (execStationBankSwitch p serial s) := by
  unfold execStationBankSwitch
  repeat' first | with_reducible assumption | with_reducible apply State.modStn_canonical | with_reducible apply Res.canonical_next

theorem execStationHealthFallback_canonical (p : Fin 16) (serial : U32) (s : State) (h_s : (s).canonical) :
    Res.canonical (execStationHealthFallback p serial s) := by
  unfold execStationHealthFallback
  repeat' first | with_reducible assumption | with_reducible apply State.modStn_canonical | with_reducible apply Res.canonical_next

theorem execStationHealthConfirmed_canonical (p : Fin 16) (serial : U32) (s : State) (h_s : (s).canonical) :
    Res.canonical (execStationHealthConfirmed p serial s) := by
  unfold execStationHealthConfirmed
  repeat' first | with_reducible assumption | with_reducible apply State.modStn_canonical | with_reducible apply Res.canonical_next

end Sys2Proof.Machine
end

