-- ==== Sys2Proof/Laws/CanonExec.lean ====
section
/-!
SUPPORT. Every meaning keeps the canonical form of State, read through exec.
-/

namespace Sys2Proof.Machine

theorem exec_canonical (c : Instr) (s : State) (h0 : s.canonical) : Res.canonical (exec c s) := by
  cases c with
  | resetPor others => exact execResetPor_canonical others s h0
  | resetBor p others => exact execResetBor_canonical p others s h0
  | resetPin lowNs others => exact execResetPin_canonical lowNs others s h0
  | resetWdt sc others => exact execResetWdt_canonical sc others s h0
  | resetSwr others => exact execResetSwr_canonical others s h0
  | resetClkf d others => exact execResetClkf_canonical d others s h0
  | resetLockup ep others => exact execResetLockup_canonical ep others s h0
  | deferredRelease d r => exact execDeferredRelease_canonical d r s h0
  | deferredReleaseTimeout d => exact execDeferredReleaseTimeout_canonical d s h0
  | clkfReleaseRetry d r => exact execClkfReleaseRetry_canonical d r s h0
  | clkFallback => exact execClkFallback_canonical s h0
  | keeperDomainRelease k => exact execKeeperDomainRelease_canonical k s h0
  | bootReleaseStep r => exact execBootReleaseStep_canonical r s h0
  | activationCopy ok bankOk => exact execActivationCopy_canonical ok bankOk s h0
  | bootEnd => exact execBootEnd_canonical s h0
  | mateBreak => exact execMateBreak_canonical s h0
  | mainsLoss => exact execMainsLoss_canonical s h0
  | swapLeverOut => exact execSwapLeverOut_canonical s h0
  | swapLeverIn => exact execSwapLeverIn_canonical s h0
  | regionReset r src => exact execRegionReset_canonical r src s h0
  | regionRelease r => exact execRegionRelease_canonical r s h0
  | regionInitDone r fail volts => exact execRegionInitDone_canonical r fail volts s h0
  | modeTransition => exact execModeTransition_canonical s h0
  | tickBoundary dev differs cl gaugeLost => exact execTickBoundary_canonical dev differs cl gaugeLost s h0
  | tailBeaconLaunch p dev => exact execTailBeaconLaunch_canonical p dev s h0
  | tailBroadcastLaunch p differs => exact execTailBroadcastLaunch_canonical p differs s h0
  | loopWindow loops gens groups ns => exact execLoopWindow_canonical loops gens groups ns s h0
  | programWindowOpen meas => exact execProgramWindowOpen_canonical meas s h0
  | runFinish m eff => exact execRunFinish_canonical m eff s h0
  | outputCut fault volts => exact execOutputCut_canonical fault volts s h0
  | partnerExchReceive h x => exact execPartnerExchReceive_canonical h x s h0
  | exchTimeout => exact execExchTimeout_canonical s h0
  | beatLaunch txA txB => exact execBeatLaunch_canonical txA txB s h0
  | partnerBeatReceive h rx b => exact execPartnerBeatReceive_canonical h rx b s h0
  | tickEndDigest reached diff => exact execTickEndDigest_canonical reached diff s h0
  | exchangeWindowEnd lockA lockB => exact execExchangeWindowEnd_canonical lockA lockB s h0
  | intakeMiss p => exact execIntakeMiss_canonical p s h0
  | rxRecordReceive h records => exact execRxRecordReceive_canonical h records s h0
  | msgFrameReceive h kind body content => exact execMsgFrameReceive_canonical h kind body content s h0
  | xferFrameReceive h addr quarter pass data => exact execXferFrameReceive_canonical h addr quarter pass data s h0
  | linkUnusable l => exact execLinkUnusable_canonical l s h0
  | linkUsable l => exact execLinkUsable_canonical l s h0
  | heartbeatLost => exact execHeartbeatLost_canonical s h0
  | alignFault => exact execAlignFault_canonical s h0
  | ptpMessageReceive m => exact execPtpMessageReceive_canonical m s h0
  | ptpHoldover => exact execPtpHoldover_canonical s h0
  | lockstepMismatch l => exact execLockstepMismatch_canonical l s h0
  | guardAccessRefused who kind addr len passed errors => exact execGuardAccessRefused_canonical who kind addr len passed errors s h0
  | withdrawal => exact execWithdrawal_canonical s h0
  | divergenceOutcome => exact execDivergenceOutcome_canonical s h0
  | takeover => exact execTakeover_canonical s h0
  | listenAloneExpire => exact execListenAloneExpire_canonical s h0
  | claimSuspect p => exact execClaimSuspect_canonical p s h0
  | localDisagree c => exact execLocalDisagree_canonical c s h0
  | handoverTick => exact execHandoverTick_canonical s h0
  | hoConfirmTimeout => exact execHoConfirmTimeout_canonical s h0
  | hoAckTimeout => exact execHoAckTimeout_canonical s h0
  | withdraw cause => exact execWithdraw_canonical cause s h0
  | verdict fault k => exact execVerdict_canonical fault k s h0
  | chgPropose c hash seed => exact execChgPropose_canonical c hash seed s h0
  | chgAck c => exact execChgAck_canonical c s h0
  | chgNak c cause => exact execChgNak_canonical c cause s h0
  | chgConfirm c => exact execChgConfirm_canonical c s h0
  | chgAckTimeout => exact execChgAckTimeout_canonical s h0
  | chgConfirmTimeout => exact execChgConfirmTimeout_canonical s h0
  | hoPropose x => exact execHoPropose_canonical x s h0
  | hoAck x => exact execHoAck_canonical x s h0
  | hoConfirm x => exact execHoConfirm_canonical x s h0
  | action arg effect fseq => exact execAction_canonical arg effect fseq s h0
  | changeCommitTick => exact execChangeCommitTick_canonical s h0
  | changeSaveDone => exact execChangeSaveDone_canonical s h0
  | retainSave => exact execRetainSave_canonical s h0
  | retainSaveDone => exact execRetainSaveDone_canonical s h0
  | forceEffect => exact execForceEffect_canonical s h0
  | pairChangeEffect => exact execPairChangeEffect_canonical s h0
  | relayChangeReceive effect id items => exact execRelayChangeReceive_canonical effect id items s h0
  | relayAckTimeout => exact execRelayAckTimeout_canonical s h0
  | relayedRequest tag opcode payload => exact execRelayedRequest_canonical tag opcode payload s h0
  | maintRecordReceive set ports => exact execMaintRecordReceive_canonical set ports s h0
  | joinReq => exact execJoinReq_canonical s h0
  | joinReqSend => exact execJoinReqSend_canonical s h0
  | joinAccept k => exact execJoinAccept_canonical k s h0
  | resyncEnter => exact execResyncEnter_canonical s h0
  | joinAcceptTimeout => exact execJoinAcceptTimeout_canonical s h0
  | copyPassEnd dirty sent => exact execCopyPassEnd_canonical dirty sent s h0
  | cutTick => exact execCutTick_canonical s h0
  | cut st => exact execCut_canonical st s h0
  | catchupTick items runs => exact execCatchupTick_canonical items runs s h0
  | catchupTimeout => exact execCatchupTimeout_canonical s h0
  | ready x => exact execReady_canonical x s h0
  | join j => exact execJoin_canonical j s h0
  | readyTimeout => exact execReadyTimeout_canonical s h0
  | joinTick => exact execJoinTick_canonical s h0
  | joinAbandon cause => exact execJoinAbandon_canonical cause s h0
  | resyncAbandon cause => exact execResyncAbandon_canonical cause s h0
  | resyncRetry => exact execResyncRetry_canonical s h0
  | trunkBeaconReceive p f => exact execTrunkBeaconReceive_canonical p f s h0
  | rateDwellExpire p => exact execRateDwellExpire_canonical p s h0
  | slotFrameReceive p i0 f m => exact execSlotFrameReceive_canonical p i0 f m s h0
  | partnerBroadcastReceive p f => exact execPartnerBroadcastReceive_canonical p f s h0
  | eventFrameReceive p m f => exact execEventFrameReceive_canonical p m f s h0
  | mgmtReplyReceive p m f => exact execMgmtReplyReceive_canonical p m f s h0
  | rangingReplyReceive p m f other => exact execRangingReplyReceive_canonical p m f other s h0
  | trainingFrameReceive p i0 f m => exact execTrainingFrameReceive_canonical p i0 f m s h0
  | lineActivityNoStart p inSlot inArbitration => exact execLineActivityNoStart_canonical p inSlot inArbitration s h0
  | backgroundCalibration p idle => exact execBackgroundCalibration_canonical p idle s h0
  | calStale p => exact execCalStale_canonical p s h0
  | eqRetrainEnd p => exact execEqRetrainEnd_canonical p s h0
  | breakDeclare p => exact execBreakDeclare_canonical p s h0
  | breakClear p => exact execBreakClear_canonical p s h0
  | tdrRun p refl => exact execTdrRun_canonical p refl s h0
  | tdrWaitTimeout p => exact execTdrWaitTimeout_canonical p s h0
  | schedSwitch p => exact execSchedSwitch_canonical p s h0
  | eventRound p m others => exact execEventRound_canonical p m others s h0
  | eventRoundFramePhase p => exact execEventRoundFramePhase_canonical p s h0
  | txqEntrySend p => exact execTxqEntrySend_canonical p s h0
  | keeperStationRequest p => exact execKeeperStationRequest_canonical p s h0
  | stationDistributionFrame p => exact execStationDistributionFrame_canonical p s h0
  | updVerifyPoll p => exact execUpdVerifyPoll_canonical p s h0
  | stnAbsentTimeout p => exact execStnAbsentTimeout_canonical p s h0
  | stnVerifyTimeout p => exact execStnVerifyTimeout_canonical p s h0
  | stnActivateTimeout p => exact execStnActivateTimeout_canonical p s h0
  | stationRateSearch p serial restart => exact execStationRateSearch_canonical p serial restart s h0
  | stationBeaconReceive p serial f => exact execStationBeaconReceive_canonical p serial f s h0
  | stationClaimLearned p serial => exact execStationClaimLearned_canonical p serial s h0
  | stationBroadcastReceive p serial f => exact execStationBroadcastReceive_canonical p serial f s h0
  | stationOutputApply p serial => exact execStationOutputApply_canonical p serial s h0
  | stationOutputTimeout p serial => exact execStationOutputTimeout_canonical p serial s h0
  | stationHoldoverExpire p serial => exact execStationHoldoverExpire_canonical p serial s h0
  | stationBeaconLoss p serial => exact execStationBeaconLoss_canonical p serial s h0
  | stationInputLaunch p serial part word train => exact execStationInputLaunch_canonical p serial part word train s h0
  | stationAnnounceNoAnswer p serial => exact execStationAnnounceNoAnswer_canonical p serial s h0
  | stationHushExpire p serial => exact execStationHushExpire_canonical p serial s h0
  | stationJabber p serial => exact execStationJabber_canonical p serial s h0
  | stationRangingReply p serial f => exact execStationRangingReply_canonical p serial f s h0
  | identify p serial r => exact execIdentify_canonical p serial r s h0
  | setAddr p serial r => exact execSetAddr_canonical p serial r s h0
  | cfgSlots p serial r => exact execCfgSlots_canonical p serial r s h0
  | cfgTiming p serial r => exact execCfgTiming_canonical p serial r s h0
  | cfgCommit p serial r => exact execCfgCommit_canonical p serial r s h0
  | readDiag p serial r => exact execReadDiag_canonical p serial r s h0
  | quarantine p serial r => exact execQuarantine_canonical p serial r s h0
  | release p serial r => exact execRelease_canonical p serial r s h0
  | hush p serial r => exact execHush_canonical p serial r s h0
  | stationProfileCommand p serial r status reply holdMask safeVals diag => exact execStationProfileCommand_canonical p serial r status reply holdMask safeVals diag s h0
  | updateFrame p serial r blockOk => exact execUpdateFrame_canonical p serial r blockOk s h0
  | updBegin p serial r => exact execUpdBegin_canonical p serial r s h0
  | updVerify p serial r result => exact execUpdVerify_canonical p serial r result s h0
  | updActivate p serial r => exact execUpdActivate_canonical p serial r s h0
  | stationBankSwitch p serial => exact execStationBankSwitch_canonical p serial s h0
  | stationHealthFallback p serial => exact execStationHealthFallback_canonical p serial s h0
  | dioSample c raw t => exact execDioSample_canonical c raw t s h0
  | dioOverload c thermal => exact execDioOverload_canonical c thermal s h0
  | dioOpen c => exact execDioOpen_canonical c s h0
  | groupWarning g => exact execGroupWarning_canonical g s h0
  | groupOff g => exact execGroupOff_canonical g s h0
  | groupRecovering g => exact execGroupRecovering_canonical g s h0
  | groupNormal g => exact execGroupNormal_canonical g s h0
  | groupOverload g => exact execGroupOverload_canonical g s h0
  | clComplianceSet k => exact execClComplianceSet_canonical k s h0
  | clComplianceClear k => exact execClComplianceClear_canonical k s h0
  | clLiveZero k => exact execClLiveZero_canonical k s h0
  | hartReplyReceive k sound long code status data => exact execHartReplyReceive_canonical k sound long code status data s h0
  | hartBurstFrame k => exact execHartBurstFrame_canonical k s h0
  | captureTrigger unit t dead => exact execCaptureTrigger_canonical unit t dead s h0
  | segmentClose unit d => exact execSegmentClose_canonical unit d s h0
  | maskViolation unit mask idx d others => exact execMaskViolation_canonical unit mask idx d others s h0
  | captureOverrun unit d => exact execCaptureOverrun_canonical unit d s h0
  | gaugeSnapshot => exact execGaugeSnapshot_canonical s h0
  | gaugeSnapshotDone full => exact execGaugeSnapshotDone_canonical full s h0
  | gaugeFold => exact execGaugeFold_canonical s h0
  | gaugeWindowCopyDone => exact execGaugeWindowCopyDone_canonical s h0
  | replayTick effects digest cells bad held => exact execReplayTick_canonical effects digest cells bad held s h0
  | housekeepingPeriod p => exact execHousekeepingPeriod_canonical p s h0
  | keeperWatchdogExpire => exact execKeeperWatchdogExpire_canonical s h0
  | sensorWarning n => exact execSensorWarning_canonical n s h0
  | sensorAlarm n => exact execSensorAlarm_canonical n s h0
  | sensorClear n => exact execSensorClear_canonical n s h0
  | lifeSave => exact execLifeSave_canonical s h0
  | tokenRefill => exact execTokenRefill_canonical s h0
  | recorderScan upsets => exact execRecorderScan_canonical upsets s h0
  | healthWindowExpire => exact execHealthWindowExpire_canonical s h0
  | healthAutoConfirm => exact execHealthAutoConfirm_canonical s h0
  | transferExpire => exact execTransferExpire_canonical s h0
  | mailboxMessageReceive port mb opcode tag session more gcmOk payload => exact execMailboxMessageReceive_canonical port mb opcode tag session more gcmOk payload s h0
  | sessionExpire mb => exact execSessionExpire_canonical mb s h0
  | connectionLost port mb => exact execConnectionLost_canonical port mb s h0
  | prgMsgOut => exact execPrgMsgOut_canonical s h0
  | sessionOpen rq port cert payload secret answer => exact execSessionOpen_canonical rq port cert payload secret answer s h0
  | sessionProve rq port payload sigOk => exact execSessionProve_canonical rq port payload sigOk s h0
  | sessionClose rq => exact execSessionClose_canonical rq s h0
  | keyInstall rq port keyType key sigOk => exact execKeyInstall_canonical rq port keyType key sigOk s h0
  | keyRevoke rq serial => exact execKeyRevoke_canonical rq serial s h0
  | echo rq data => exact execEcho_canonical rq data s h0
  | paramRead rq ids => exact execParamRead_canonical rq ids s h0
  | paramWrite rq items => exact execParamWrite_canonical rq items s h0
  | tableRead rq tid first count => exact execTableRead_canonical rq tid first count s h0
  | tableWrite rq tid first entries => exact execTableWrite_canonical rq tid first entries s h0
  | cntClear rq ids => exact execCntClear_canonical rq ids s h0
  | tableInfo rq tid => exact execTableInfo_canonical rq tid s h0
  | guardArm rq n => exact execGuardArm_canonical rq n s h0
  | guardSwitch => exact execGuardSwitch_canonical s h0
  | modeRun rq => exact execModeRun_canonical rq s h0
  | modeRequest rq n => exact execModeRequest_canonical rq n s h0
  | sysRestart rq scope => exact execSysRestart_canonical rq scope s h0
  | sysRegionReset rq r => exact execSysRegionReset_canonical rq r s h0
  | timeStep rq plant => exact execTimeStep_canonical rq plant s h0
  | trkCommission rq port steps addrs => exact execTrkCommission_canonical rq port steps addrs s h0
  | trkTdr rq port => exact execTrkTdr_canonical rq port s h0
  | trkAssign rq port addr serial => exact execTrkAssign_canonical rq port addr serial s h0
  | trkRelease rq port serial => exact execTrkRelease_canonical rq port serial s h0
  | schedCommit rq port tick => exact execSchedCommit_canonical rq port tick s h0
  | prgChangeStage rq obj pkg signed => exact execPrgChangeStage_canonical rq obj pkg signed s h0
  | prgChangeCommit rq tick => exact execPrgChangeCommit_canonical rq tick s h0
  | prgChangeDiscard rq => exact execPrgChangeDiscard_canonical rq s h0
  | prgForceCommit rq => exact execPrgForceCommit_canonical rq s h0
  | prgForceClear rq => exact execPrgForceClear_canonical rq s h0
  | prgTaskResume rq task => exact execPrgTaskResume_canonical rq task s h0
  | prgMsgSend rq msg => exact execPrgMsgSend_canonical rq msg s h0
  | pairHandover rq => exact execPairHandover_canonical rq s h0
  | pairWithdraw rq => exact execPairWithdraw_canonical rq s h0
  | pairRejoin rq => exact execPairRejoin_canonical rq s h0
  | pairClaimRaise rq amount => exact execPairClaimRaise_canonical rq amount s h0
  | chkProofRestart rq => exact execChkProofRestart_canonical rq s h0
  | chkFaultClear rq => exact execChkFaultClear_canonical rq s h0
  | dbgHalt rq n => exact execDbgHalt_canonical rq n s h0
  | dbgResume rq n => exact execDbgResume_canonical rq n s h0
  | dbgStep rq n count => exact execDbgStep_canonical rq n count s h0
  | dbgRegRead rq n first count => exact execDbgRegRead_canonical rq n first count s h0
  | dbgRegWrite rq n r value => exact execDbgRegWrite_canonical rq n r value s h0
  | dbgMemRead rq n addr len => exact execDbgMemRead_canonical rq n addr len s h0
  | dbgMemWrite rq n addr data => exact execDbgMemWrite_canonical rq n addr data s h0
  | dbgBreak rq n kind slot addr => exact execDbgBreak_canonical rq n kind slot addr s h0
  | dbgReset rq scope => exact execDbgReset_canonical rq scope s h0
  | dbgTraceRead rq offset len => exact execDbgTraceRead_canonical rq offset len s h0
  | fioManual rq chan value => exact execFioManual_canonical rq chan value s h0
  | fioGroupAck rq g => exact execFioGroupAck_canonical rq g s h0
  | fioHartScan rq k => exact execFioHartScan_canonical rq k s h0
  | fioHartXfer rq k cmd long data => exact execFioHartXfer_canonical rq k cmd long data s h0
  | acqArm rq unit => exact execAcqArm_canonical rq unit s h0
  | acqStop rq unit d => exact execAcqStop_canonical rq unit d s h0
  | acqTrigger rq mask => exact execAcqTrigger_canonical rq mask s h0
  | acqExport rq unit first count => exact execAcqExport_canonical rq unit first count s h0
  | gaugeMark rq => exact execGaugeMark_canonical rq s h0
  | gaugeProtect rq slot set => exact execGaugeProtect_canonical rq slot set s h0
  | gaugeExport rq slot offset len => exact execGaugeExport_canonical rq slot offset len s h0
  | replayLoad rq hash signed win => exact execReplayLoad_canonical rq hash signed win s h0
  | replayStart rq slot tick => exact execReplayStart_canonical rq slot tick s h0
  | replayStop rq => exact execReplayStop_canonical rq s h0
  | recRead rq chan count first => exact execRecRead_canonical rq chan count first s h0
  | recSubscribe rq mask => exact execRecSubscribe_canonical rq mask s h0
  | recUser rq code sev count key vals => exact execRecUser_canonical rq code sev count key vals s h0
  | recScan rq => exact execRecScan_canonical rq s h0
  | imgXferOpen rq kind size hash => exact execImgXferOpen_canonical rq kind size hash s h0
  | imgXferData rq num offset data => exact execImgXferData_canonical rq num offset data s h0
  | imgXferClose rq num => exact execImgXferClose_canonical rq num s h0
  | imgXferDrop rq hash => exact execImgXferDrop_canonical rq hash s h0
  | imgStage rq hash signed => exact execImgStage_canonical rq hash signed s h0
  | imgChamberClear rq => exact execImgChamberClear_canonical rq s h0
  | imgActivate rq => exact execImgActivate_canonical rq s h0
  | imgConfirm rq => exact execImgConfirm_canonical rq s h0
  | imgRevert rq => exact execImgRevert_canonical rq s h0
  | imgInstall rq hash signed pkg words => exact execImgInstall_canonical rq hash signed pkg words s h0
  | attest rq nonce signature => exact execAttest_canonical rq nonce signature s h0
  | identityRead rq => exact execIdentityRead_canonical rq s h0
  | stnStage rq hash signed pkg => exact execStnStage_canonical rq hash signed pkg s h0
  | stnStart rq p => exact execStnStart_canonical rq p s h0
  | stnStop rq p => exact execStnStop_canonical rq p s h0
  | stnDiscard rq hash => exact execStnDiscard_canonical rq hash s h0
  | ton m addr input pt => exact execTon_canonical m addr input pt s h0
  | tof m addr input pt => exact execTof_canonical m addr input pt s h0
  | tp m addr input pt => exact execTp_canonical m addr input pt s h0
  | ctu m addr cu r pv => exact execCtu_canonical m addr cu r pv s h0
  | ctd m addr cd ld pv => exact execCtd_canonical m addr cd ld pv s h0
  | ctud m addr cu cd r ld pv => exact execCtud_canonical m addr cu cd r ld pv s h0
  | rTrig m addr clk => exact execRTrig_canonical m addr clk s h0
  | fTrig m addr clk => exact execFTrig_canonical m addr clk s h0
  | sbTime m => exact execSbTime_canonical m s h0
  | sbTaskInfo m => exact execSbTaskInfo_canonical m s h0
  | sbStationState m p addr => exact execSbStationState_canonical m p addr s h0
  | sbRxqGet m p e => exact execSbRxqGet_canonical m p e s h0
  | sbRxqAck m p e => exact execSbRxqAck_canonical m p e s h0
  | sbTxqSubmit m p e words => exact execSbTxqSubmit_canonical m p e words s h0
  | sbTxqGet m p e free => exact execSbTxqGet_canonical m p e free s h0
  | sbMbxRecv m slot => exact execSbMbxRecv_canonical m slot s h0
  | sbMbxSend m msg => exact execSbMbxSend_canonical m msg s h0
  | sbRand m => exact execSbRand_canonical m s h0
  | mainsReturn => exact execMainsReturn_canonical s h0
  | hartReplyTimeout k => exact execHartReplyTimeout_canonical k s h0
  | dioOpenClear c => exact execDioOpenClear_canonical c s h0
  | stationJabberRelease p serial => exact execStationJabberRelease_canonical p serial s h0
  | stationHealthConfirmed p serial => exact execStationHealthConfirmed_canonical p serial s h0
  | stationBeaconMissed p serial => exact execStationBeaconMissed_canonical p serial s h0

end Sys2Proof.Machine
end

