-- ==== Sys2Proof/Laws/State.lean ====
section
/-!
SUPPORT. What the named operations over State leave as it is: one lemma for each field, so that no proof unfolds a record update.
-/

namespace Sys2Proof.Machine

@[simp] theorem State.setWord_pending (s : State) (k : Nat) (v : U32) : (s.setWord k v).pending = s.pending := rfl
@[simp] theorem State.setWord_pm (s : State) (k : Nat) (v : U32) : (s.setWord k v).pm = s.pm := rfl
@[simp] theorem State.setWord_dram (s : State) (k : Nat) (v : U32) : (s.setWord k v).dram = s.dram := rfl
@[simp] theorem State.setWord_free (s : State) (k : Nat) (v : U32) : (s.setWord k v).free = s.free := rfl
@[simp] theorem State.setWord_time (s : State) (k : Nat) (v : U32) : (s.setWord k v).time = s.time := rfl
@[simp] theorem State.setWord_sys (s : State) (k : Nat) (v : U32) : (s.setWord k v).sys = s.sys := rfl
@[simp] theorem State.setWord_pair (s : State) (k : Nat) (v : U32) : (s.setWord k v).pair = s.pair := rfl
@[simp] theorem State.setWord_sync (s : State) (k : Nat) (v : U32) : (s.setWord k v).sync = s.sync := rfl
@[simp] theorem State.setWord_ports (s : State) (k : Nat) (v : U32) : (s.setWord k v).ports = s.ports := rfl
@[simp] theorem State.setWord_stns (s : State) (k : Nat) (v : U32) : (s.setWord k v).stns = s.stns := rfl
@[simp] theorem State.setWord_prog (s : State) (k : Nat) (v : U32) : (s.setWord k v).prog = s.prog := rfl
@[simp] theorem State.setWord_change (s : State) (k : Nat) (v : U32) : (s.setWord k v).change = s.change := rfl
@[simp] theorem State.setWord_loop (s : State) (k : Nat) (v : U32) : (s.setWord k v).loop = s.loop := rfl
@[simp] theorem State.setWord_recorder (s : State) (k : Nat) (v : U32) : (s.setWord k v).recorder = s.recorder := rfl
@[simp] theorem State.setWord_kpr (s : State) (k : Nat) (v : U32) : (s.setWord k v).kpr = s.kpr := rfl
@[simp] theorem State.setWord_fio (s : State) (k : Nat) (v : U32) : (s.setWord k v).fio = s.fio := rfl
@[simp] theorem State.setWord_acq (s : State) (k : Nat) (v : U32) : (s.setWord k v).acq = s.acq := rfl
@[simp] theorem State.setWord_gauge (s : State) (k : Nat) (v : U32) : (s.setWord k v).gauge = s.gauge := rfl
@[simp] theorem State.setWord_replay (s : State) (k : Nat) (v : U32) : (s.setWord k v).replay = s.replay := rfl
@[simp] theorem State.setWord_img (s : State) (k : Nat) (v : U32) : (s.setWord k v).img = s.img := rfl
@[simp] theorem State.setWord_eps (s : State) (k : Nat) (v : U32) : (s.setWord k v).eps = s.eps := rfl
@[simp] theorem State.setWord_maint (s : State) (k : Nat) (v : U32) : (s.setWord k v).maint = s.maint := rfl

@[simp] theorem State.setFld_pending (s : State) (k hi lo v : Nat) : (s.setFld k hi lo v).pending = s.pending := rfl
@[simp] theorem State.setFld_pm (s : State) (k hi lo v : Nat) : (s.setFld k hi lo v).pm = s.pm := rfl
@[simp] theorem State.setFld_dram (s : State) (k hi lo v : Nat) : (s.setFld k hi lo v).dram = s.dram := rfl
@[simp] theorem State.setFld_free (s : State) (k hi lo v : Nat) : (s.setFld k hi lo v).free = s.free := rfl
@[simp] theorem State.setFld_time (s : State) (k hi lo v : Nat) : (s.setFld k hi lo v).time = s.time := rfl
@[simp] theorem State.setFld_sys (s : State) (k hi lo v : Nat) : (s.setFld k hi lo v).sys = s.sys := rfl
@[simp] theorem State.setFld_pair (s : State) (k hi lo v : Nat) : (s.setFld k hi lo v).pair = s.pair := rfl
@[simp] theorem State.setFld_sync (s : State) (k hi lo v : Nat) : (s.setFld k hi lo v).sync = s.sync := rfl
@[simp] theorem State.setFld_ports (s : State) (k hi lo v : Nat) : (s.setFld k hi lo v).ports = s.ports := rfl
@[simp] theorem State.setFld_stns (s : State) (k hi lo v : Nat) : (s.setFld k hi lo v).stns = s.stns := rfl
@[simp] theorem State.setFld_prog (s : State) (k hi lo v : Nat) : (s.setFld k hi lo v).prog = s.prog := rfl
@[simp] theorem State.setFld_change (s : State) (k hi lo v : Nat) : (s.setFld k hi lo v).change = s.change := rfl
@[simp] theorem State.setFld_loop (s : State) (k hi lo v : Nat) : (s.setFld k hi lo v).loop = s.loop := rfl
@[simp] theorem State.setFld_recorder (s : State) (k hi lo v : Nat) : (s.setFld k hi lo v).recorder = s.recorder := rfl
@[simp] theorem State.setFld_kpr (s : State) (k hi lo v : Nat) : (s.setFld k hi lo v).kpr = s.kpr := rfl
@[simp] theorem State.setFld_fio (s : State) (k hi lo v : Nat) : (s.setFld k hi lo v).fio = s.fio := rfl
@[simp] theorem State.setFld_acq (s : State) (k hi lo v : Nat) : (s.setFld k hi lo v).acq = s.acq := rfl
@[simp] theorem State.setFld_gauge (s : State) (k hi lo v : Nat) : (s.setFld k hi lo v).gauge = s.gauge := rfl
@[simp] theorem State.setFld_replay (s : State) (k hi lo v : Nat) : (s.setFld k hi lo v).replay = s.replay := rfl
@[simp] theorem State.setFld_img (s : State) (k hi lo v : Nat) : (s.setFld k hi lo v).img = s.img := rfl
@[simp] theorem State.setFld_eps (s : State) (k hi lo v : Nat) : (s.setFld k hi lo v).eps = s.eps := rfl
@[simp] theorem State.setFld_maint (s : State) (k hi lo v : Nat) : (s.setFld k hi lo v).maint = s.maint := rfl

@[simp] theorem State.setBit_pending (s : State) (k b : Nat) (v : Bool) : (s.setBit k b v).pending = s.pending := rfl
@[simp] theorem State.setBit_pm (s : State) (k b : Nat) (v : Bool) : (s.setBit k b v).pm = s.pm := rfl
@[simp] theorem State.setBit_dram (s : State) (k b : Nat) (v : Bool) : (s.setBit k b v).dram = s.dram := rfl
@[simp] theorem State.setBit_free (s : State) (k b : Nat) (v : Bool) : (s.setBit k b v).free = s.free := rfl
@[simp] theorem State.setBit_time (s : State) (k b : Nat) (v : Bool) : (s.setBit k b v).time = s.time := rfl
@[simp] theorem State.setBit_sys (s : State) (k b : Nat) (v : Bool) : (s.setBit k b v).sys = s.sys := rfl
@[simp] theorem State.setBit_pair (s : State) (k b : Nat) (v : Bool) : (s.setBit k b v).pair = s.pair := rfl
@[simp] theorem State.setBit_sync (s : State) (k b : Nat) (v : Bool) : (s.setBit k b v).sync = s.sync := rfl
@[simp] theorem State.setBit_ports (s : State) (k b : Nat) (v : Bool) : (s.setBit k b v).ports = s.ports := rfl
@[simp] theorem State.setBit_stns (s : State) (k b : Nat) (v : Bool) : (s.setBit k b v).stns = s.stns := rfl
@[simp] theorem State.setBit_prog (s : State) (k b : Nat) (v : Bool) : (s.setBit k b v).prog = s.prog := rfl
@[simp] theorem State.setBit_change (s : State) (k b : Nat) (v : Bool) : (s.setBit k b v).change = s.change := rfl
@[simp] theorem State.setBit_loop (s : State) (k b : Nat) (v : Bool) : (s.setBit k b v).loop = s.loop := rfl
@[simp] theorem State.setBit_recorder (s : State) (k b : Nat) (v : Bool) : (s.setBit k b v).recorder = s.recorder := rfl
@[simp] theorem State.setBit_kpr (s : State) (k b : Nat) (v : Bool) : (s.setBit k b v).kpr = s.kpr := rfl
@[simp] theorem State.setBit_fio (s : State) (k b : Nat) (v : Bool) : (s.setBit k b v).fio = s.fio := rfl
@[simp] theorem State.setBit_acq (s : State) (k b : Nat) (v : Bool) : (s.setBit k b v).acq = s.acq := rfl
@[simp] theorem State.setBit_gauge (s : State) (k b : Nat) (v : Bool) : (s.setBit k b v).gauge = s.gauge := rfl
@[simp] theorem State.setBit_replay (s : State) (k b : Nat) (v : Bool) : (s.setBit k b v).replay = s.replay := rfl
@[simp] theorem State.setBit_img (s : State) (k b : Nat) (v : Bool) : (s.setBit k b v).img = s.img := rfl
@[simp] theorem State.setBit_eps (s : State) (k b : Nat) (v : Bool) : (s.setBit k b v).eps = s.eps := rfl
@[simp] theorem State.setBit_maint (s : State) (k b : Nat) (v : Bool) : (s.setBit k b v).maint = s.maint := rfl

@[simp] theorem State.set64_pending (s : State) (k v : Nat) : (s.set64 k v).pending = s.pending := rfl
@[simp] theorem State.set64_pm (s : State) (k v : Nat) : (s.set64 k v).pm = s.pm := rfl
@[simp] theorem State.set64_dram (s : State) (k v : Nat) : (s.set64 k v).dram = s.dram := rfl
@[simp] theorem State.set64_free (s : State) (k v : Nat) : (s.set64 k v).free = s.free := rfl
@[simp] theorem State.set64_time (s : State) (k v : Nat) : (s.set64 k v).time = s.time := rfl
@[simp] theorem State.set64_sys (s : State) (k v : Nat) : (s.set64 k v).sys = s.sys := rfl
@[simp] theorem State.set64_pair (s : State) (k v : Nat) : (s.set64 k v).pair = s.pair := rfl
@[simp] theorem State.set64_sync (s : State) (k v : Nat) : (s.set64 k v).sync = s.sync := rfl
@[simp] theorem State.set64_ports (s : State) (k v : Nat) : (s.set64 k v).ports = s.ports := rfl
@[simp] theorem State.set64_stns (s : State) (k v : Nat) : (s.set64 k v).stns = s.stns := rfl
@[simp] theorem State.set64_prog (s : State) (k v : Nat) : (s.set64 k v).prog = s.prog := rfl
@[simp] theorem State.set64_change (s : State) (k v : Nat) : (s.set64 k v).change = s.change := rfl
@[simp] theorem State.set64_loop (s : State) (k v : Nat) : (s.set64 k v).loop = s.loop := rfl
@[simp] theorem State.set64_recorder (s : State) (k v : Nat) : (s.set64 k v).recorder = s.recorder := rfl
@[simp] theorem State.set64_kpr (s : State) (k v : Nat) : (s.set64 k v).kpr = s.kpr := rfl
@[simp] theorem State.set64_fio (s : State) (k v : Nat) : (s.set64 k v).fio = s.fio := rfl
@[simp] theorem State.set64_acq (s : State) (k v : Nat) : (s.set64 k v).acq = s.acq := rfl
@[simp] theorem State.set64_gauge (s : State) (k v : Nat) : (s.set64 k v).gauge = s.gauge := rfl
@[simp] theorem State.set64_replay (s : State) (k v : Nat) : (s.set64 k v).replay = s.replay := rfl
@[simp] theorem State.set64_img (s : State) (k v : Nat) : (s.set64 k v).img = s.img := rfl
@[simp] theorem State.set64_eps (s : State) (k v : Nat) : (s.set64 k v).eps = s.eps := rfl
@[simp] theorem State.set64_maint (s : State) (k v : Nat) : (s.set64 k v).maint = s.maint := rfl

@[simp] theorem State.inc_pending (s : State) (k : Nat) : (s.inc k).pending = s.pending := rfl
@[simp] theorem State.inc_pm (s : State) (k : Nat) : (s.inc k).pm = s.pm := rfl
@[simp] theorem State.inc_dram (s : State) (k : Nat) : (s.inc k).dram = s.dram := rfl
@[simp] theorem State.inc_free (s : State) (k : Nat) : (s.inc k).free = s.free := rfl
@[simp] theorem State.inc_time (s : State) (k : Nat) : (s.inc k).time = s.time := rfl
@[simp] theorem State.inc_sys (s : State) (k : Nat) : (s.inc k).sys = s.sys := rfl
@[simp] theorem State.inc_pair (s : State) (k : Nat) : (s.inc k).pair = s.pair := rfl
@[simp] theorem State.inc_sync (s : State) (k : Nat) : (s.inc k).sync = s.sync := rfl
@[simp] theorem State.inc_ports (s : State) (k : Nat) : (s.inc k).ports = s.ports := rfl
@[simp] theorem State.inc_stns (s : State) (k : Nat) : (s.inc k).stns = s.stns := rfl
@[simp] theorem State.inc_prog (s : State) (k : Nat) : (s.inc k).prog = s.prog := rfl
@[simp] theorem State.inc_change (s : State) (k : Nat) : (s.inc k).change = s.change := rfl
@[simp] theorem State.inc_loop (s : State) (k : Nat) : (s.inc k).loop = s.loop := rfl
@[simp] theorem State.inc_recorder (s : State) (k : Nat) : (s.inc k).recorder = s.recorder := rfl
@[simp] theorem State.inc_kpr (s : State) (k : Nat) : (s.inc k).kpr = s.kpr := rfl
@[simp] theorem State.inc_fio (s : State) (k : Nat) : (s.inc k).fio = s.fio := rfl
@[simp] theorem State.inc_acq (s : State) (k : Nat) : (s.inc k).acq = s.acq := rfl
@[simp] theorem State.inc_gauge (s : State) (k : Nat) : (s.inc k).gauge = s.gauge := rfl
@[simp] theorem State.inc_replay (s : State) (k : Nat) : (s.inc k).replay = s.replay := rfl
@[simp] theorem State.inc_img (s : State) (k : Nat) : (s.inc k).img = s.img := rfl
@[simp] theorem State.inc_eps (s : State) (k : Nat) : (s.inc k).eps = s.eps := rfl
@[simp] theorem State.inc_maint (s : State) (k : Nat) : (s.inc k).maint = s.maint := rfl

@[simp] theorem State.incBy_pending (s : State) (k n : Nat) : (s.incBy k n).pending = s.pending := rfl
@[simp] theorem State.incBy_pm (s : State) (k n : Nat) : (s.incBy k n).pm = s.pm := rfl
@[simp] theorem State.incBy_dram (s : State) (k n : Nat) : (s.incBy k n).dram = s.dram := rfl
@[simp] theorem State.incBy_free (s : State) (k n : Nat) : (s.incBy k n).free = s.free := rfl
@[simp] theorem State.incBy_time (s : State) (k n : Nat) : (s.incBy k n).time = s.time := rfl
@[simp] theorem State.incBy_sys (s : State) (k n : Nat) : (s.incBy k n).sys = s.sys := rfl
@[simp] theorem State.incBy_pair (s : State) (k n : Nat) : (s.incBy k n).pair = s.pair := rfl
@[simp] theorem State.incBy_sync (s : State) (k n : Nat) : (s.incBy k n).sync = s.sync := rfl
@[simp] theorem State.incBy_ports (s : State) (k n : Nat) : (s.incBy k n).ports = s.ports := rfl
@[simp] theorem State.incBy_stns (s : State) (k n : Nat) : (s.incBy k n).stns = s.stns := rfl
@[simp] theorem State.incBy_prog (s : State) (k n : Nat) : (s.incBy k n).prog = s.prog := rfl
@[simp] theorem State.incBy_change (s : State) (k n : Nat) : (s.incBy k n).change = s.change := rfl
@[simp] theorem State.incBy_loop (s : State) (k n : Nat) : (s.incBy k n).loop = s.loop := rfl
@[simp] theorem State.incBy_recorder (s : State) (k n : Nat) : (s.incBy k n).recorder = s.recorder := rfl
@[simp] theorem State.incBy_kpr (s : State) (k n : Nat) : (s.incBy k n).kpr = s.kpr := rfl
@[simp] theorem State.incBy_fio (s : State) (k n : Nat) : (s.incBy k n).fio = s.fio := rfl
@[simp] theorem State.incBy_acq (s : State) (k n : Nat) : (s.incBy k n).acq = s.acq := rfl
@[simp] theorem State.incBy_gauge (s : State) (k n : Nat) : (s.incBy k n).gauge = s.gauge := rfl
@[simp] theorem State.incBy_replay (s : State) (k n : Nat) : (s.incBy k n).replay = s.replay := rfl
@[simp] theorem State.incBy_img (s : State) (k n : Nat) : (s.incBy k n).img = s.img := rfl
@[simp] theorem State.incBy_eps (s : State) (k n : Nat) : (s.incBy k n).eps = s.eps := rfl
@[simp] theorem State.incBy_maint (s : State) (k n : Nat) : (s.incBy k n).maint = s.maint := rfl

@[simp] theorem State.incFld_pending (s : State) (k hi lo : Nat) : (s.incFld k hi lo).pending = s.pending := rfl
@[simp] theorem State.incFld_pm (s : State) (k hi lo : Nat) : (s.incFld k hi lo).pm = s.pm := rfl
@[simp] theorem State.incFld_dram (s : State) (k hi lo : Nat) : (s.incFld k hi lo).dram = s.dram := rfl
@[simp] theorem State.incFld_free (s : State) (k hi lo : Nat) : (s.incFld k hi lo).free = s.free := rfl
@[simp] theorem State.incFld_time (s : State) (k hi lo : Nat) : (s.incFld k hi lo).time = s.time := rfl
@[simp] theorem State.incFld_sys (s : State) (k hi lo : Nat) : (s.incFld k hi lo).sys = s.sys := rfl
@[simp] theorem State.incFld_pair (s : State) (k hi lo : Nat) : (s.incFld k hi lo).pair = s.pair := rfl
@[simp] theorem State.incFld_sync (s : State) (k hi lo : Nat) : (s.incFld k hi lo).sync = s.sync := rfl
@[simp] theorem State.incFld_ports (s : State) (k hi lo : Nat) : (s.incFld k hi lo).ports = s.ports := rfl
@[simp] theorem State.incFld_stns (s : State) (k hi lo : Nat) : (s.incFld k hi lo).stns = s.stns := rfl
@[simp] theorem State.incFld_prog (s : State) (k hi lo : Nat) : (s.incFld k hi lo).prog = s.prog := rfl
@[simp] theorem State.incFld_change (s : State) (k hi lo : Nat) : (s.incFld k hi lo).change = s.change := rfl
@[simp] theorem State.incFld_loop (s : State) (k hi lo : Nat) : (s.incFld k hi lo).loop = s.loop := rfl
@[simp] theorem State.incFld_recorder (s : State) (k hi lo : Nat) : (s.incFld k hi lo).recorder = s.recorder := rfl
@[simp] theorem State.incFld_kpr (s : State) (k hi lo : Nat) : (s.incFld k hi lo).kpr = s.kpr := rfl
@[simp] theorem State.incFld_fio (s : State) (k hi lo : Nat) : (s.incFld k hi lo).fio = s.fio := rfl
@[simp] theorem State.incFld_acq (s : State) (k hi lo : Nat) : (s.incFld k hi lo).acq = s.acq := rfl
@[simp] theorem State.incFld_gauge (s : State) (k hi lo : Nat) : (s.incFld k hi lo).gauge = s.gauge := rfl
@[simp] theorem State.incFld_replay (s : State) (k hi lo : Nat) : (s.incFld k hi lo).replay = s.replay := rfl
@[simp] theorem State.incFld_img (s : State) (k hi lo : Nat) : (s.incFld k hi lo).img = s.img := rfl
@[simp] theorem State.incFld_eps (s : State) (k hi lo : Nat) : (s.incFld k hi lo).eps = s.eps := rfl
@[simp] theorem State.incFld_maint (s : State) (k hi lo : Nat) : (s.incFld k hi lo).maint = s.maint := rfl

@[simp] theorem State.maxWord_pending (s : State) (k v : Nat) : (s.maxWord k v).pending = s.pending := by unfold State.maxWord; split <;> rfl
@[simp] theorem State.maxWord_pm (s : State) (k v : Nat) : (s.maxWord k v).pm = s.pm := by unfold State.maxWord; split <;> rfl
@[simp] theorem State.maxWord_dram (s : State) (k v : Nat) : (s.maxWord k v).dram = s.dram := by unfold State.maxWord; split <;> rfl
@[simp] theorem State.maxWord_free (s : State) (k v : Nat) : (s.maxWord k v).free = s.free := by unfold State.maxWord; split <;> rfl
@[simp] theorem State.maxWord_time (s : State) (k v : Nat) : (s.maxWord k v).time = s.time := by unfold State.maxWord; split <;> rfl
@[simp] theorem State.maxWord_sys (s : State) (k v : Nat) : (s.maxWord k v).sys = s.sys := by unfold State.maxWord; split <;> rfl
@[simp] theorem State.maxWord_pair (s : State) (k v : Nat) : (s.maxWord k v).pair = s.pair := by unfold State.maxWord; split <;> rfl
@[simp] theorem State.maxWord_sync (s : State) (k v : Nat) : (s.maxWord k v).sync = s.sync := by unfold State.maxWord; split <;> rfl
@[simp] theorem State.maxWord_ports (s : State) (k v : Nat) : (s.maxWord k v).ports = s.ports := by unfold State.maxWord; split <;> rfl
@[simp] theorem State.maxWord_stns (s : State) (k v : Nat) : (s.maxWord k v).stns = s.stns := by unfold State.maxWord; split <;> rfl
@[simp] theorem State.maxWord_prog (s : State) (k v : Nat) : (s.maxWord k v).prog = s.prog := by unfold State.maxWord; split <;> rfl
@[simp] theorem State.maxWord_change (s : State) (k v : Nat) : (s.maxWord k v).change = s.change := by unfold State.maxWord; split <;> rfl
@[simp] theorem State.maxWord_loop (s : State) (k v : Nat) : (s.maxWord k v).loop = s.loop := by unfold State.maxWord; split <;> rfl
@[simp] theorem State.maxWord_recorder (s : State) (k v : Nat) : (s.maxWord k v).recorder = s.recorder := by unfold State.maxWord; split <;> rfl
@[simp] theorem State.maxWord_kpr (s : State) (k v : Nat) : (s.maxWord k v).kpr = s.kpr := by unfold State.maxWord; split <;> rfl
@[simp] theorem State.maxWord_fio (s : State) (k v : Nat) : (s.maxWord k v).fio = s.fio := by unfold State.maxWord; split <;> rfl
@[simp] theorem State.maxWord_acq (s : State) (k v : Nat) : (s.maxWord k v).acq = s.acq := by unfold State.maxWord; split <;> rfl
@[simp] theorem State.maxWord_gauge (s : State) (k v : Nat) : (s.maxWord k v).gauge = s.gauge := by unfold State.maxWord; split <;> rfl
@[simp] theorem State.maxWord_replay (s : State) (k v : Nat) : (s.maxWord k v).replay = s.replay := by unfold State.maxWord; split <;> rfl
@[simp] theorem State.maxWord_img (s : State) (k v : Nat) : (s.maxWord k v).img = s.img := by unfold State.maxWord; split <;> rfl
@[simp] theorem State.maxWord_eps (s : State) (k v : Nat) : (s.maxWord k v).eps = s.eps := by unfold State.maxWord; split <;> rfl
@[simp] theorem State.maxWord_maint (s : State) (k v : Nat) : (s.maxWord k v).maint = s.maint := by unfold State.maxWord; split <;> rfl

@[simp] theorem State.setWords_pending (s : State) (k : Nat) (l : List U32) : (s.setWords k l).pending = s.pending := by
  induction l generalizing s k with
  | nil => rfl
  | cons v l ih => exact ih _ _
@[simp] theorem State.setWords_pm (s : State) (k : Nat) (l : List U32) : (s.setWords k l).pm = s.pm := by
  induction l generalizing s k with
  | nil => rfl
  | cons v l ih => exact ih _ _
@[simp] theorem State.setWords_dram (s : State) (k : Nat) (l : List U32) : (s.setWords k l).dram = s.dram := by
  induction l generalizing s k with
  | nil => rfl
  | cons v l ih => exact ih _ _
@[simp] theorem State.setWords_free (s : State) (k : Nat) (l : List U32) : (s.setWords k l).free = s.free := by
  induction l generalizing s k with
  | nil => rfl
  | cons v l ih => exact ih _ _
@[simp] theorem State.setWords_time (s : State) (k : Nat) (l : List U32) : (s.setWords k l).time = s.time := by
  induction l generalizing s k with
  | nil => rfl
  | cons v l ih => exact ih _ _
@[simp] theorem State.setWords_sys (s : State) (k : Nat) (l : List U32) : (s.setWords k l).sys = s.sys := by
  induction l generalizing s k with
  | nil => rfl
  | cons v l ih => exact ih _ _
@[simp] theorem State.setWords_pair (s : State) (k : Nat) (l : List U32) : (s.setWords k l).pair = s.pair := by
  induction l generalizing s k with
  | nil => rfl
  | cons v l ih => exact ih _ _
@[simp] theorem State.setWords_sync (s : State) (k : Nat) (l : List U32) : (s.setWords k l).sync = s.sync := by
  induction l generalizing s k with
  | nil => rfl
  | cons v l ih => exact ih _ _
@[simp] theorem State.setWords_ports (s : State) (k : Nat) (l : List U32) : (s.setWords k l).ports = s.ports := by
  induction l generalizing s k with
  | nil => rfl
  | cons v l ih => exact ih _ _
@[simp] theorem State.setWords_stns (s : State) (k : Nat) (l : List U32) : (s.setWords k l).stns = s.stns := by
  induction l generalizing s k with
  | nil => rfl
  | cons v l ih => exact ih _ _
@[simp] theorem State.setWords_prog (s : State) (k : Nat) (l : List U32) : (s.setWords k l).prog = s.prog := by
  induction l generalizing s k with
  | nil => rfl
  | cons v l ih => exact ih _ _
@[simp] theorem State.setWords_change (s : State) (k : Nat) (l : List U32) : (s.setWords k l).change = s.change := by
  induction l generalizing s k with
  | nil => rfl
  | cons v l ih => exact ih _ _
@[simp] theorem State.setWords_loop (s : State) (k : Nat) (l : List U32) : (s.setWords k l).loop = s.loop := by
  induction l generalizing s k with
  | nil => rfl
  | cons v l ih => exact ih _ _
@[simp] theorem State.setWords_recorder (s : State) (k : Nat) (l : List U32) : (s.setWords k l).recorder = s.recorder := by
  induction l generalizing s k with
  | nil => rfl
  | cons v l ih => exact ih _ _
@[simp] theorem State.setWords_kpr (s : State) (k : Nat) (l : List U32) : (s.setWords k l).kpr = s.kpr := by
  induction l generalizing s k with
  | nil => rfl
  | cons v l ih => exact ih _ _
@[simp] theorem State.setWords_fio (s : State) (k : Nat) (l : List U32) : (s.setWords k l).fio = s.fio := by
  induction l generalizing s k with
  | nil => rfl
  | cons v l ih => exact ih _ _
@[simp] theorem State.setWords_acq (s : State) (k : Nat) (l : List U32) : (s.setWords k l).acq = s.acq := by
  induction l generalizing s k with
  | nil => rfl
  | cons v l ih => exact ih _ _
@[simp] theorem State.setWords_gauge (s : State) (k : Nat) (l : List U32) : (s.setWords k l).gauge = s.gauge := by
  induction l generalizing s k with
  | nil => rfl
  | cons v l ih => exact ih _ _
@[simp] theorem State.setWords_replay (s : State) (k : Nat) (l : List U32) : (s.setWords k l).replay = s.replay := by
  induction l generalizing s k with
  | nil => rfl
  | cons v l ih => exact ih _ _
@[simp] theorem State.setWords_img (s : State) (k : Nat) (l : List U32) : (s.setWords k l).img = s.img := by
  induction l generalizing s k with
  | nil => rfl
  | cons v l ih => exact ih _ _
@[simp] theorem State.setWords_eps (s : State) (k : Nat) (l : List U32) : (s.setWords k l).eps = s.eps := by
  induction l generalizing s k with
  | nil => rfl
  | cons v l ih => exact ih _ _
@[simp] theorem State.setWords_maint (s : State) (k : Nat) (l : List U32) : (s.setWords k l).maint = s.maint := by
  induction l generalizing s k with
  | nil => rfl
  | cons v l ih => exact ih _ _

@[simp] theorem State.keepWords_pending (s : State) (f : Nat → Bool) : (s.keepWords f).pending = s.pending := rfl
@[simp] theorem State.keepWords_pm (s : State) (f : Nat → Bool) : (s.keepWords f).pm = s.pm := rfl
@[simp] theorem State.keepWords_dram (s : State) (f : Nat → Bool) : (s.keepWords f).dram = s.dram := rfl
@[simp] theorem State.keepWords_free (s : State) (f : Nat → Bool) : (s.keepWords f).free = s.free := rfl
@[simp] theorem State.keepWords_time (s : State) (f : Nat → Bool) : (s.keepWords f).time = s.time := rfl
@[simp] theorem State.keepWords_sys (s : State) (f : Nat → Bool) : (s.keepWords f).sys = s.sys := rfl
@[simp] theorem State.keepWords_pair (s : State) (f : Nat → Bool) : (s.keepWords f).pair = s.pair := rfl
@[simp] theorem State.keepWords_sync (s : State) (f : Nat → Bool) : (s.keepWords f).sync = s.sync := rfl
@[simp] theorem State.keepWords_ports (s : State) (f : Nat → Bool) : (s.keepWords f).ports = s.ports := rfl
@[simp] theorem State.keepWords_stns (s : State) (f : Nat → Bool) : (s.keepWords f).stns = s.stns := rfl
@[simp] theorem State.keepWords_prog (s : State) (f : Nat → Bool) : (s.keepWords f).prog = s.prog := rfl
@[simp] theorem State.keepWords_change (s : State) (f : Nat → Bool) : (s.keepWords f).change = s.change := rfl
@[simp] theorem State.keepWords_loop (s : State) (f : Nat → Bool) : (s.keepWords f).loop = s.loop := rfl
@[simp] theorem State.keepWords_recorder (s : State) (f : Nat → Bool) : (s.keepWords f).recorder = s.recorder := rfl
@[simp] theorem State.keepWords_kpr (s : State) (f : Nat → Bool) : (s.keepWords f).kpr = s.kpr := rfl
@[simp] theorem State.keepWords_fio (s : State) (f : Nat → Bool) : (s.keepWords f).fio = s.fio := rfl
@[simp] theorem State.keepWords_acq (s : State) (f : Nat → Bool) : (s.keepWords f).acq = s.acq := rfl
@[simp] theorem State.keepWords_gauge (s : State) (f : Nat → Bool) : (s.keepWords f).gauge = s.gauge := rfl
@[simp] theorem State.keepWords_replay (s : State) (f : Nat → Bool) : (s.keepWords f).replay = s.replay := rfl
@[simp] theorem State.keepWords_img (s : State) (f : Nat → Bool) : (s.keepWords f).img = s.img := rfl
@[simp] theorem State.keepWords_eps (s : State) (f : Nat → Bool) : (s.keepWords f).eps = s.eps := rfl
@[simp] theorem State.keepWords_maint (s : State) (f : Nat → Bool) : (s.keepWords f).maint = s.maint := rfl

@[simp] theorem State.setPmByte_pending (s : State) (a : Nat) (v : Byte) : (s.setPmByte a v).pending = s.pending := rfl
@[simp] theorem State.setPmByte_words (s : State) (a : Nat) (v : Byte) : (s.setPmByte a v).words = s.words := rfl
@[simp] theorem State.setPmByte_dram (s : State) (a : Nat) (v : Byte) : (s.setPmByte a v).dram = s.dram := rfl
@[simp] theorem State.setPmByte_free (s : State) (a : Nat) (v : Byte) : (s.setPmByte a v).free = s.free := rfl
@[simp] theorem State.setPmByte_time (s : State) (a : Nat) (v : Byte) : (s.setPmByte a v).time = s.time := rfl
@[simp] theorem State.setPmByte_sys (s : State) (a : Nat) (v : Byte) : (s.setPmByte a v).sys = s.sys := rfl
@[simp] theorem State.setPmByte_pair (s : State) (a : Nat) (v : Byte) : (s.setPmByte a v).pair = s.pair := rfl
@[simp] theorem State.setPmByte_sync (s : State) (a : Nat) (v : Byte) : (s.setPmByte a v).sync = s.sync := rfl
@[simp] theorem State.setPmByte_ports (s : State) (a : Nat) (v : Byte) : (s.setPmByte a v).ports = s.ports := rfl
@[simp] theorem State.setPmByte_stns (s : State) (a : Nat) (v : Byte) : (s.setPmByte a v).stns = s.stns := rfl
@[simp] theorem State.setPmByte_prog (s : State) (a : Nat) (v : Byte) : (s.setPmByte a v).prog = s.prog := rfl
@[simp] theorem State.setPmByte_change (s : State) (a : Nat) (v : Byte) : (s.setPmByte a v).change = s.change := rfl
@[simp] theorem State.setPmByte_loop (s : State) (a : Nat) (v : Byte) : (s.setPmByte a v).loop = s.loop := rfl
@[simp] theorem State.setPmByte_recorder (s : State) (a : Nat) (v : Byte) : (s.setPmByte a v).recorder = s.recorder := rfl
@[simp] theorem State.setPmByte_kpr (s : State) (a : Nat) (v : Byte) : (s.setPmByte a v).kpr = s.kpr := rfl
@[simp] theorem State.setPmByte_fio (s : State) (a : Nat) (v : Byte) : (s.setPmByte a v).fio = s.fio := rfl
@[simp] theorem State.setPmByte_acq (s : State) (a : Nat) (v : Byte) : (s.setPmByte a v).acq = s.acq := rfl
@[simp] theorem State.setPmByte_gauge (s : State) (a : Nat) (v : Byte) : (s.setPmByte a v).gauge = s.gauge := rfl
@[simp] theorem State.setPmByte_replay (s : State) (a : Nat) (v : Byte) : (s.setPmByte a v).replay = s.replay := rfl
@[simp] theorem State.setPmByte_img (s : State) (a : Nat) (v : Byte) : (s.setPmByte a v).img = s.img := rfl
@[simp] theorem State.setPmByte_eps (s : State) (a : Nat) (v : Byte) : (s.setPmByte a v).eps = s.eps := rfl
@[simp] theorem State.setPmByte_maint (s : State) (a : Nat) (v : Byte) : (s.setPmByte a v).maint = s.maint := rfl

@[simp] theorem State.setPm_pending (s : State) (a : Nat) (l : List Byte) : (s.setPm a l).pending = s.pending := rfl
@[simp] theorem State.setPm_words (s : State) (a : Nat) (l : List Byte) : (s.setPm a l).words = s.words := rfl
@[simp] theorem State.setPm_dram (s : State) (a : Nat) (l : List Byte) : (s.setPm a l).dram = s.dram := rfl
@[simp] theorem State.setPm_free (s : State) (a : Nat) (l : List Byte) : (s.setPm a l).free = s.free := rfl
@[simp] theorem State.setPm_time (s : State) (a : Nat) (l : List Byte) : (s.setPm a l).time = s.time := rfl
@[simp] theorem State.setPm_sys (s : State) (a : Nat) (l : List Byte) : (s.setPm a l).sys = s.sys := rfl
@[simp] theorem State.setPm_pair (s : State) (a : Nat) (l : List Byte) : (s.setPm a l).pair = s.pair := rfl
@[simp] theorem State.setPm_sync (s : State) (a : Nat) (l : List Byte) : (s.setPm a l).sync = s.sync := rfl
@[simp] theorem State.setPm_ports (s : State) (a : Nat) (l : List Byte) : (s.setPm a l).ports = s.ports := rfl
@[simp] theorem State.setPm_stns (s : State) (a : Nat) (l : List Byte) : (s.setPm a l).stns = s.stns := rfl
@[simp] theorem State.setPm_prog (s : State) (a : Nat) (l : List Byte) : (s.setPm a l).prog = s.prog := rfl
@[simp] theorem State.setPm_change (s : State) (a : Nat) (l : List Byte) : (s.setPm a l).change = s.change := rfl
@[simp] theorem State.setPm_loop (s : State) (a : Nat) (l : List Byte) : (s.setPm a l).loop = s.loop := rfl
@[simp] theorem State.setPm_recorder (s : State) (a : Nat) (l : List Byte) : (s.setPm a l).recorder = s.recorder := rfl
@[simp] theorem State.setPm_kpr (s : State) (a : Nat) (l : List Byte) : (s.setPm a l).kpr = s.kpr := rfl
@[simp] theorem State.setPm_fio (s : State) (a : Nat) (l : List Byte) : (s.setPm a l).fio = s.fio := rfl
@[simp] theorem State.setPm_acq (s : State) (a : Nat) (l : List Byte) : (s.setPm a l).acq = s.acq := rfl
@[simp] theorem State.setPm_gauge (s : State) (a : Nat) (l : List Byte) : (s.setPm a l).gauge = s.gauge := rfl
@[simp] theorem State.setPm_replay (s : State) (a : Nat) (l : List Byte) : (s.setPm a l).replay = s.replay := rfl
@[simp] theorem State.setPm_img (s : State) (a : Nat) (l : List Byte) : (s.setPm a l).img = s.img := rfl
@[simp] theorem State.setPm_eps (s : State) (a : Nat) (l : List Byte) : (s.setPm a l).eps = s.eps := rfl
@[simp] theorem State.setPm_maint (s : State) (a : Nat) (l : List Byte) : (s.setPm a l).maint = s.maint := rfl

@[simp] theorem State.pmPut_pending (s : State) (a n v : Nat) : (s.pmPut a n v).pending = s.pending := rfl
@[simp] theorem State.pmPut_words (s : State) (a n v : Nat) : (s.pmPut a n v).words = s.words := rfl
@[simp] theorem State.pmPut_dram (s : State) (a n v : Nat) : (s.pmPut a n v).dram = s.dram := rfl
@[simp] theorem State.pmPut_free (s : State) (a n v : Nat) : (s.pmPut a n v).free = s.free := rfl
@[simp] theorem State.pmPut_time (s : State) (a n v : Nat) : (s.pmPut a n v).time = s.time := rfl
@[simp] theorem State.pmPut_sys (s : State) (a n v : Nat) : (s.pmPut a n v).sys = s.sys := rfl
@[simp] theorem State.pmPut_pair (s : State) (a n v : Nat) : (s.pmPut a n v).pair = s.pair := rfl
@[simp] theorem State.pmPut_sync (s : State) (a n v : Nat) : (s.pmPut a n v).sync = s.sync := rfl
@[simp] theorem State.pmPut_ports (s : State) (a n v : Nat) : (s.pmPut a n v).ports = s.ports := rfl
@[simp] theorem State.pmPut_stns (s : State) (a n v : Nat) : (s.pmPut a n v).stns = s.stns := rfl
@[simp] theorem State.pmPut_prog (s : State) (a n v : Nat) : (s.pmPut a n v).prog = s.prog := rfl
@[simp] theorem State.pmPut_change (s : State) (a n v : Nat) : (s.pmPut a n v).change = s.change := rfl
@[simp] theorem State.pmPut_loop (s : State) (a n v : Nat) : (s.pmPut a n v).loop = s.loop := rfl
@[simp] theorem State.pmPut_recorder (s : State) (a n v : Nat) : (s.pmPut a n v).recorder = s.recorder := rfl
@[simp] theorem State.pmPut_kpr (s : State) (a n v : Nat) : (s.pmPut a n v).kpr = s.kpr := rfl
@[simp] theorem State.pmPut_fio (s : State) (a n v : Nat) : (s.pmPut a n v).fio = s.fio := rfl
@[simp] theorem State.pmPut_acq (s : State) (a n v : Nat) : (s.pmPut a n v).acq = s.acq := rfl
@[simp] theorem State.pmPut_gauge (s : State) (a n v : Nat) : (s.pmPut a n v).gauge = s.gauge := rfl
@[simp] theorem State.pmPut_replay (s : State) (a n v : Nat) : (s.pmPut a n v).replay = s.replay := rfl
@[simp] theorem State.pmPut_img (s : State) (a n v : Nat) : (s.pmPut a n v).img = s.img := rfl
@[simp] theorem State.pmPut_eps (s : State) (a n v : Nat) : (s.pmPut a n v).eps = s.eps := rfl
@[simp] theorem State.pmPut_maint (s : State) (a n v : Nat) : (s.pmPut a n v).maint = s.maint := rfl

@[simp] theorem State.setDramByte_pending (s : State) (a : Nat) (v : Byte) : (s.setDramByte a v).pending = s.pending := rfl
@[simp] theorem State.setDramByte_words (s : State) (a : Nat) (v : Byte) : (s.setDramByte a v).words = s.words := rfl
@[simp] theorem State.setDramByte_pm (s : State) (a : Nat) (v : Byte) : (s.setDramByte a v).pm = s.pm := rfl
@[simp] theorem State.setDramByte_free (s : State) (a : Nat) (v : Byte) : (s.setDramByte a v).free = s.free := rfl
@[simp] theorem State.setDramByte_time (s : State) (a : Nat) (v : Byte) : (s.setDramByte a v).time = s.time := rfl
@[simp] theorem State.setDramByte_sys (s : State) (a : Nat) (v : Byte) : (s.setDramByte a v).sys = s.sys := rfl
@[simp] theorem State.setDramByte_pair (s : State) (a : Nat) (v : Byte) : (s.setDramByte a v).pair = s.pair := rfl
@[simp] theorem State.setDramByte_sync (s : State) (a : Nat) (v : Byte) : (s.setDramByte a v).sync = s.sync := rfl
@[simp] theorem State.setDramByte_ports (s : State) (a : Nat) (v : Byte) : (s.setDramByte a v).ports = s.ports := rfl
@[simp] theorem State.setDramByte_stns (s : State) (a : Nat) (v : Byte) : (s.setDramByte a v).stns = s.stns := rfl
@[simp] theorem State.setDramByte_prog (s : State) (a : Nat) (v : Byte) : (s.setDramByte a v).prog = s.prog := rfl
@[simp] theorem State.setDramByte_change (s : State) (a : Nat) (v : Byte) : (s.setDramByte a v).change = s.change := rfl
@[simp] theorem State.setDramByte_loop (s : State) (a : Nat) (v : Byte) : (s.setDramByte a v).loop = s.loop := rfl
@[simp] theorem State.setDramByte_recorder (s : State) (a : Nat) (v : Byte) : (s.setDramByte a v).recorder = s.recorder := rfl
@[simp] theorem State.setDramByte_kpr (s : State) (a : Nat) (v : Byte) : (s.setDramByte a v).kpr = s.kpr := rfl
@[simp] theorem State.setDramByte_fio (s : State) (a : Nat) (v : Byte) : (s.setDramByte a v).fio = s.fio := rfl
@[simp] theorem State.setDramByte_acq (s : State) (a : Nat) (v : Byte) : (s.setDramByte a v).acq = s.acq := rfl
@[simp] theorem State.setDramByte_gauge (s : State) (a : Nat) (v : Byte) : (s.setDramByte a v).gauge = s.gauge := rfl
@[simp] theorem State.setDramByte_replay (s : State) (a : Nat) (v : Byte) : (s.setDramByte a v).replay = s.replay := rfl
@[simp] theorem State.setDramByte_img (s : State) (a : Nat) (v : Byte) : (s.setDramByte a v).img = s.img := rfl
@[simp] theorem State.setDramByte_eps (s : State) (a : Nat) (v : Byte) : (s.setDramByte a v).eps = s.eps := rfl
@[simp] theorem State.setDramByte_maint (s : State) (a : Nat) (v : Byte) : (s.setDramByte a v).maint = s.maint := rfl

@[simp] theorem State.setDram_pending (s : State) (a : Nat) (l : List Byte) : (s.setDram a l).pending = s.pending := rfl
@[simp] theorem State.setDram_words (s : State) (a : Nat) (l : List Byte) : (s.setDram a l).words = s.words := rfl
@[simp] theorem State.setDram_pm (s : State) (a : Nat) (l : List Byte) : (s.setDram a l).pm = s.pm := rfl
@[simp] theorem State.setDram_free (s : State) (a : Nat) (l : List Byte) : (s.setDram a l).free = s.free := rfl
@[simp] theorem State.setDram_time (s : State) (a : Nat) (l : List Byte) : (s.setDram a l).time = s.time := rfl
@[simp] theorem State.setDram_sys (s : State) (a : Nat) (l : List Byte) : (s.setDram a l).sys = s.sys := rfl
@[simp] theorem State.setDram_pair (s : State) (a : Nat) (l : List Byte) : (s.setDram a l).pair = s.pair := rfl
@[simp] theorem State.setDram_sync (s : State) (a : Nat) (l : List Byte) : (s.setDram a l).sync = s.sync := rfl
@[simp] theorem State.setDram_ports (s : State) (a : Nat) (l : List Byte) : (s.setDram a l).ports = s.ports := rfl
@[simp] theorem State.setDram_stns (s : State) (a : Nat) (l : List Byte) : (s.setDram a l).stns = s.stns := rfl
@[simp] theorem State.setDram_prog (s : State) (a : Nat) (l : List Byte) : (s.setDram a l).prog = s.prog := rfl
@[simp] theorem State.setDram_change (s : State) (a : Nat) (l : List Byte) : (s.setDram a l).change = s.change := rfl
@[simp] theorem State.setDram_loop (s : State) (a : Nat) (l : List Byte) : (s.setDram a l).loop = s.loop := rfl
@[simp] theorem State.setDram_recorder (s : State) (a : Nat) (l : List Byte) : (s.setDram a l).recorder = s.recorder := rfl
@[simp] theorem State.setDram_kpr (s : State) (a : Nat) (l : List Byte) : (s.setDram a l).kpr = s.kpr := rfl
@[simp] theorem State.setDram_fio (s : State) (a : Nat) (l : List Byte) : (s.setDram a l).fio = s.fio := rfl
@[simp] theorem State.setDram_acq (s : State) (a : Nat) (l : List Byte) : (s.setDram a l).acq = s.acq := rfl
@[simp] theorem State.setDram_gauge (s : State) (a : Nat) (l : List Byte) : (s.setDram a l).gauge = s.gauge := rfl
@[simp] theorem State.setDram_replay (s : State) (a : Nat) (l : List Byte) : (s.setDram a l).replay = s.replay := rfl
@[simp] theorem State.setDram_img (s : State) (a : Nat) (l : List Byte) : (s.setDram a l).img = s.img := rfl
@[simp] theorem State.setDram_eps (s : State) (a : Nat) (l : List Byte) : (s.setDram a l).eps = s.eps := rfl
@[simp] theorem State.setDram_maint (s : State) (a : Nat) (l : List Byte) : (s.setDram a l).maint = s.maint := rfl

@[simp] theorem State.modPort_pending (s : State) (p : Nat) (f : PortS → PortS) : (s.modPort p f).pending = s.pending := rfl
@[simp] theorem State.modPort_words (s : State) (p : Nat) (f : PortS → PortS) : (s.modPort p f).words = s.words := rfl
@[simp] theorem State.modPort_pm (s : State) (p : Nat) (f : PortS → PortS) : (s.modPort p f).pm = s.pm := rfl
@[simp] theorem State.modPort_dram (s : State) (p : Nat) (f : PortS → PortS) : (s.modPort p f).dram = s.dram := rfl
@[simp] theorem State.modPort_free (s : State) (p : Nat) (f : PortS → PortS) : (s.modPort p f).free = s.free := rfl
@[simp] theorem State.modPort_time (s : State) (p : Nat) (f : PortS → PortS) : (s.modPort p f).time = s.time := rfl
@[simp] theorem State.modPort_sys (s : State) (p : Nat) (f : PortS → PortS) : (s.modPort p f).sys = s.sys := rfl
@[simp] theorem State.modPort_pair (s : State) (p : Nat) (f : PortS → PortS) : (s.modPort p f).pair = s.pair := rfl
@[simp] theorem State.modPort_sync (s : State) (p : Nat) (f : PortS → PortS) : (s.modPort p f).sync = s.sync := rfl
@[simp] theorem State.modPort_stns (s : State) (p : Nat) (f : PortS → PortS) : (s.modPort p f).stns = s.stns := rfl
@[simp] theorem State.modPort_prog (s : State) (p : Nat) (f : PortS → PortS) : (s.modPort p f).prog = s.prog := rfl
@[simp] theorem State.modPort_change (s : State) (p : Nat) (f : PortS → PortS) : (s.modPort p f).change = s.change := rfl
@[simp] theorem State.modPort_loop (s : State) (p : Nat) (f : PortS → PortS) : (s.modPort p f).loop = s.loop := rfl
@[simp] theorem State.modPort_recorder (s : State) (p : Nat) (f : PortS → PortS) : (s.modPort p f).recorder = s.recorder := rfl
@[simp] theorem State.modPort_kpr (s : State) (p : Nat) (f : PortS → PortS) : (s.modPort p f).kpr = s.kpr := rfl
@[simp] theorem State.modPort_fio (s : State) (p : Nat) (f : PortS → PortS) : (s.modPort p f).fio = s.fio := rfl
@[simp] theorem State.modPort_acq (s : State) (p : Nat) (f : PortS → PortS) : (s.modPort p f).acq = s.acq := rfl
@[simp] theorem State.modPort_gauge (s : State) (p : Nat) (f : PortS → PortS) : (s.modPort p f).gauge = s.gauge := rfl
@[simp] theorem State.modPort_replay (s : State) (p : Nat) (f : PortS → PortS) : (s.modPort p f).replay = s.replay := rfl
@[simp] theorem State.modPort_img (s : State) (p : Nat) (f : PortS → PortS) : (s.modPort p f).img = s.img := rfl
@[simp] theorem State.modPort_eps (s : State) (p : Nat) (f : PortS → PortS) : (s.modPort p f).eps = s.eps := rfl
@[simp] theorem State.modPort_maint (s : State) (p : Nat) (f : PortS → PortS) : (s.modPort p f).maint = s.maint := rfl

@[simp] theorem State.setStn_pending (s : State) (k : Nat) (v : StnS) : (s.setStn k v).pending = s.pending := rfl
@[simp] theorem State.setStn_words (s : State) (k : Nat) (v : StnS) : (s.setStn k v).words = s.words := rfl
@[simp] theorem State.setStn_pm (s : State) (k : Nat) (v : StnS) : (s.setStn k v).pm = s.pm := rfl
@[simp] theorem State.setStn_dram (s : State) (k : Nat) (v : StnS) : (s.setStn k v).dram = s.dram := rfl
@[simp] theorem State.setStn_free (s : State) (k : Nat) (v : StnS) : (s.setStn k v).free = s.free := rfl
@[simp] theorem State.setStn_time (s : State) (k : Nat) (v : StnS) : (s.setStn k v).time = s.time := rfl
@[simp] theorem State.setStn_sys (s : State) (k : Nat) (v : StnS) : (s.setStn k v).sys = s.sys := rfl
@[simp] theorem State.setStn_pair (s : State) (k : Nat) (v : StnS) : (s.setStn k v).pair = s.pair := rfl
@[simp] theorem State.setStn_sync (s : State) (k : Nat) (v : StnS) : (s.setStn k v).sync = s.sync := rfl
@[simp] theorem State.setStn_ports (s : State) (k : Nat) (v : StnS) : (s.setStn k v).ports = s.ports := rfl
@[simp] theorem State.setStn_prog (s : State) (k : Nat) (v : StnS) : (s.setStn k v).prog = s.prog := rfl
@[simp] theorem State.setStn_change (s : State) (k : Nat) (v : StnS) : (s.setStn k v).change = s.change := rfl
@[simp] theorem State.setStn_loop (s : State) (k : Nat) (v : StnS) : (s.setStn k v).loop = s.loop := rfl
@[simp] theorem State.setStn_recorder (s : State) (k : Nat) (v : StnS) : (s.setStn k v).recorder = s.recorder := rfl
@[simp] theorem State.setStn_kpr (s : State) (k : Nat) (v : StnS) : (s.setStn k v).kpr = s.kpr := rfl
@[simp] theorem State.setStn_fio (s : State) (k : Nat) (v : StnS) : (s.setStn k v).fio = s.fio := rfl
@[simp] theorem State.setStn_acq (s : State) (k : Nat) (v : StnS) : (s.setStn k v).acq = s.acq := rfl
@[simp] theorem State.setStn_gauge (s : State) (k : Nat) (v : StnS) : (s.setStn k v).gauge = s.gauge := rfl
@[simp] theorem State.setStn_replay (s : State) (k : Nat) (v : StnS) : (s.setStn k v).replay = s.replay := rfl
@[simp] theorem State.setStn_img (s : State) (k : Nat) (v : StnS) : (s.setStn k v).img = s.img := rfl
@[simp] theorem State.setStn_eps (s : State) (k : Nat) (v : StnS) : (s.setStn k v).eps = s.eps := rfl
@[simp] theorem State.setStn_maint (s : State) (k : Nat) (v : StnS) : (s.setStn k v).maint = s.maint := rfl

@[simp] theorem State.modStn_pending (s : State) (k : Nat) (f : StnS → StnS) : (s.modStn k f).pending = s.pending := rfl
@[simp] theorem State.modStn_words (s : State) (k : Nat) (f : StnS → StnS) : (s.modStn k f).words = s.words := rfl
@[simp] theorem State.modStn_pm (s : State) (k : Nat) (f : StnS → StnS) : (s.modStn k f).pm = s.pm := rfl
@[simp] theorem State.modStn_dram (s : State) (k : Nat) (f : StnS → StnS) : (s.modStn k f).dram = s.dram := rfl
@[simp] theorem State.modStn_free (s : State) (k : Nat) (f : StnS → StnS) : (s.modStn k f).free = s.free := rfl
@[simp] theorem State.modStn_time (s : State) (k : Nat) (f : StnS → StnS) : (s.modStn k f).time = s.time := rfl
@[simp] theorem State.modStn_sys (s : State) (k : Nat) (f : StnS → StnS) : (s.modStn k f).sys = s.sys := rfl
@[simp] theorem State.modStn_pair (s : State) (k : Nat) (f : StnS → StnS) : (s.modStn k f).pair = s.pair := rfl
@[simp] theorem State.modStn_sync (s : State) (k : Nat) (f : StnS → StnS) : (s.modStn k f).sync = s.sync := rfl
@[simp] theorem State.modStn_ports (s : State) (k : Nat) (f : StnS → StnS) : (s.modStn k f).ports = s.ports := rfl
@[simp] theorem State.modStn_prog (s : State) (k : Nat) (f : StnS → StnS) : (s.modStn k f).prog = s.prog := rfl
@[simp] theorem State.modStn_change (s : State) (k : Nat) (f : StnS → StnS) : (s.modStn k f).change = s.change := rfl
@[simp] theorem State.modStn_loop (s : State) (k : Nat) (f : StnS → StnS) : (s.modStn k f).loop = s.loop := rfl
@[simp] theorem State.modStn_recorder (s : State) (k : Nat) (f : StnS → StnS) : (s.modStn k f).recorder = s.recorder := rfl
@[simp] theorem State.modStn_kpr (s : State) (k : Nat) (f : StnS → StnS) : (s.modStn k f).kpr = s.kpr := rfl
@[simp] theorem State.modStn_fio (s : State) (k : Nat) (f : StnS → StnS) : (s.modStn k f).fio = s.fio := rfl
@[simp] theorem State.modStn_acq (s : State) (k : Nat) (f : StnS → StnS) : (s.modStn k f).acq = s.acq := rfl
@[simp] theorem State.modStn_gauge (s : State) (k : Nat) (f : StnS → StnS) : (s.modStn k f).gauge = s.gauge := rfl
@[simp] theorem State.modStn_replay (s : State) (k : Nat) (f : StnS → StnS) : (s.modStn k f).replay = s.replay := rfl
@[simp] theorem State.modStn_img (s : State) (k : Nat) (f : StnS → StnS) : (s.modStn k f).img = s.img := rfl
@[simp] theorem State.modStn_eps (s : State) (k : Nat) (f : StnS → StnS) : (s.modStn k f).eps = s.eps := rfl
@[simp] theorem State.modStn_maint (s : State) (k : Nat) (f : StnS → StnS) : (s.modStn k f).maint = s.maint := rfl

@[simp] theorem State.ev_pending (s : State) (c : Nat) (n : String) (l : List Nat) : (s.ev c n l).pending = s.pending := rfl
@[simp] theorem State.ev_words (s : State) (c : Nat) (n : String) (l : List Nat) : (s.ev c n l).words = s.words := rfl
@[simp] theorem State.ev_pm (s : State) (c : Nat) (n : String) (l : List Nat) : (s.ev c n l).pm = s.pm := rfl
@[simp] theorem State.ev_dram (s : State) (c : Nat) (n : String) (l : List Nat) : (s.ev c n l).dram = s.dram := rfl
@[simp] theorem State.ev_free (s : State) (c : Nat) (n : String) (l : List Nat) : (s.ev c n l).free = s.free := rfl
@[simp] theorem State.ev_time (s : State) (c : Nat) (n : String) (l : List Nat) : (s.ev c n l).time = s.time := rfl
@[simp] theorem State.ev_sys (s : State) (c : Nat) (n : String) (l : List Nat) : (s.ev c n l).sys = s.sys := rfl
@[simp] theorem State.ev_pair (s : State) (c : Nat) (n : String) (l : List Nat) : (s.ev c n l).pair = s.pair := rfl
@[simp] theorem State.ev_sync (s : State) (c : Nat) (n : String) (l : List Nat) : (s.ev c n l).sync = s.sync := rfl
@[simp] theorem State.ev_ports (s : State) (c : Nat) (n : String) (l : List Nat) : (s.ev c n l).ports = s.ports := rfl
@[simp] theorem State.ev_stns (s : State) (c : Nat) (n : String) (l : List Nat) : (s.ev c n l).stns = s.stns := rfl
@[simp] theorem State.ev_prog (s : State) (c : Nat) (n : String) (l : List Nat) : (s.ev c n l).prog = s.prog := rfl
@[simp] theorem State.ev_change (s : State) (c : Nat) (n : String) (l : List Nat) : (s.ev c n l).change = s.change := rfl
@[simp] theorem State.ev_loop (s : State) (c : Nat) (n : String) (l : List Nat) : (s.ev c n l).loop = s.loop := rfl
@[simp] theorem State.ev_kpr (s : State) (c : Nat) (n : String) (l : List Nat) : (s.ev c n l).kpr = s.kpr := rfl
@[simp] theorem State.ev_fio (s : State) (c : Nat) (n : String) (l : List Nat) : (s.ev c n l).fio = s.fio := rfl
@[simp] theorem State.ev_acq (s : State) (c : Nat) (n : String) (l : List Nat) : (s.ev c n l).acq = s.acq := rfl
@[simp] theorem State.ev_gauge (s : State) (c : Nat) (n : String) (l : List Nat) : (s.ev c n l).gauge = s.gauge := rfl
@[simp] theorem State.ev_replay (s : State) (c : Nat) (n : String) (l : List Nat) : (s.ev c n l).replay = s.replay := rfl
@[simp] theorem State.ev_img (s : State) (c : Nat) (n : String) (l : List Nat) : (s.ev c n l).img = s.img := rfl
@[simp] theorem State.ev_eps (s : State) (c : Nat) (n : String) (l : List Nat) : (s.ev c n l).eps = s.eps := rfl
@[simp] theorem State.ev_maint (s : State) (c : Nat) (n : String) (l : List Nat) : (s.ev c n l).maint = s.maint := rfl

@[simp] theorem State.evFixed_pending (s : State) (c n : Nat) (l : List Nat) : (s.evFixed c n l).pending = s.pending := rfl
@[simp] theorem State.evFixed_words (s : State) (c n : Nat) (l : List Nat) : (s.evFixed c n l).words = s.words := rfl
@[simp] theorem State.evFixed_pm (s : State) (c n : Nat) (l : List Nat) : (s.evFixed c n l).pm = s.pm := rfl
@[simp] theorem State.evFixed_dram (s : State) (c n : Nat) (l : List Nat) : (s.evFixed c n l).dram = s.dram := rfl
@[simp] theorem State.evFixed_free (s : State) (c n : Nat) (l : List Nat) : (s.evFixed c n l).free = s.free := rfl
@[simp] theorem State.evFixed_time (s : State) (c n : Nat) (l : List Nat) : (s.evFixed c n l).time = s.time := rfl
@[simp] theorem State.evFixed_sys (s : State) (c n : Nat) (l : List Nat) : (s.evFixed c n l).sys = s.sys := rfl
@[simp] theorem State.evFixed_pair (s : State) (c n : Nat) (l : List Nat) : (s.evFixed c n l).pair = s.pair := rfl
@[simp] theorem State.evFixed_sync (s : State) (c n : Nat) (l : List Nat) : (s.evFixed c n l).sync = s.sync := rfl
@[simp] theorem State.evFixed_ports (s : State) (c n : Nat) (l : List Nat) : (s.evFixed c n l).ports = s.ports := rfl
@[simp] theorem State.evFixed_stns (s : State) (c n : Nat) (l : List Nat) : (s.evFixed c n l).stns = s.stns := rfl
@[simp] theorem State.evFixed_prog (s : State) (c n : Nat) (l : List Nat) : (s.evFixed c n l).prog = s.prog := rfl
@[simp] theorem State.evFixed_change (s : State) (c n : Nat) (l : List Nat) : (s.evFixed c n l).change = s.change := rfl
@[simp] theorem State.evFixed_loop (s : State) (c n : Nat) (l : List Nat) : (s.evFixed c n l).loop = s.loop := rfl
@[simp] theorem State.evFixed_kpr (s : State) (c n : Nat) (l : List Nat) : (s.evFixed c n l).kpr = s.kpr := rfl
@[simp] theorem State.evFixed_fio (s : State) (c n : Nat) (l : List Nat) : (s.evFixed c n l).fio = s.fio := rfl
@[simp] theorem State.evFixed_acq (s : State) (c n : Nat) (l : List Nat) : (s.evFixed c n l).acq = s.acq := rfl
@[simp] theorem State.evFixed_gauge (s : State) (c n : Nat) (l : List Nat) : (s.evFixed c n l).gauge = s.gauge := rfl
@[simp] theorem State.evFixed_replay (s : State) (c n : Nat) (l : List Nat) : (s.evFixed c n l).replay = s.replay := rfl
@[simp] theorem State.evFixed_img (s : State) (c n : Nat) (l : List Nat) : (s.evFixed c n l).img = s.img := rfl
@[simp] theorem State.evFixed_eps (s : State) (c n : Nat) (l : List Nat) : (s.evFixed c n l).eps = s.eps := rfl
@[simp] theorem State.evFixed_maint (s : State) (c n : Nat) (l : List Nat) : (s.evFixed c n l).maint = s.maint := rfl

@[simp] theorem State.control_pending (s : State) (c a : Nat) (w : U32) (k : Nat) : (s.control c a w k).pending = s.pending := rfl
@[simp] theorem State.control_words (s : State) (c a : Nat) (w : U32) (k : Nat) : (s.control c a w k).words = s.words := rfl
@[simp] theorem State.control_pm (s : State) (c a : Nat) (w : U32) (k : Nat) : (s.control c a w k).pm = s.pm := rfl
@[simp] theorem State.control_dram (s : State) (c a : Nat) (w : U32) (k : Nat) : (s.control c a w k).dram = s.dram := rfl
@[simp] theorem State.control_free (s : State) (c a : Nat) (w : U32) (k : Nat) : (s.control c a w k).free = s.free := rfl
@[simp] theorem State.control_time (s : State) (c a : Nat) (w : U32) (k : Nat) : (s.control c a w k).time = s.time := rfl
@[simp] theorem State.control_sys (s : State) (c a : Nat) (w : U32) (k : Nat) : (s.control c a w k).sys = s.sys := rfl
@[simp] theorem State.control_pair (s : State) (c a : Nat) (w : U32) (k : Nat) : (s.control c a w k).pair = s.pair := rfl
@[simp] theorem State.control_ports (s : State) (c a : Nat) (w : U32) (k : Nat) : (s.control c a w k).ports = s.ports := rfl
@[simp] theorem State.control_stns (s : State) (c a : Nat) (w : U32) (k : Nat) : (s.control c a w k).stns = s.stns := rfl
@[simp] theorem State.control_prog (s : State) (c a : Nat) (w : U32) (k : Nat) : (s.control c a w k).prog = s.prog := rfl
@[simp] theorem State.control_change (s : State) (c a : Nat) (w : U32) (k : Nat) : (s.control c a w k).change = s.change := rfl
@[simp] theorem State.control_loop (s : State) (c a : Nat) (w : U32) (k : Nat) : (s.control c a w k).loop = s.loop := rfl
@[simp] theorem State.control_recorder (s : State) (c a : Nat) (w : U32) (k : Nat) : (s.control c a w k).recorder = s.recorder := rfl
@[simp] theorem State.control_kpr (s : State) (c a : Nat) (w : U32) (k : Nat) : (s.control c a w k).kpr = s.kpr := rfl
@[simp] theorem State.control_fio (s : State) (c a : Nat) (w : U32) (k : Nat) : (s.control c a w k).fio = s.fio := rfl
@[simp] theorem State.control_acq (s : State) (c a : Nat) (w : U32) (k : Nat) : (s.control c a w k).acq = s.acq := rfl
@[simp] theorem State.control_gauge (s : State) (c a : Nat) (w : U32) (k : Nat) : (s.control c a w k).gauge = s.gauge := rfl
@[simp] theorem State.control_replay (s : State) (c a : Nat) (w : U32) (k : Nat) : (s.control c a w k).replay = s.replay := rfl
@[simp] theorem State.control_img (s : State) (c a : Nat) (w : U32) (k : Nat) : (s.control c a w k).img = s.img := rfl
@[simp] theorem State.control_eps (s : State) (c a : Nat) (w : U32) (k : Nat) : (s.control c a w k).eps = s.eps := rfl
@[simp] theorem State.control_maint (s : State) (c a : Nat) (w : U32) (k : Nat) : (s.control c a w k).maint = s.maint := rfl

@[simp] theorem State.tally_pending (s : State) (m st : Nat) : (s.tally m st).pending = s.pending := by unfold State.tally State.when; split <;> rfl
@[simp] theorem State.tally_pm (s : State) (m st : Nat) : (s.tally m st).pm = s.pm := by unfold State.tally State.when; split <;> rfl
@[simp] theorem State.tally_dram (s : State) (m st : Nat) : (s.tally m st).dram = s.dram := by unfold State.tally State.when; split <;> rfl
@[simp] theorem State.tally_free (s : State) (m st : Nat) : (s.tally m st).free = s.free := by unfold State.tally State.when; split <;> rfl
@[simp] theorem State.tally_time (s : State) (m st : Nat) : (s.tally m st).time = s.time := by unfold State.tally State.when; split <;> rfl
@[simp] theorem State.tally_sys (s : State) (m st : Nat) : (s.tally m st).sys = s.sys := by unfold State.tally State.when; split <;> rfl
@[simp] theorem State.tally_pair (s : State) (m st : Nat) : (s.tally m st).pair = s.pair := by unfold State.tally State.when; split <;> rfl
@[simp] theorem State.tally_sync (s : State) (m st : Nat) : (s.tally m st).sync = s.sync := by unfold State.tally State.when; split <;> rfl
@[simp] theorem State.tally_ports (s : State) (m st : Nat) : (s.tally m st).ports = s.ports := by unfold State.tally State.when; split <;> rfl
@[simp] theorem State.tally_stns (s : State) (m st : Nat) : (s.tally m st).stns = s.stns := by unfold State.tally State.when; split <;> rfl
@[simp] theorem State.tally_prog (s : State) (m st : Nat) : (s.tally m st).prog = s.prog := by unfold State.tally State.when; split <;> rfl
@[simp] theorem State.tally_change (s : State) (m st : Nat) : (s.tally m st).change = s.change := by unfold State.tally State.when; split <;> rfl
@[simp] theorem State.tally_loop (s : State) (m st : Nat) : (s.tally m st).loop = s.loop := by unfold State.tally State.when; split <;> rfl
@[simp] theorem State.tally_recorder (s : State) (m st : Nat) : (s.tally m st).recorder = s.recorder := by unfold State.tally State.when; split <;> rfl
@[simp] theorem State.tally_kpr (s : State) (m st : Nat) : (s.tally m st).kpr = s.kpr := by unfold State.tally State.when; split <;> rfl
@[simp] theorem State.tally_fio (s : State) (m st : Nat) : (s.tally m st).fio = s.fio := by unfold State.tally State.when; split <;> rfl
@[simp] theorem State.tally_acq (s : State) (m st : Nat) : (s.tally m st).acq = s.acq := by unfold State.tally State.when; split <;> rfl
@[simp] theorem State.tally_gauge (s : State) (m st : Nat) : (s.tally m st).gauge = s.gauge := by unfold State.tally State.when; split <;> rfl
@[simp] theorem State.tally_replay (s : State) (m st : Nat) : (s.tally m st).replay = s.replay := by unfold State.tally State.when; split <;> rfl
@[simp] theorem State.tally_img (s : State) (m st : Nat) : (s.tally m st).img = s.img := by unfold State.tally State.when; split <;> rfl
@[simp] theorem State.tally_eps (s : State) (m st : Nat) : (s.tally m st).eps = s.eps := by unfold State.tally State.when; split <;> rfl
@[simp] theorem State.tally_maint (s : State) (m st : Nat) : (s.tally m st).maint = s.maint := by unfold State.tally State.when; split <;> rfl

@[simp] theorem State.putResp_pending (s : State) (r : MbResp) : (s.putResp r).pending = s.pending := rfl
@[simp] theorem State.putResp_words (s : State) (r : MbResp) : (s.putResp r).words = s.words := rfl
@[simp] theorem State.putResp_pm (s : State) (r : MbResp) : (s.putResp r).pm = s.pm := rfl
@[simp] theorem State.putResp_dram (s : State) (r : MbResp) : (s.putResp r).dram = s.dram := rfl
@[simp] theorem State.putResp_free (s : State) (r : MbResp) : (s.putResp r).free = s.free := rfl
@[simp] theorem State.putResp_time (s : State) (r : MbResp) : (s.putResp r).time = s.time := rfl
@[simp] theorem State.putResp_sys (s : State) (r : MbResp) : (s.putResp r).sys = s.sys := rfl
@[simp] theorem State.putResp_pair (s : State) (r : MbResp) : (s.putResp r).pair = s.pair := rfl
@[simp] theorem State.putResp_sync (s : State) (r : MbResp) : (s.putResp r).sync = s.sync := rfl
@[simp] theorem State.putResp_ports (s : State) (r : MbResp) : (s.putResp r).ports = s.ports := rfl
@[simp] theorem State.putResp_stns (s : State) (r : MbResp) : (s.putResp r).stns = s.stns := rfl
@[simp] theorem State.putResp_prog (s : State) (r : MbResp) : (s.putResp r).prog = s.prog := rfl
@[simp] theorem State.putResp_change (s : State) (r : MbResp) : (s.putResp r).change = s.change := rfl
@[simp] theorem State.putResp_loop (s : State) (r : MbResp) : (s.putResp r).loop = s.loop := rfl
@[simp] theorem State.putResp_recorder (s : State) (r : MbResp) : (s.putResp r).recorder = s.recorder := rfl
@[simp] theorem State.putResp_fio (s : State) (r : MbResp) : (s.putResp r).fio = s.fio := rfl
@[simp] theorem State.putResp_acq (s : State) (r : MbResp) : (s.putResp r).acq = s.acq := rfl
@[simp] theorem State.putResp_gauge (s : State) (r : MbResp) : (s.putResp r).gauge = s.gauge := rfl
@[simp] theorem State.putResp_replay (s : State) (r : MbResp) : (s.putResp r).replay = s.replay := rfl
@[simp] theorem State.putResp_img (s : State) (r : MbResp) : (s.putResp r).img = s.img := rfl
@[simp] theorem State.putResp_eps (s : State) (r : MbResp) : (s.putResp r).eps = s.eps := rfl
@[simp] theorem State.putResp_maint (s : State) (r : MbResp) : (s.putResp r).maint = s.maint := rfl

@[simp] theorem State.post_pending (s : State) (rq : Rq) (op : Nat) (i : Bool) (l : List Byte) : (s.post rq op i l).pending = s.pending := by unfold State.post; split <;> rfl
@[simp] theorem State.post_words (s : State) (rq : Rq) (op : Nat) (i : Bool) (l : List Byte) : (s.post rq op i l).words = s.words := by unfold State.post; split <;> rfl
@[simp] theorem State.post_pm (s : State) (rq : Rq) (op : Nat) (i : Bool) (l : List Byte) : (s.post rq op i l).pm = s.pm := by unfold State.post; split <;> rfl
@[simp] theorem State.post_dram (s : State) (rq : Rq) (op : Nat) (i : Bool) (l : List Byte) : (s.post rq op i l).dram = s.dram := by unfold State.post; split <;> rfl
@[simp] theorem State.post_free (s : State) (rq : Rq) (op : Nat) (i : Bool) (l : List Byte) : (s.post rq op i l).free = s.free := by unfold State.post; split <;> rfl
@[simp] theorem State.post_time (s : State) (rq : Rq) (op : Nat) (i : Bool) (l : List Byte) : (s.post rq op i l).time = s.time := by unfold State.post; split <;> rfl
@[simp] theorem State.post_sys (s : State) (rq : Rq) (op : Nat) (i : Bool) (l : List Byte) : (s.post rq op i l).sys = s.sys := by unfold State.post; split <;> rfl
@[simp] theorem State.post_pair (s : State) (rq : Rq) (op : Nat) (i : Bool) (l : List Byte) : (s.post rq op i l).pair = s.pair := by unfold State.post; split <;> rfl
@[simp] theorem State.post_ports (s : State) (rq : Rq) (op : Nat) (i : Bool) (l : List Byte) : (s.post rq op i l).ports = s.ports := by unfold State.post; split <;> rfl
@[simp] theorem State.post_stns (s : State) (rq : Rq) (op : Nat) (i : Bool) (l : List Byte) : (s.post rq op i l).stns = s.stns := by unfold State.post; split <;> rfl
@[simp] theorem State.post_prog (s : State) (rq : Rq) (op : Nat) (i : Bool) (l : List Byte) : (s.post rq op i l).prog = s.prog := by unfold State.post; split <;> rfl
@[simp] theorem State.post_change (s : State) (rq : Rq) (op : Nat) (i : Bool) (l : List Byte) : (s.post rq op i l).change = s.change := by unfold State.post; split <;> rfl
@[simp] theorem State.post_loop (s : State) (rq : Rq) (op : Nat) (i : Bool) (l : List Byte) : (s.post rq op i l).loop = s.loop := by unfold State.post; split <;> rfl
@[simp] theorem State.post_recorder (s : State) (rq : Rq) (op : Nat) (i : Bool) (l : List Byte) : (s.post rq op i l).recorder = s.recorder := by unfold State.post; split <;> rfl
@[simp] theorem State.post_fio (s : State) (rq : Rq) (op : Nat) (i : Bool) (l : List Byte) : (s.post rq op i l).fio = s.fio := by unfold State.post; split <;> rfl
@[simp] theorem State.post_acq (s : State) (rq : Rq) (op : Nat) (i : Bool) (l : List Byte) : (s.post rq op i l).acq = s.acq := by unfold State.post; split <;> rfl
@[simp] theorem State.post_gauge (s : State) (rq : Rq) (op : Nat) (i : Bool) (l : List Byte) : (s.post rq op i l).gauge = s.gauge := by unfold State.post; split <;> rfl
@[simp] theorem State.post_replay (s : State) (rq : Rq) (op : Nat) (i : Bool) (l : List Byte) : (s.post rq op i l).replay = s.replay := by unfold State.post; split <;> rfl
@[simp] theorem State.post_img (s : State) (rq : Rq) (op : Nat) (i : Bool) (l : List Byte) : (s.post rq op i l).img = s.img := by unfold State.post; split <;> rfl
@[simp] theorem State.post_eps (s : State) (rq : Rq) (op : Nat) (i : Bool) (l : List Byte) : (s.post rq op i l).eps = s.eps := by unfold State.post; split <;> rfl
@[simp] theorem State.post_maint (s : State) (rq : Rq) (op : Nat) (i : Bool) (l : List Byte) : (s.post rq op i l).maint = s.maint := by unfold State.post; split <;> rfl

@[simp] theorem State.latency_pending (s : State) (rq : Rq) (op : Nat) : (s.latency rq op).pending = s.pending := by unfold State.latency; split <;> simp
@[simp] theorem State.latency_pm (s : State) (rq : Rq) (op : Nat) : (s.latency rq op).pm = s.pm := by unfold State.latency; split <;> simp
@[simp] theorem State.latency_dram (s : State) (rq : Rq) (op : Nat) : (s.latency rq op).dram = s.dram := by unfold State.latency; split <;> simp
@[simp] theorem State.latency_free (s : State) (rq : Rq) (op : Nat) : (s.latency rq op).free = s.free := by unfold State.latency; split <;> simp
@[simp] theorem State.latency_time (s : State) (rq : Rq) (op : Nat) : (s.latency rq op).time = s.time := by unfold State.latency; split <;> simp
@[simp] theorem State.latency_sys (s : State) (rq : Rq) (op : Nat) : (s.latency rq op).sys = s.sys := by unfold State.latency; split <;> simp
@[simp] theorem State.latency_pair (s : State) (rq : Rq) (op : Nat) : (s.latency rq op).pair = s.pair := by unfold State.latency; split <;> simp
@[simp] theorem State.latency_sync (s : State) (rq : Rq) (op : Nat) : (s.latency rq op).sync = s.sync := by unfold State.latency; split <;> simp
@[simp] theorem State.latency_ports (s : State) (rq : Rq) (op : Nat) : (s.latency rq op).ports = s.ports := by unfold State.latency; split <;> simp
@[simp] theorem State.latency_stns (s : State) (rq : Rq) (op : Nat) : (s.latency rq op).stns = s.stns := by unfold State.latency; split <;> simp
@[simp] theorem State.latency_prog (s : State) (rq : Rq) (op : Nat) : (s.latency rq op).prog = s.prog := by unfold State.latency; split <;> simp
@[simp] theorem State.latency_change (s : State) (rq : Rq) (op : Nat) : (s.latency rq op).change = s.change := by unfold State.latency; split <;> simp
@[simp] theorem State.latency_loop (s : State) (rq : Rq) (op : Nat) : (s.latency rq op).loop = s.loop := by unfold State.latency; split <;> simp
@[simp] theorem State.latency_recorder (s : State) (rq : Rq) (op : Nat) : (s.latency rq op).recorder = s.recorder := by unfold State.latency; split <;> simp
@[simp] theorem State.latency_kpr (s : State) (rq : Rq) (op : Nat) : (s.latency rq op).kpr = s.kpr := by unfold State.latency; split <;> simp
@[simp] theorem State.latency_fio (s : State) (rq : Rq) (op : Nat) : (s.latency rq op).fio = s.fio := by unfold State.latency; split <;> simp
@[simp] theorem State.latency_acq (s : State) (rq : Rq) (op : Nat) : (s.latency rq op).acq = s.acq := by unfold State.latency; split <;> simp
@[simp] theorem State.latency_gauge (s : State) (rq : Rq) (op : Nat) : (s.latency rq op).gauge = s.gauge := by unfold State.latency; split <;> simp
@[simp] theorem State.latency_replay (s : State) (rq : Rq) (op : Nat) : (s.latency rq op).replay = s.replay := by unfold State.latency; split <;> simp
@[simp] theorem State.latency_img (s : State) (rq : Rq) (op : Nat) : (s.latency rq op).img = s.img := by unfold State.latency; split <;> simp
@[simp] theorem State.latency_eps (s : State) (rq : Rq) (op : Nat) : (s.latency rq op).eps = s.eps := by unfold State.latency; split <;> simp
@[simp] theorem State.latency_maint (s : State) (rq : Rq) (op : Nat) : (s.latency rq op).maint = s.maint := by unfold State.latency; split <;> simp

@[simp] theorem State.respond_pending (s : State) (rq : Rq) (op st d : Nat) (l : List Byte) : (s.respond rq op st d l).pending = s.pending := by simp [State.respond]
@[simp] theorem State.respond_pm (s : State) (rq : Rq) (op st d : Nat) (l : List Byte) : (s.respond rq op st d l).pm = s.pm := by simp [State.respond]
@[simp] theorem State.respond_dram (s : State) (rq : Rq) (op st d : Nat) (l : List Byte) : (s.respond rq op st d l).dram = s.dram := by simp [State.respond]
@[simp] theorem State.respond_free (s : State) (rq : Rq) (op st d : Nat) (l : List Byte) : (s.respond rq op st d l).free = s.free := by simp [State.respond]
@[simp] theorem State.respond_time (s : State) (rq : Rq) (op st d : Nat) (l : List Byte) : (s.respond rq op st d l).time = s.time := by simp [State.respond]
@[simp] theorem State.respond_sys (s : State) (rq : Rq) (op st d : Nat) (l : List Byte) : (s.respond rq op st d l).sys = s.sys := by simp [State.respond]
@[simp] theorem State.respond_pair (s : State) (rq : Rq) (op st d : Nat) (l : List Byte) : (s.respond rq op st d l).pair = s.pair := by simp [State.respond]
@[simp] theorem State.respond_ports (s : State) (rq : Rq) (op st d : Nat) (l : List Byte) : (s.respond rq op st d l).ports = s.ports := by simp [State.respond]
@[simp] theorem State.respond_stns (s : State) (rq : Rq) (op st d : Nat) (l : List Byte) : (s.respond rq op st d l).stns = s.stns := by simp [State.respond]
@[simp] theorem State.respond_prog (s : State) (rq : Rq) (op st d : Nat) (l : List Byte) : (s.respond rq op st d l).prog = s.prog := by simp [State.respond]
@[simp] theorem State.respond_change (s : State) (rq : Rq) (op st d : Nat) (l : List Byte) : (s.respond rq op st d l).change = s.change := by simp [State.respond]
@[simp] theorem State.respond_loop (s : State) (rq : Rq) (op st d : Nat) (l : List Byte) : (s.respond rq op st d l).loop = s.loop := by simp [State.respond]
@[simp] theorem State.respond_recorder (s : State) (rq : Rq) (op st d : Nat) (l : List Byte) : (s.respond rq op st d l).recorder = s.recorder := by simp [State.respond]
@[simp] theorem State.respond_fio (s : State) (rq : Rq) (op st d : Nat) (l : List Byte) : (s.respond rq op st d l).fio = s.fio := by simp [State.respond]
@[simp] theorem State.respond_acq (s : State) (rq : Rq) (op st d : Nat) (l : List Byte) : (s.respond rq op st d l).acq = s.acq := by simp [State.respond]
@[simp] theorem State.respond_gauge (s : State) (rq : Rq) (op st d : Nat) (l : List Byte) : (s.respond rq op st d l).gauge = s.gauge := by simp [State.respond]
@[simp] theorem State.respond_replay (s : State) (rq : Rq) (op st d : Nat) (l : List Byte) : (s.respond rq op st d l).replay = s.replay := by simp [State.respond]
@[simp] theorem State.respond_img (s : State) (rq : Rq) (op st d : Nat) (l : List Byte) : (s.respond rq op st d l).img = s.img := by simp [State.respond]
@[simp] theorem State.respond_eps (s : State) (rq : Rq) (op st d : Nat) (l : List Byte) : (s.respond rq op st d l).eps = s.eps := by simp [State.respond]
@[simp] theorem State.respond_maint (s : State) (rq : Rq) (op st d : Nat) (l : List Byte) : (s.respond rq op st d l).maint = s.maint := by simp [State.respond]

@[simp] theorem State.accept_pending (s : State) (rq : Rq) (op : Nat) (l : List Byte) : (s.accept rq op l).pending = s.pending := by simp [State.accept]
@[simp] theorem State.accept_words (s : State) (rq : Rq) (op : Nat) (l : List Byte) : (s.accept rq op l).words = s.words := by simp [State.accept]
@[simp] theorem State.accept_pm (s : State) (rq : Rq) (op : Nat) (l : List Byte) : (s.accept rq op l).pm = s.pm := by simp [State.accept]
@[simp] theorem State.accept_dram (s : State) (rq : Rq) (op : Nat) (l : List Byte) : (s.accept rq op l).dram = s.dram := by simp [State.accept]
@[simp] theorem State.accept_free (s : State) (rq : Rq) (op : Nat) (l : List Byte) : (s.accept rq op l).free = s.free := by simp [State.accept]
@[simp] theorem State.accept_time (s : State) (rq : Rq) (op : Nat) (l : List Byte) : (s.accept rq op l).time = s.time := by simp [State.accept]
@[simp] theorem State.accept_sys (s : State) (rq : Rq) (op : Nat) (l : List Byte) : (s.accept rq op l).sys = s.sys := by simp [State.accept]
@[simp] theorem State.accept_pair (s : State) (rq : Rq) (op : Nat) (l : List Byte) : (s.accept rq op l).pair = s.pair := by simp [State.accept]
@[simp] theorem State.accept_ports (s : State) (rq : Rq) (op : Nat) (l : List Byte) : (s.accept rq op l).ports = s.ports := by simp [State.accept]
@[simp] theorem State.accept_stns (s : State) (rq : Rq) (op : Nat) (l : List Byte) : (s.accept rq op l).stns = s.stns := by simp [State.accept]
@[simp] theorem State.accept_prog (s : State) (rq : Rq) (op : Nat) (l : List Byte) : (s.accept rq op l).prog = s.prog := by simp [State.accept]
@[simp] theorem State.accept_change (s : State) (rq : Rq) (op : Nat) (l : List Byte) : (s.accept rq op l).change = s.change := by simp [State.accept]
@[simp] theorem State.accept_loop (s : State) (rq : Rq) (op : Nat) (l : List Byte) : (s.accept rq op l).loop = s.loop := by simp [State.accept]
@[simp] theorem State.accept_recorder (s : State) (rq : Rq) (op : Nat) (l : List Byte) : (s.accept rq op l).recorder = s.recorder := by simp [State.accept]
@[simp] theorem State.accept_fio (s : State) (rq : Rq) (op : Nat) (l : List Byte) : (s.accept rq op l).fio = s.fio := by simp [State.accept]
@[simp] theorem State.accept_acq (s : State) (rq : Rq) (op : Nat) (l : List Byte) : (s.accept rq op l).acq = s.acq := by simp [State.accept]
@[simp] theorem State.accept_gauge (s : State) (rq : Rq) (op : Nat) (l : List Byte) : (s.accept rq op l).gauge = s.gauge := by simp [State.accept]
@[simp] theorem State.accept_replay (s : State) (rq : Rq) (op : Nat) (l : List Byte) : (s.accept rq op l).replay = s.replay := by simp [State.accept]
@[simp] theorem State.accept_img (s : State) (rq : Rq) (op : Nat) (l : List Byte) : (s.accept rq op l).img = s.img := by simp [State.accept]
@[simp] theorem State.accept_eps (s : State) (rq : Rq) (op : Nat) (l : List Byte) : (s.accept rq op l).eps = s.eps := by simp [State.accept]
@[simp] theorem State.accept_maint (s : State) (rq : Rq) (op : Nat) (l : List Byte) : (s.accept rq op l).maint = s.maint := by simp [State.accept]

@[simp] theorem State.hold_pending (s : State) (rq : Rq) (op : Nat) : (s.hold rq op).pending = s.pending := by unfold State.hold; split <;> rfl
@[simp] theorem State.hold_words (s : State) (rq : Rq) (op : Nat) : (s.hold rq op).words = s.words := by unfold State.hold; split <;> rfl
@[simp] theorem State.hold_pm (s : State) (rq : Rq) (op : Nat) : (s.hold rq op).pm = s.pm := by unfold State.hold; split <;> rfl
@[simp] theorem State.hold_dram (s : State) (rq : Rq) (op : Nat) : (s.hold rq op).dram = s.dram := by unfold State.hold; split <;> rfl
@[simp] theorem State.hold_free (s : State) (rq : Rq) (op : Nat) : (s.hold rq op).free = s.free := by unfold State.hold; split <;> rfl
@[simp] theorem State.hold_time (s : State) (rq : Rq) (op : Nat) : (s.hold rq op).time = s.time := by unfold State.hold; split <;> rfl
@[simp] theorem State.hold_sys (s : State) (rq : Rq) (op : Nat) : (s.hold rq op).sys = s.sys := by unfold State.hold; split <;> rfl
@[simp] theorem State.hold_pair (s : State) (rq : Rq) (op : Nat) : (s.hold rq op).pair = s.pair := by unfold State.hold; split <;> rfl
@[simp] theorem State.hold_sync (s : State) (rq : Rq) (op : Nat) : (s.hold rq op).sync = s.sync := by unfold State.hold; split <;> rfl
@[simp] theorem State.hold_ports (s : State) (rq : Rq) (op : Nat) : (s.hold rq op).ports = s.ports := by unfold State.hold; split <;> rfl
@[simp] theorem State.hold_stns (s : State) (rq : Rq) (op : Nat) : (s.hold rq op).stns = s.stns := by unfold State.hold; split <;> rfl
@[simp] theorem State.hold_prog (s : State) (rq : Rq) (op : Nat) : (s.hold rq op).prog = s.prog := by unfold State.hold; split <;> rfl
@[simp] theorem State.hold_change (s : State) (rq : Rq) (op : Nat) : (s.hold rq op).change = s.change := by unfold State.hold; split <;> rfl
@[simp] theorem State.hold_loop (s : State) (rq : Rq) (op : Nat) : (s.hold rq op).loop = s.loop := by unfold State.hold; split <;> rfl
@[simp] theorem State.hold_recorder (s : State) (rq : Rq) (op : Nat) : (s.hold rq op).recorder = s.recorder := by unfold State.hold; split <;> rfl
@[simp] theorem State.hold_fio (s : State) (rq : Rq) (op : Nat) : (s.hold rq op).fio = s.fio := by unfold State.hold; split <;> rfl
@[simp] theorem State.hold_acq (s : State) (rq : Rq) (op : Nat) : (s.hold rq op).acq = s.acq := by unfold State.hold; split <;> rfl
@[simp] theorem State.hold_gauge (s : State) (rq : Rq) (op : Nat) : (s.hold rq op).gauge = s.gauge := by unfold State.hold; split <;> rfl
@[simp] theorem State.hold_replay (s : State) (rq : Rq) (op : Nat) : (s.hold rq op).replay = s.replay := by unfold State.hold; split <;> rfl
@[simp] theorem State.hold_img (s : State) (rq : Rq) (op : Nat) : (s.hold rq op).img = s.img := by unfold State.hold; split <;> rfl
@[simp] theorem State.hold_eps (s : State) (rq : Rq) (op : Nat) : (s.hold rq op).eps = s.eps := by unfold State.hold; split <;> rfl
@[simp] theorem State.hold_maint (s : State) (rq : Rq) (op : Nat) : (s.hold rq op).maint = s.maint := by unfold State.hold; split <;> rfl

@[simp] theorem State.modDio_pending (s : State) (c : Nat) (f : DioS → DioS) : (s.modDio c f).pending = s.pending := rfl
@[simp] theorem State.modDio_words (s : State) (c : Nat) (f : DioS → DioS) : (s.modDio c f).words = s.words := rfl
@[simp] theorem State.modDio_pm (s : State) (c : Nat) (f : DioS → DioS) : (s.modDio c f).pm = s.pm := rfl
@[simp] theorem State.modDio_dram (s : State) (c : Nat) (f : DioS → DioS) : (s.modDio c f).dram = s.dram := rfl
@[simp] theorem State.modDio_free (s : State) (c : Nat) (f : DioS → DioS) : (s.modDio c f).free = s.free := rfl
@[simp] theorem State.modDio_time (s : State) (c : Nat) (f : DioS → DioS) : (s.modDio c f).time = s.time := rfl
@[simp] theorem State.modDio_sys (s : State) (c : Nat) (f : DioS → DioS) : (s.modDio c f).sys = s.sys := rfl
@[simp] theorem State.modDio_pair (s : State) (c : Nat) (f : DioS → DioS) : (s.modDio c f).pair = s.pair := rfl
@[simp] theorem State.modDio_sync (s : State) (c : Nat) (f : DioS → DioS) : (s.modDio c f).sync = s.sync := rfl
@[simp] theorem State.modDio_ports (s : State) (c : Nat) (f : DioS → DioS) : (s.modDio c f).ports = s.ports := rfl
@[simp] theorem State.modDio_stns (s : State) (c : Nat) (f : DioS → DioS) : (s.modDio c f).stns = s.stns := rfl
@[simp] theorem State.modDio_prog (s : State) (c : Nat) (f : DioS → DioS) : (s.modDio c f).prog = s.prog := rfl
@[simp] theorem State.modDio_change (s : State) (c : Nat) (f : DioS → DioS) : (s.modDio c f).change = s.change := rfl
@[simp] theorem State.modDio_loop (s : State) (c : Nat) (f : DioS → DioS) : (s.modDio c f).loop = s.loop := rfl
@[simp] theorem State.modDio_recorder (s : State) (c : Nat) (f : DioS → DioS) : (s.modDio c f).recorder = s.recorder := rfl
@[simp] theorem State.modDio_kpr (s : State) (c : Nat) (f : DioS → DioS) : (s.modDio c f).kpr = s.kpr := rfl
@[simp] theorem State.modDio_acq (s : State) (c : Nat) (f : DioS → DioS) : (s.modDio c f).acq = s.acq := rfl
@[simp] theorem State.modDio_gauge (s : State) (c : Nat) (f : DioS → DioS) : (s.modDio c f).gauge = s.gauge := rfl
@[simp] theorem State.modDio_replay (s : State) (c : Nat) (f : DioS → DioS) : (s.modDio c f).replay = s.replay := rfl
@[simp] theorem State.modDio_img (s : State) (c : Nat) (f : DioS → DioS) : (s.modDio c f).img = s.img := rfl
@[simp] theorem State.modDio_eps (s : State) (c : Nat) (f : DioS → DioS) : (s.modDio c f).eps = s.eps := rfl
@[simp] theorem State.modDio_maint (s : State) (c : Nat) (f : DioS → DioS) : (s.modDio c f).maint = s.maint := rfl

@[simp] theorem State.modCl_pending (s : State) (c : Nat) (f : ClS → ClS) : (s.modCl c f).pending = s.pending := rfl
@[simp] theorem State.modCl_words (s : State) (c : Nat) (f : ClS → ClS) : (s.modCl c f).words = s.words := rfl
@[simp] theorem State.modCl_pm (s : State) (c : Nat) (f : ClS → ClS) : (s.modCl c f).pm = s.pm := rfl
@[simp] theorem State.modCl_dram (s : State) (c : Nat) (f : ClS → ClS) : (s.modCl c f).dram = s.dram := rfl
@[simp] theorem State.modCl_free (s : State) (c : Nat) (f : ClS → ClS) : (s.modCl c f).free = s.free := rfl
@[simp] theorem State.modCl_time (s : State) (c : Nat) (f : ClS → ClS) : (s.modCl c f).time = s.time := rfl
@[simp] theorem State.modCl_sys (s : State) (c : Nat) (f : ClS → ClS) : (s.modCl c f).sys = s.sys := rfl
@[simp] theorem State.modCl_pair (s : State) (c : Nat) (f : ClS → ClS) : (s.modCl c f).pair = s.pair := rfl
@[simp] theorem State.modCl_sync (s : State) (c : Nat) (f : ClS → ClS) : (s.modCl c f).sync = s.sync := rfl
@[simp] theorem State.modCl_ports (s : State) (c : Nat) (f : ClS → ClS) : (s.modCl c f).ports = s.ports := rfl
@[simp] theorem State.modCl_stns (s : State) (c : Nat) (f : ClS → ClS) : (s.modCl c f).stns = s.stns := rfl
@[simp] theorem State.modCl_prog (s : State) (c : Nat) (f : ClS → ClS) : (s.modCl c f).prog = s.prog := rfl
@[simp] theorem State.modCl_change (s : State) (c : Nat) (f : ClS → ClS) : (s.modCl c f).change = s.change := rfl
@[simp] theorem State.modCl_loop (s : State) (c : Nat) (f : ClS → ClS) : (s.modCl c f).loop = s.loop := rfl
@[simp] theorem State.modCl_recorder (s : State) (c : Nat) (f : ClS → ClS) : (s.modCl c f).recorder = s.recorder := rfl
@[simp] theorem State.modCl_kpr (s : State) (c : Nat) (f : ClS → ClS) : (s.modCl c f).kpr = s.kpr := rfl
@[simp] theorem State.modCl_acq (s : State) (c : Nat) (f : ClS → ClS) : (s.modCl c f).acq = s.acq := rfl
@[simp] theorem State.modCl_gauge (s : State) (c : Nat) (f : ClS → ClS) : (s.modCl c f).gauge = s.gauge := rfl
@[simp] theorem State.modCl_replay (s : State) (c : Nat) (f : ClS → ClS) : (s.modCl c f).replay = s.replay := rfl
@[simp] theorem State.modCl_img (s : State) (c : Nat) (f : ClS → ClS) : (s.modCl c f).img = s.img := rfl
@[simp] theorem State.modCl_eps (s : State) (c : Nat) (f : ClS → ClS) : (s.modCl c f).eps = s.eps := rfl
@[simp] theorem State.modCl_maint (s : State) (c : Nat) (f : ClS → ClS) : (s.modCl c f).maint = s.maint := rfl

@[simp] theorem State.modTask_pending (s : State) (m : Nat) (f : TaskS → TaskS) : (s.modTask m f).pending = s.pending := rfl
@[simp] theorem State.modTask_words (s : State) (m : Nat) (f : TaskS → TaskS) : (s.modTask m f).words = s.words := rfl
@[simp] theorem State.modTask_pm (s : State) (m : Nat) (f : TaskS → TaskS) : (s.modTask m f).pm = s.pm := rfl
@[simp] theorem State.modTask_dram (s : State) (m : Nat) (f : TaskS → TaskS) : (s.modTask m f).dram = s.dram := rfl
@[simp] theorem State.modTask_free (s : State) (m : Nat) (f : TaskS → TaskS) : (s.modTask m f).free = s.free := rfl
@[simp] theorem State.modTask_time (s : State) (m : Nat) (f : TaskS → TaskS) : (s.modTask m f).time = s.time := rfl
@[simp] theorem State.modTask_sys (s : State) (m : Nat) (f : TaskS → TaskS) : (s.modTask m f).sys = s.sys := rfl
@[simp] theorem State.modTask_pair (s : State) (m : Nat) (f : TaskS → TaskS) : (s.modTask m f).pair = s.pair := rfl
@[simp] theorem State.modTask_sync (s : State) (m : Nat) (f : TaskS → TaskS) : (s.modTask m f).sync = s.sync := rfl
@[simp] theorem State.modTask_ports (s : State) (m : Nat) (f : TaskS → TaskS) : (s.modTask m f).ports = s.ports := rfl
@[simp] theorem State.modTask_stns (s : State) (m : Nat) (f : TaskS → TaskS) : (s.modTask m f).stns = s.stns := rfl
@[simp] theorem State.modTask_change (s : State) (m : Nat) (f : TaskS → TaskS) : (s.modTask m f).change = s.change := rfl
@[simp] theorem State.modTask_loop (s : State) (m : Nat) (f : TaskS → TaskS) : (s.modTask m f).loop = s.loop := rfl
@[simp] theorem State.modTask_recorder (s : State) (m : Nat) (f : TaskS → TaskS) : (s.modTask m f).recorder = s.recorder := rfl
@[simp] theorem State.modTask_kpr (s : State) (m : Nat) (f : TaskS → TaskS) : (s.modTask m f).kpr = s.kpr := rfl
@[simp] theorem State.modTask_fio (s : State) (m : Nat) (f : TaskS → TaskS) : (s.modTask m f).fio = s.fio := rfl
@[simp] theorem State.modTask_acq (s : State) (m : Nat) (f : TaskS → TaskS) : (s.modTask m f).acq = s.acq := rfl
@[simp] theorem State.modTask_gauge (s : State) (m : Nat) (f : TaskS → TaskS) : (s.modTask m f).gauge = s.gauge := rfl
@[simp] theorem State.modTask_replay (s : State) (m : Nat) (f : TaskS → TaskS) : (s.modTask m f).replay = s.replay := rfl
@[simp] theorem State.modTask_img (s : State) (m : Nat) (f : TaskS → TaskS) : (s.modTask m f).img = s.img := rfl
@[simp] theorem State.modTask_eps (s : State) (m : Nat) (f : TaskS → TaskS) : (s.modTask m f).eps = s.eps := rfl
@[simp] theorem State.modTask_maint (s : State) (m : Nat) (f : TaskS → TaskS) : (s.modTask m f).maint = s.maint := rfl

@[simp] theorem State.modCu_pending (s : State) (n : Nat) (f : CuS → CuS) : (s.modCu n f).pending = s.pending := rfl
@[simp] theorem State.modCu_words (s : State) (n : Nat) (f : CuS → CuS) : (s.modCu n f).words = s.words := rfl
@[simp] theorem State.modCu_pm (s : State) (n : Nat) (f : CuS → CuS) : (s.modCu n f).pm = s.pm := rfl
@[simp] theorem State.modCu_dram (s : State) (n : Nat) (f : CuS → CuS) : (s.modCu n f).dram = s.dram := rfl
@[simp] theorem State.modCu_free (s : State) (n : Nat) (f : CuS → CuS) : (s.modCu n f).free = s.free := rfl
@[simp] theorem State.modCu_time (s : State) (n : Nat) (f : CuS → CuS) : (s.modCu n f).time = s.time := rfl
@[simp] theorem State.modCu_sys (s : State) (n : Nat) (f : CuS → CuS) : (s.modCu n f).sys = s.sys := rfl
@[simp] theorem State.modCu_pair (s : State) (n : Nat) (f : CuS → CuS) : (s.modCu n f).pair = s.pair := rfl
@[simp] theorem State.modCu_sync (s : State) (n : Nat) (f : CuS → CuS) : (s.modCu n f).sync = s.sync := rfl
@[simp] theorem State.modCu_ports (s : State) (n : Nat) (f : CuS → CuS) : (s.modCu n f).ports = s.ports := rfl
@[simp] theorem State.modCu_stns (s : State) (n : Nat) (f : CuS → CuS) : (s.modCu n f).stns = s.stns := rfl
@[simp] theorem State.modCu_prog (s : State) (n : Nat) (f : CuS → CuS) : (s.modCu n f).prog = s.prog := rfl
@[simp] theorem State.modCu_change (s : State) (n : Nat) (f : CuS → CuS) : (s.modCu n f).change = s.change := rfl
@[simp] theorem State.modCu_loop (s : State) (n : Nat) (f : CuS → CuS) : (s.modCu n f).loop = s.loop := rfl
@[simp] theorem State.modCu_recorder (s : State) (n : Nat) (f : CuS → CuS) : (s.modCu n f).recorder = s.recorder := rfl
@[simp] theorem State.modCu_kpr (s : State) (n : Nat) (f : CuS → CuS) : (s.modCu n f).kpr = s.kpr := rfl
@[simp] theorem State.modCu_fio (s : State) (n : Nat) (f : CuS → CuS) : (s.modCu n f).fio = s.fio := rfl
@[simp] theorem State.modCu_gauge (s : State) (n : Nat) (f : CuS → CuS) : (s.modCu n f).gauge = s.gauge := rfl
@[simp] theorem State.modCu_replay (s : State) (n : Nat) (f : CuS → CuS) : (s.modCu n f).replay = s.replay := rfl
@[simp] theorem State.modCu_img (s : State) (n : Nat) (f : CuS → CuS) : (s.modCu n f).img = s.img := rfl
@[simp] theorem State.modCu_eps (s : State) (n : Nat) (f : CuS → CuS) : (s.modCu n f).eps = s.eps := rfl
@[simp] theorem State.modCu_maint (s : State) (n : Nat) (f : CuS → CuS) : (s.modCu n f).maint = s.maint := rfl

@[simp] theorem State.modEp_pending (s : State) (n : Nat) (f : EpS → EpS) : (s.modEp n f).pending = s.pending := rfl
@[simp] theorem State.modEp_words (s : State) (n : Nat) (f : EpS → EpS) : (s.modEp n f).words = s.words := rfl
@[simp] theorem State.modEp_pm (s : State) (n : Nat) (f : EpS → EpS) : (s.modEp n f).pm = s.pm := rfl
@[simp] theorem State.modEp_dram (s : State) (n : Nat) (f : EpS → EpS) : (s.modEp n f).dram = s.dram := rfl
@[simp] theorem State.modEp_free (s : State) (n : Nat) (f : EpS → EpS) : (s.modEp n f).free = s.free := rfl
@[simp] theorem State.modEp_time (s : State) (n : Nat) (f : EpS → EpS) : (s.modEp n f).time = s.time := rfl
@[simp] theorem State.modEp_sys (s : State) (n : Nat) (f : EpS → EpS) : (s.modEp n f).sys = s.sys := rfl
@[simp] theorem State.modEp_pair (s : State) (n : Nat) (f : EpS → EpS) : (s.modEp n f).pair = s.pair := rfl
@[simp] theorem State.modEp_sync (s : State) (n : Nat) (f : EpS → EpS) : (s.modEp n f).sync = s.sync := rfl
@[simp] theorem State.modEp_ports (s : State) (n : Nat) (f : EpS → EpS) : (s.modEp n f).ports = s.ports := rfl
@[simp] theorem State.modEp_stns (s : State) (n : Nat) (f : EpS → EpS) : (s.modEp n f).stns = s.stns := rfl
@[simp] theorem State.modEp_prog (s : State) (n : Nat) (f : EpS → EpS) : (s.modEp n f).prog = s.prog := rfl
@[simp] theorem State.modEp_change (s : State) (n : Nat) (f : EpS → EpS) : (s.modEp n f).change = s.change := rfl
@[simp] theorem State.modEp_loop (s : State) (n : Nat) (f : EpS → EpS) : (s.modEp n f).loop = s.loop := rfl
@[simp] theorem State.modEp_recorder (s : State) (n : Nat) (f : EpS → EpS) : (s.modEp n f).recorder = s.recorder := rfl
@[simp] theorem State.modEp_kpr (s : State) (n : Nat) (f : EpS → EpS) : (s.modEp n f).kpr = s.kpr := rfl
@[simp] theorem State.modEp_fio (s : State) (n : Nat) (f : EpS → EpS) : (s.modEp n f).fio = s.fio := rfl
@[simp] theorem State.modEp_acq (s : State) (n : Nat) (f : EpS → EpS) : (s.modEp n f).acq = s.acq := rfl
@[simp] theorem State.modEp_gauge (s : State) (n : Nat) (f : EpS → EpS) : (s.modEp n f).gauge = s.gauge := rfl
@[simp] theorem State.modEp_replay (s : State) (n : Nat) (f : EpS → EpS) : (s.modEp n f).replay = s.replay := rfl
@[simp] theorem State.modEp_img (s : State) (n : Nat) (f : EpS → EpS) : (s.modEp n f).img = s.img := rfl
@[simp] theorem State.modEp_maint (s : State) (n : Nat) (f : EpS → EpS) : (s.modEp n f).maint = s.maint := rfl

end Sys2Proof.Machine
end

