-- ==== Sys2Proof/Laws/Ops.lean ====
section
/-!
SUPPORT. What each named operation over State does: reads after writes of words, fields, bits, bytes, ports and stations, and the
response that a request gets.
-/

namespace Sys2Proof.Machine

/-! ### The sparse map -/

theorem Cmap.get_above {α : Type} (d : Nat → α) (m : List (Nat × α)) (k : Nat) (h : Cmap.above k m = true) : Cmap.get d m k = d k := by
  cases m with
  | nil => rfl
  | cons e m =>
    have : k < e.1 := by simpa [Cmap.above] using h
    simp [Cmap.get, this]

/-- A read after a write: the value written at its key, and what was there at every other. -/
theorem Cmap.get_put {α : Type} [DecidableEq α] (d : Nat → α) (m : List (Nat × α)) (k j : Nat) (v : α) (h : Cmap.wf d m = true) :
    Cmap.get d (Cmap.put d m k v) j = if j = k then v else Cmap.get d m j := by
  induction m with
  | nil =>
    unfold Cmap.put
    split
    · next e => by_cases hj : j = k <;> simp_all [Cmap.get]
    · by_cases hj : j = k
      · simp [Cmap.get, hj]
      · simp [Cmap.get, hj]
  | cons e m ih =>
    obtain ⟨i, w⟩ := e
    simp only [Cmap.wf, Bool.and_eq_true, decide_eq_true_eq] at h
    have ih := ih h.2
    unfold Cmap.put
    by_cases h1 : k < i
    · rw [if_pos h1]
      by_cases hv : v = d k
      · rw [if_pos hv]
        by_cases hj : j = k
        · subst hj; simp [Cmap.get, h1, hv]
        · simp [hj]
      · rw [if_neg hv]
        by_cases hj : j = k
        · subst hj; simp [Cmap.get]
        · by_cases hjk : j < k
          · simp [Cmap.get, hjk, hj, (by omega : j < i)]
          · simp [Cmap.get, hjk, hj]
    · rw [if_neg h1]
      by_cases h2 : k = i
      · rw [if_pos h2]
        subst h2
        by_cases hv : v = d k
        · rw [if_pos hv]
          by_cases hj : j = k
          · subst hj
            simp [hv, Cmap.get_above d m j h.1.2]
          · by_cases hjk : j < k
            · rw [Cmap.get_above d m j (Cmap.above_of_lt m j k h.1.2 hjk)]
              simp [Cmap.get, hj, hjk]
            · simp [Cmap.get, hj, hjk]
        · rw [if_neg hv]
          by_cases hj : j = k
          · subst hj; simp [Cmap.get]
          · simp [Cmap.get, hj]
      · rw [if_neg h2]
        by_cases hj : j < i
        · have hk : j ≠ k := by omega
          simp [Cmap.get, hj, hk]
        · by_cases hji : j = i
          · subst hji; simp [Cmap.get, Ne.symm h2]
          · simp only [Cmap.get, hj, hji, if_false]
            exact ih

/-! ### Words -/

theorem State.word_setWord (s : State) (h : s.canonical) (k j : Nat) (v : U32) :
    (s.setWord k v).word j = if j = k then v else s.word j := Cmap.get_put _ _ _ _ _ h.1

theorem State.word_setWord_self (s : State) (h : s.canonical) (k : Nat) (v : U32) : (s.setWord k v).word k = v := by
  rw [State.word_setWord s h, if_pos rfl]

theorem State.word_setWord_ne (s : State) (h : s.canonical) (k j : Nat) (v : U32) (hj : j ≠ k) : (s.setWord k v).word j = s.word j := by
  rw [State.word_setWord s h, if_neg hj]

/-- Words alone decide what a read of one gives. -/
theorem State.word_of_words {s t : State} (h : t.words = s.words) (k : Nat) : t.word k = s.word k := by
  unfold State.word; rw [h]

@[simp] theorem State.word_ev (s : State) (c : Nat) (n : String) (l : List Nat) (k : Nat) : (s.ev c n l).word k = s.word k := rfl
@[simp] theorem State.word_modPort (s : State) (p : Nat) (f : PortS → PortS) (k : Nat) : (s.modPort p f).word k = s.word k := rfl
@[simp] theorem State.word_modStn (s : State) (p : Nat) (f : StnS → StnS) (k : Nat) : (s.modStn p f).word k = s.word k := rfl
@[simp] theorem State.word_modDio (s : State) (c : Nat) (f : DioS → DioS) (k : Nat) : (s.modDio c f).word k = s.word k := rfl
@[simp] theorem State.word_modCl (s : State) (c : Nat) (f : ClS → ClS) (k : Nat) : (s.modCl c f).word k = s.word k := rfl
@[simp] theorem State.word_modTask (s : State) (c : Nat) (f : TaskS → TaskS) (k : Nat) : (s.modTask c f).word k = s.word k := rfl
@[simp] theorem State.word_modCu (s : State) (c : Nat) (f : CuS → CuS) (k : Nat) : (s.modCu c f).word k = s.word k := rfl
@[simp] theorem State.word_modEp (s : State) (c : Nat) (f : EpS → EpS) (k : Nat) : (s.modEp c f).word k = s.word k := rfl

/-! ### Fields and bits -/

theorem fieldOf_lt (w : U32) (hi lo : Nat) : fieldOf w hi lo < 2 ^ (hi + 1 - lo) := Nat.mod_lt _ (Nat.two_pow_pos _)

/-- The bits of a word as its field [hi:lo], what is below it and what is above it. -/
theorem word_split (w : U32) (hi lo : Nat) (h : lo ≤ hi) :
    w.toNat = w.toNat / 2 ^ (hi + 1) * 2 ^ (hi + 1) + fieldOf w hi lo * 2 ^ lo + w.toNat % 2 ^ lo := by
  unfold fieldOf
  have e : 2 ^ (hi + 1) = 2 ^ lo * 2 ^ (hi + 1 - lo) := by rw [← Nat.pow_add]; congr 1; omega
  have h1 := Nat.div_add_mod w.toNat (2 ^ lo)
  have h2 := Nat.div_add_mod (w.toNat / 2 ^ lo) (2 ^ (hi + 1 - lo))
  rw [Nat.div_div_eq_div_mul, ← e] at h2
  have h3 : 2 ^ lo * (2 ^ (hi + 1 - lo) * (w.toNat / 2 ^ (hi + 1)) + w.toNat / 2 ^ lo % 2 ^ (hi + 1 - lo)) = 2 ^ lo * (w.toNat / 2 ^ lo) := by rw [h2]
  rw [Nat.mul_add, ← Nat.mul_assoc, ← e, Nat.mul_comm (2 ^ lo) (_ % _), Nat.mul_comm (2 ^ (hi + 1)) _] at h3
  omega

theorem withField_toNat (w : U32) (hi lo v : Nat) (h : lo ≤ hi) (h2 : hi < 32) :
    (withField w hi lo v).toNat =
      w.toNat / 2 ^ (hi + 1) * 2 ^ (hi + 1) + v % 2 ^ (hi + 1 - lo) * 2 ^ lo + w.toNat % 2 ^ lo := by
  have hs := word_split w hi lo h
  have hv : v % 2 ^ (hi + 1 - lo) < 2 ^ (hi + 1 - lo) := Nat.mod_lt _ (Nat.two_pow_pos _)
  have hl : w.toNat % 2 ^ lo < 2 ^ lo := Nat.mod_lt _ (Nat.two_pow_pos _)
  have e : 2 ^ (hi + 1) = 2 ^ (hi + 1 - lo) * 2 ^ lo := by rw [← Nat.pow_add]; congr 1; omega
  have hb : v % 2 ^ (hi + 1 - lo) * 2 ^ lo + w.toNat % 2 ^ lo < 2 ^ (hi + 1) := by
    have : (v % 2 ^ (hi + 1 - lo) + 1) * 2 ^ lo ≤ 2 ^ (hi + 1 - lo) * 2 ^ lo := Nat.mul_le_mul_right _ hv
    rw [Nat.add_mul, Nat.one_mul] at this
    omega
  have hq : w.toNat / 2 ^ (hi + 1) < 2 ^ (32 - (hi + 1)) := by
    apply Nat.div_lt_of_lt_mul
    rw [← Nat.pow_add, show hi + 1 + (32 - (hi + 1)) = 32 by omega]
    exact w.isLt
  have hbound : w.toNat / 2 ^ (hi + 1) * 2 ^ (hi + 1) + 2 ^ (hi + 1) ≤ 2 ^ 32 := by
    have : (w.toNat / 2 ^ (hi + 1) + 1) * 2 ^ (hi + 1) ≤ 2 ^ (32 - (hi + 1)) * 2 ^ (hi + 1) := Nat.mul_le_mul_right _ hq
    rw [← Nat.pow_add, show 32 - (hi + 1) + (hi + 1) = 32 by omega, Nat.add_mul, Nat.one_mul] at this
    exact this
  unfold withField
  rw [BitVec.toNat_ofNat, Nat.mod_eq_of_lt (by omega)]
  omega

theorem fieldOf_withField (w : U32) (hi lo v : Nat) (h : lo ≤ hi) (h2 : hi < 32) :
    fieldOf (withField w hi lo v) hi lo = v % 2 ^ (hi + 1 - lo) := by
  have ht := withField_toNat w hi lo v h h2
  have e : 2 ^ (hi + 1) = 2 ^ (hi + 1 - lo) * 2 ^ lo := by rw [← Nat.pow_add]; congr 1; omega
  have hl : w.toNat % 2 ^ lo < 2 ^ lo := Nat.mod_lt _ (Nat.two_pow_pos _)
  rw [fieldOf, ht, e, ← Nat.mul_assoc, ← Nat.add_mul, Nat.add_comm, Nat.add_mul_div_right _ _ (Nat.two_pow_pos _), Nat.div_eq_of_lt hl,
    Nat.zero_add, Nat.mul_comm, Nat.add_comm, Nat.add_mul_mod_self_left, Nat.mod_mod]

theorem getLsbD_eq_fieldOf (w : U32) (b : Nat) : w.getLsbD b = decide (fieldOf w b b = 1) := by
  unfold fieldOf
  rw [show b + 1 - b = 1 by omega, show 2 ^ 1 = 2 from rfl, BitVec.getLsbD, Nat.testBit_eq_decide_div_mod_eq]

/-- Every bit of a word after a field of it is replaced. -/
theorem getLsbD_withField (w : U32) (hi lo v j : Nat) (h : lo ≤ hi) (h2 : hi < 32) :
    (withField w hi lo v).getLsbD j = if lo ≤ j ∧ j ≤ hi then v.testBit (j - lo) else w.getLsbD j := by
  have hv : v % 2 ^ (hi + 1 - lo) < 2 ^ (hi + 1 - lo) := Nat.mod_lt _ (Nat.two_pow_pos _)
  have hl : w.toNat % 2 ^ lo < 2 ^ lo := Nat.mod_lt _ (Nat.two_pow_pos _)
  have e : 2 ^ (hi + 1) = 2 ^ lo * 2 ^ (hi + 1 - lo) := by rw [← Nat.pow_add]; congr 1; omega
  have ht : (withField w hi lo v).toNat =
      2 ^ lo * (2 ^ (hi + 1 - lo) * (w.toNat / 2 ^ (hi + 1)) + v % 2 ^ (hi + 1 - lo)) + w.toNat % 2 ^ lo := by
    rw [withField_toNat w hi lo v h h2, Nat.mul_add, ← Nat.mul_assoc, ← e, Nat.mul_comm (w.toNat / _), Nat.mul_comm (v % _)]
  unfold BitVec.getLsbD
  rw [ht, Nat.testBit_two_pow_mul_add _ hl, Nat.testBit_two_pow_mul_add _ hv]
  by_cases h3 : j < lo
  · rw [if_pos h3, if_neg (by omega), Nat.testBit_mod_two_pow]
    simp [h3]
  · rw [if_neg h3]
    by_cases h4 : j ≤ hi
    · rw [if_pos (by omega), if_pos (by omega), Nat.testBit_mod_two_pow]
      simp [(by omega : j - lo < hi + 1 - lo)]
    · rw [if_neg (by omega), if_neg (by omega), Nat.testBit_div_two_pow]
      congr 1; omega

theorem testBit_fieldOf (w : U32) (hi lo i : Nat) : (fieldOf w hi lo).testBit i = (decide (i < hi + 1 - lo) && w.getLsbD (lo + i)) := by
  unfold fieldOf BitVec.getLsbD
  rw [Nat.testBit_mod_two_pow, Nat.testBit_div_two_pow, Nat.add_comm i lo]

/-- A field read after another, disjoint field of its word is replaced. -/
theorem fieldOf_withField_ne (w : U32) (hi lo hi' lo' v : Nat) (h : lo ≤ hi) (h2 : hi < 32) (hd : hi' < lo ∨ hi < lo') :
    fieldOf (withField w hi lo v) hi' lo' = fieldOf w hi' lo' := by
  apply Nat.eq_of_testBit_eq
  intro i
  rw [testBit_fieldOf, testBit_fieldOf, getLsbD_withField _ _ _ _ _ h h2]
  by_cases hi1 : i < hi' + 1 - lo'
  · rw [if_neg (by omega)]
  · simp [hi1]

theorem State.bit_setFld (s : State) (hc : s.canonical) (k hi lo v j : Nat) (h : lo ≤ hi) (h2 : hi < 32) :
    (s.setFld k hi lo v).bit k j = if lo ≤ j ∧ j ≤ hi then v.testBit (j - lo) else s.bit k j := by
  unfold State.bit State.setFld
  rw [State.word_setWord_self s hc, getLsbD_withField _ _ _ _ _ h h2]

theorem State.bit_setBit_ne (s : State) (hc : s.canonical) (k b c : Nat) (v : Bool) (hb : b < 32) (h : c ≠ b) :
    (s.setBit k b v).bit k c = s.bit k c := by
  unfold State.setBit
  rw [State.bit_setFld s hc _ _ _ _ _ (Nat.le_refl b) hb, if_neg (by omega)]

theorem State.fld_setBit_ne (s : State) (hc : s.canonical) (k b hi lo : Nat) (v : Bool) (hb : b < 32) (h : hi < b ∨ b < lo) :
    (s.setBit k b v).fld k hi lo = s.fld k hi lo := by
  unfold State.fld State.setBit State.setFld
  rw [State.word_setWord_self s hc, fieldOf_withField_ne _ _ _ _ _ _ (Nat.le_refl b) hb h]

theorem State.fld_setFld_self (s : State) (hc : s.canonical) (k hi lo v : Nat) (h : lo ≤ hi) (h2 : hi < 32) :
    (s.setFld k hi lo v).fld k hi lo = v % 2 ^ (hi + 1 - lo) := by
  unfold State.fld State.setFld
  rw [State.word_setWord_self s hc, fieldOf_withField _ _ _ _ h h2]

theorem State.fld_setFld_ne (s : State) (hc : s.canonical) (k j hi lo hi' lo' v : Nat) (hj : j ≠ k) :
    (s.setFld k hi lo v).fld j hi' lo' = s.fld j hi' lo' := by
  unfold State.fld State.setFld
  rw [State.word_setWord_ne s hc _ _ _ hj]

theorem State.bit_setBit_self (s : State) (hc : s.canonical) (k b : Nat) (v : Bool) (hb : b < 32) : (s.setBit k b v).bit k b = v := by
  have h := State.fld_setFld_self s hc k b b v.toNat (Nat.le_refl b) hb
  unfold State.bit
  rw [getLsbD_eq_fieldOf]
  unfold State.fld at h
  unfold State.setBit
  rw [h, show b + 1 - b = 1 by omega]
  cases v <;> rfl

theorem State.bit_setBit_key (s : State) (hc : s.canonical) (k j b c : Nat) (v : Bool) (hj : j ≠ k) :
    (s.setBit k b v).bit j c = s.bit j c := by
  unfold State.bit State.setBit State.setFld
  rw [State.word_setWord_ne s hc _ _ _ hj]

theorem State.word_setFld_ne (s : State) (hc : s.canonical) (k j hi lo v : Nat) (hj : j ≠ k) : (s.setFld k hi lo v).word j = s.word j :=
  State.word_setWord_ne s hc _ _ _ hj

theorem State.word_setBit_ne (s : State) (hc : s.canonical) (k j b : Nat) (v : Bool) (hj : j ≠ k) : (s.setBit k b v).word j = s.word j :=
  State.word_setWord_ne s hc _ _ _ hj

theorem State.word_inc_self (s : State) (hc : s.canonical) (k : Nat) : (s.inc k).word k = satInc32 (s.word k) :=
  State.word_setWord_self s hc _ _

theorem State.word_inc_ne (s : State) (hc : s.canonical) (k j : Nat) (hj : j ≠ k) : (s.inc k).word j = s.word j :=
  State.word_setWord_ne s hc _ _ _ hj

/-! ### Bytes -/

theorem State.pmByte_setPmByte (s : State) (h : s.canonical) (a b : Nat) (v : Byte) :
    (s.setPmByte a v).pmByte b = if b = a then v else s.pmByte b := Cmap.get_put _ _ _ _ _ h.2.1

theorem State.dramByte_setDramByte (s : State) (h : s.canonical) (a b : Nat) (v : Byte) :
    (s.setDramByte a v).dramByte b = if b = a then v else s.dramByte b := Cmap.get_put _ _ _ _ _ h.2.2.1

/-! ### Files of registers -/

theorem getD_modify {α : Type} (l : List α) (i : Nat) (f : α → α) (d : α) (h : i < l.length) : (l.modify i f).getD i d = f (l.getD i d) := by
  simp [List.getD, h]

theorem getD_modify_ne {α : Type} (l : List α) (i j : Nat) (f : α → α) (d : α) (h : j ≠ i) : (l.modify i f).getD j d = l.getD j d := by
  simp [List.getD, Ne.symm h]

theorem State.port_modPort (s : State) (hc : s.canonical) (p : Fin 16) (f : PortS → PortS) : (s.modPort p f).port p = f (s.port p) :=
  getD_modify _ _ _ _ (by rw [hc.2.2.2.2.1]; exact p.isLt)

theorem State.port_modPort_ne (s : State) (p q : Nat) (f : PortS → PortS) (h : q ≠ p) : (s.modPort p f).port q = s.port q :=
  getD_modify_ne _ _ _ _ _ h

theorem State.stn_modStn (s : State) (hc : s.canonical) (k j : Nat) (f : StnS → StnS) :
    (s.modStn k f).stn j = if j = k then f (s.stn k) else s.stn j := Cmap.get_put _ _ _ _ _ hc.2.2.2.1

theorem State.stn_setStn (s : State) (hc : s.canonical) (k j : Nat) (v : StnS) :
    (s.setStn k v).stn j = if j = k then v else s.stn j := Cmap.get_put _ _ _ _ _ hc.2.2.2.1

theorem State.stn_modStn_self (s : State) (hc : s.canonical) (k : Nat) (f : StnS → StnS) : (s.modStn k f).stn k = f (s.stn k) := by
  rw [State.stn_modStn s hc, if_pos rfl]

theorem State.modStn_onlyStation (s : State) (hc : s.canonical) (k : Nat) (f : StnS → StnS) : s.onlyStation k (s.modStn k f) :=
  ⟨rfl, fun j hj => by rw [State.stn_modStn s hc, if_neg hj]⟩

theorem State.dio_modDio (s : State) (hc : s.canonical) (c : Fin 16) (f : DioS → DioS) : (s.modDio c f).dio c = f (s.dio c) :=
  getD_modify _ _ _ _ (by rw [hc.2.2.2.2.2.1]; exact c.isLt)

theorem State.cl_modCl (s : State) (hc : s.canonical) (c : Fin 8) (f : ClS → ClS) : (s.modCl c f).cl c = f (s.cl c) :=
  getD_modify _ _ _ _ (by rw [hc.2.2.2.2.2.2.1]; exact c.isLt)

theorem State.task_modTask (s : State) (hc : s.canonical) (m : Fin 32) (f : TaskS → TaskS) : (s.modTask m f).task m = f (s.task m) :=
  getD_modify _ _ _ _ (by rw [hc.2.2.2.2.2.2.2.1]; exact m.isLt)

theorem State.cu_modCu (s : State) (hc : s.canonical) (u : Fin 4) (f : CuS → CuS) : (s.modCu u f).cu u = f (s.cu u) :=
  getD_modify _ _ _ _ (by rw [hc.2.2.2.2.2.2.2.2.2.1]; exact u.isLt)

theorem State.ep_modEp (s : State) (hc : s.canonical) (n : Fin 4) (f : EpS → EpS) : (s.modEp n f).ep n = f (s.ep n) :=
  getD_modify _ _ _ _ (by rw [hc.2.2.2.2.2.2.2.2.2.2.1]; exact n.isLt)

@[simp] theorem State.port_setWord (s : State) (k : Nat) (v : U32) (p : Nat) : (s.setWord k v).port p = s.port p := rfl
@[simp] theorem State.stn_setWord (s : State) (k : Nat) (v : U32) (p : Nat) : (s.setWord k v).stn p = s.stn p := rfl
@[simp] theorem State.port_ev (s : State) (c : Nat) (n : String) (l : List Nat) (p : Nat) : (s.ev c n l).port p = s.port p := rfl
@[simp] theorem State.stn_ev (s : State) (c : Nat) (n : String) (l : List Nat) (p : Nat) : (s.ev c n l).stn p = s.stn p := rfl

end Sys2Proof.Machine
end

