-- ==== Sys2Proof/Laws/Replies.lean ====
section
/-!
SUPPORT. What a response is: the entry it leaves in its mailbox, and that nothing else of the state changes.
-/

namespace Sys2Proof.Machine

theorem State.putResp_resps (s : State) (r : MbResp) :
    ∃ l, (s.putResp r).kpr.resps = s.kpr.resps ++ [{ r with lostAt := l }] := ⟨_, rfl⟩

theorem State.putResp_kpr (s : State) (r : MbResp) :
    (s.putResp r).kpr = { s.kpr with sessions := (s.putResp r).kpr.sessions, resps := (s.putResp r).kpr.resps } := rfl

theorem State.latency_word (s : State) (h : s.canonical) (rq : Rq) (op k : Nat) (hk : k ≠ P.kprMbLatMax rq.mb) :
    (s.latency rq op).word k = s.word k := by
  unfold State.latency State.maxWord
  split
  · split
    · exact State.word_setWord_ne s h _ _ _ hk
    · rfl
  · rfl

theorem State.tally_word (s : State) (h : s.canonical) (mb st k : Nat) (h1 : k ≠ P.kprMbReq mb) (h2 : k ≠ P.kprMbFail mb) :
    (s.tally mb st).word k = s.word k := by
  unfold State.tally State.when
  split
  · rw [State.word_inc_ne _ (State.inc_canonical s _ h) _ _ h2, State.word_inc_ne s h _ _ h1]
  · rw [State.word_inc_ne s h _ _ h1]

/-- A direct answer leaves its response in the mailbox and changes nothing but what answering changes. -/
theorem State.respond_replies (s : State) (h : s.canonical) (rq : Rq) (hm : rq.mb ≠ 4) (op st d : Nat) (data : List Byte) :
    s.replies (s.respond rq op st d data) rq op st d data := by
  have e : (s.respond rq op st d data).kpr =
      { ((s.latency rq op).putResp (respOf rq op false (respBytes st d data))).kpr with
        reqs := dropReq rq op ((s.latency rq op).putResp (respOf rq op false (respBytes st d data))).kpr.reqs } := by
    unfold State.respond State.post
    rw [if_neg hm, State.tally_kpr]
  have lk : (s.latency rq op).kpr = s.kpr := by simp
  refine ⟨?_, ?_, ?_, ?_⟩
  · obtain ⟨l, hl⟩ := State.putResp_resps (s.latency rq op) (respOf rq op false (respBytes st d data))
    refine ⟨{ respOf rq op false (respBytes st d data) with lostAt := l }, ?_, ⟨rfl, rfl, rfl, rfl, rfl, rfl⟩⟩
    rw [e]
    show _ ∈ ((s.latency rq op).putResp (respOf rq op false (respBytes st d data))).kpr.resps
    rw [hl]
    simp
  · have hs : (s.respond rq op st d data).sync = s.sync := by
      unfold State.respond State.post
      rw [if_neg hm, State.tally_sync]
      show ((s.latency rq op).putResp (respOf rq op false (respBytes st d data))).sync = s.sync
      rw [State.putResp_sync, State.latency_sync]
    have : ∀ t : State, t.pending = s.pending → t.pm = s.pm → t.dram = s.dram → t.free = s.free → t.time = s.time → t.sys = s.sys →
        t.pair = s.pair → t.sync = s.sync → t.ports = s.ports → t.stns = s.stns → t.prog = s.prog → t.change = s.change →
        t.loop = s.loop → t.recorder = s.recorder → t.fio = s.fio → t.acq = s.acq → t.gauge = s.gauge → t.replay = s.replay →
        t.img = s.img → t.eps = s.eps → t.maint = s.maint → t = { s with kpr := t.kpr, words := t.words } := by
      intro t; cases t; cases s; simp_all
    apply this <;> first | exact hs | simp
  · rw [e]
    show _ = _
    rw [State.putResp_kpr, lk]
  · intro k hk
    simp only [mbWords, List.mem_cons, List.not_mem_nil, or_false, not_or] at hk
    unfold State.respond State.post
    rw [if_neg hm]
    rw [State.tally_word _ _ _ _ _ hk.1 hk.2.1]
    · show (s.latency rq op).word k = s.word k
      exact State.latency_word s h rq op k hk.2.2
    · have hc := State.putResp_canonical (s.latency rq op) (respOf rq op false (respBytes st d data)) (State.latency_canonical s rq op h)
      exact hc

/-- An interim answer leaves its response in the mailbox and changes nothing else but the request's entry. -/
theorem State.accept_accepts (s : State) (rq : Rq) (hm : rq.mb ≠ 4) (op : Nat) (data : List Byte) :
    s.accepts (s.accept rq op data) rq op data := by
  have e : (s.accept rq op data).kpr =
      { (s.putResp (respOf rq op true (respBytes St.accepted 0 data))).kpr with
        reqs := (s.accept rq op data).kpr.reqs } := by
    unfold State.accept State.post
    rw [if_neg hm]
  refine ⟨?_, ?_, ?_⟩
  · obtain ⟨l, hl⟩ := State.putResp_resps s (respOf rq op true (respBytes St.accepted 0 data))
    refine ⟨{ respOf rq op true (respBytes St.accepted 0 data) with lostAt := l }, ?_, ⟨rfl, rfl, rfl, rfl, rfl, rfl⟩⟩
    rw [e]
    show _ ∈ (s.putResp (respOf rq op true (respBytes St.accepted 0 data))).kpr.resps
    rw [hl]
    simp
  · unfold State.accept State.post
    rw [if_neg hm]
    rfl
  · rw [e, State.putResp_kpr]

/-- A command that its mailbox, the main domain and the mode admit is carried out. -/
theorem State.cmd_runs (s : State) (rq : Rq) (op : Nat) (mbs : List Nat) (main ok : Bool) (f : State → State) (h : rq.onAny mbs = true)
    (hm : main = true → s.coreUp = true) (ho : ok = true) : s.cmd rq op mbs main ok f = f s := by
  unfold State.cmd
  cases main <;> simp_all

end Sys2Proof.Machine
end

