-- ==== Sys2Proof/WellFormed.lean ====
section
/-!
DEFINITION. When a command is well formed: what it brings has the sizes and ranges that the spec gives. `step` carries out every command,
so that a malformed message has the effect the spec gives it; a sender in its right mind sends well-formed ones.
-/

namespace Sys2Proof

open Machine

namespace Machine

/-- A requester: the partner's relayed requests and the Keeper's own carry no session (R436). -/
def requester (rq : Rq) : Bool := !(rq.mb == 4 || rq.mb == 7) || rq.session == 0

/-- A requester on an external mailbox (R436). -/
def externalRq (rq : Rq) : Bool := !(rq.mb == 4 || rq.mb == 7)

/-- A frame of 4 to 1,536 bytes after its start (R94). -/
def RxFrame.wellFormed (f : RxFrame) : Bool := !f.bytes.isEmpty && decide (f.bytes.length ≤ 1536)

/-- A management request: `MCMD`, `MTAG` and what follows (R107). -/
def MReq.wellFormed (r : MReq) : Bool := decide (2 ≤ r.payload.length) && decide (r.payload.length ≤ 255)

/-- What a run leaves lies in its ranges (R170, R178): output words in the output images, at most 20 words in an entry. -/
def RunEffects.wellFormed (e : RunEffects) : Bool :=
  e.outs.all (fun x => decide (x.1 % 8 = 0) && decide (x.1 < 0x100000)) && e.txqPuts.all (fun x => decide (x.2.2.length ≤ 20)) &&
    e.outbox.all fun m => decide (m.length ≤ 4096)

/-- A snapshot of 16 digital and 8 current channels and 6 groups (R270). -/
def Snap.wellFormed (x : Snap) : Bool := x.dio.length == 16 && x.cl.length == 8 && x.sag.length == 6

/-- An EXCH payload (R291). -/
def Exch.wellFormed (x : Exch) : Bool := x.snap.wellFormed && decide (x.done < 2 ^ 32) && decide (x.ctl.length ≤ 8)

/-- A BEAT payload (R293). -/
def Beat.wellFormed (b : Beat) : Bool :=
  b.progHash.length == 8 && b.cfgHash.length == 8 && b.stateDigest.length == 32 && decide (b.mask < 2 ^ 17) && decide (b.wireMask < 2 ^ 16)

/-- A record of an RX frame (R290). -/
def RxRecord.wellFormed (r : RxRecord) : Bool := decide (r.kind < 16) && decide (r.data.length ≤ 128)

/-- The result of a release step (R424): sets of four EPs and sixteen ports, six groups. -/
def StepRes.wellFormed (r : StepRes) : Bool := decide (r.epFail < 16) && decide (r.calFail < 2 ^ 16) && decide (r.volts.length ≤ 6)

/-- What a period meets (R431, R432): 32 samples, the four thresholds of two transceivers, two ports. -/
def Period.wellFormed (p : Period) : Bool :=
  p.samples.length == 32 && p.xcvr.length == 8 && p.links.length == 2 && p.rxErr.length == 2

end Machine

/-- A well-formed command. (DESIGN CHOICE, log entry 96) -/
def Instr.wellFormed (c : Instr) : Bool :=
  match c with
  | .resetPor _ => true
  | .resetBor _ _ => true
  | .resetPin _ _ => true
  | .resetWdt _ _ => true
  | .resetSwr _ => true
  | .resetClkf _ _ => true
  | .resetLockup _ _ => true
  | .deferredRelease _ r => r.wellFormed
  | .deferredReleaseTimeout _ => true
  | .clkfReleaseRetry _ r => r.wellFormed
  | .clkFallback => true
  | .keeperDomainRelease k => decide (k.bankOk < 4)
  | .bootReleaseStep r => r.wellFormed
  | .activationCopy _ _ => true
  | .bootEnd => true
  | .mateBreak => true
  | .mainsLoss => true
  | .swapLeverOut => true
  | .swapLeverIn => true
  | .regionReset _ _ => true
  | .regionRelease _ => true
  | .regionInitDone _ _ volts => decide (volts.length ≤ 4)
  | .modeTransition => true
  | .tickBoundary dev differs cl _ => decide (dev.length ≤ 16) && decide (cl.length ≤ 8) && decide (differs < 2 ^ 16)
  | .tailBeaconLaunch _ _ => true
  | .tailBroadcastLaunch _ _ => true
  | .loopWindow loops gens groups _ => loops.all (decide <| · < 1024) && gens.all (decide <| · < 256) && groups.all (decide <| · < 128)
  | .programWindowOpen meas => meas.all fun x => decide (x.1 < 32)
  | .runFinish _ eff => eff.wellFormed
  | .outputCut _ volts => volts.length == 6
  | .partnerExchReceive _ x => x.wellFormed
  | .exchTimeout => true
  | .beatLaunch _ _ => true
  | .partnerBeatReceive _ _ b => b.wellFormed
  | .tickEndDigest reached _ => decide (reached < 16)
  | .exchangeWindowEnd _ _ => true
  | .intakeMiss _ => true
  | .rxRecordReceive _ records => records.all RxRecord.wellFormed
  | .msgFrameReceive _ _ _ _ => true
  | .xferFrameReceive _ addr _ _ data => data.length == 1024 && decide (addr % 4096 = 0)
  | .linkUnusable _ => true
  | .linkUsable _ => true
  | .heartbeatLost => true
  | .alignFault => true
  | .ptpMessageReceive _ => true
  | .ptpHoldover => true
  | .lockstepMismatch _ => true
  | .guardAccessRefused _ _ _ _ _ _ => true
  | .withdrawal => true
  | .divergenceOutcome => true
  | .takeover => true
  | .listenAloneExpire => true
  | .claimSuspect _ => true
  | .localDisagree _ => true
  | .handoverTick => true
  | .hoConfirmTimeout => true
  | .hoAckTimeout => true
  | .withdraw _ => true
  | .verdict _ _ => true
  | .chgPropose _ hash seed => hash.length == 32 && seed.length == 32
  | .chgAck _ => true
  | .chgNak _ _ => true
  | .chgConfirm _ => true
  | .chgAckTimeout => true
  | .chgConfirmTimeout => true
  | .hoPropose _ => true
  | .hoAck _ => true
  | .hoConfirm _ => true
  | .action _ _ _ => true
  | .changeCommitTick => true
  | .changeSaveDone => true
  | .retainSave => true
  | .retainSaveDone => true
  | .forceEffect => true
  | .pairChangeEffect => true
  | .relayChangeReceive _ _ _ => true
  | .relayAckTimeout => true
  | .relayedRequest _ opcode payload => decide (opcode < 2 ^ 16) && decide (payload.length ≤ 262144)
  | .maintRecordReceive _ ports => decide (ports.length ≤ 10)
  | .joinReq => true
  | .joinReqSend => true
  | .joinAccept _ => true
  | .resyncEnter => true
  | .joinAcceptTimeout => true
  | .copyPassEnd _ _ => true
  | .cutTick => true
  | .cut _ => true
  | .catchupTick items runs => items.exch.wellFormed && items.beat.wellFormed && runs.all fun x => x.2.wellFormed
  | .catchupTimeout => true
  | .ready _ => true
  | .join _ => true
  | .readyTimeout => true
  | .joinTick => true
  | .joinAbandon _ => true
  | .resyncAbandon _ => true
  | .resyncRetry => true
  | .trunkBeaconReceive _ f => f.wellFormed
  | .rateDwellExpire _ => true
  | .slotFrameReceive _ i f _ => f.wellFormed && decide (i < 512)
  | .partnerBroadcastReceive _ f => f.wellFormed
  | .eventFrameReceive _ _ f => f.wellFormed
  | .mgmtReplyReceive _ _ f => f.wellFormed
  | .rangingReplyReceive _ _ f _ => f.wellFormed
  | .trainingFrameReceive _ i f _ => f.wellFormed && decide (i < 512)
  | .lineActivityNoStart _ _ _ => true
  | .backgroundCalibration _ _ => true
  | .calStale _ => true
  | .eqRetrainEnd _ => true
  | .breakDeclare _ => true
  | .breakClear _ => true
  | .tdrRun _ _ => true
  | .tdrWaitTimeout _ => true
  | .schedSwitch _ => true
  | .eventRound _ _ others => others.all fun x => decide (x.1 < 256)
  | .eventRoundFramePhase _ => true
  | .txqEntrySend _ => true
  | .keeperStationRequest _ => true
  | .stationDistributionFrame _ => true
  | .updVerifyPoll _ => true
  | .stnAbsentTimeout _ => true
  | .stnVerifyTimeout _ => true
  | .stnActivateTimeout _ => true
  | .stationRateSearch _ _ _ => true
  | .stationBeaconReceive _ _ f => f.wellFormed
  | .stationClaimLearned _ _ => true
  | .stationBroadcastReceive _ _ f => f.wellFormed
  | .stationOutputApply _ _ => true
  | .stationOutputTimeout _ _ => true
  | .stationHoldoverExpire _ _ => true
  | .stationBeaconLoss _ _ => true
  | .stationInputLaunch _ _ _ _ _ => true
  | .stationAnnounceNoAnswer _ _ => true
  | .stationHushExpire _ _ => true
  | .stationJabber _ _ => true
  | .stationRangingReply _ _ f => f.wellFormed
  | .identify _ _ r => r.wellFormed
  | .setAddr _ _ r => r.wellFormed
  | .cfgSlots _ _ r => r.wellFormed
  | .cfgTiming _ _ r => r.wellFormed
  | .cfgCommit _ _ r => r.wellFormed
  | .readDiag _ _ r => r.wellFormed
  | .quarantine _ _ r => r.wellFormed
  | .release _ _ r => r.wellFormed
  | .hush _ _ r => r.wellFormed
  | .stationProfileCommand _ _ r _ _ _ _ _ => r.wellFormed
  | .updateFrame _ _ r _ => r.wellFormed
  | .updBegin _ _ r => r.wellFormed
  | .updVerify _ _ r _ => r.wellFormed
  | .updActivate _ _ r => r.wellFormed
  | .stationBankSwitch _ _ => true
  | .stationHealthFallback _ _ => true
  | .dioSample _ _ _ => true
  | .dioOverload _ _ => true
  | .dioOpen _ => true
  | .groupWarning _ => true
  | .groupOff _ => true
  | .groupRecovering _ => true
  | .groupNormal _ => true
  | .groupOverload _ => true
  | .clComplianceSet _ => true
  | .clComplianceClear _ => true
  | .clLiveZero _ => true
  | .hartReplyReceive _ _ long _ _ data => long.length == 5 && decide (data.length ≤ 255)
  | .hartBurstFrame _ => true
  | .captureTrigger _ _ _ => true
  | .segmentClose _ _ => true
  | .maskViolation _ _ _ _ others => decide (others.length ≤ 4)
  | .captureOverrun _ _ => true
  | .gaugeSnapshot => true
  | .gaugeSnapshotDone _ => true
  | .gaugeFold => true
  | .gaugeWindowCopyDone => true
  | .replayTick effects digest _ _ _ => effects.all (fun x => decide (x.1 < 32) && x.2.wellFormed) && digest.length % 8 == 0
  | .housekeepingPeriod p => p.wellFormed
  | .keeperWatchdogExpire => true
  | .sensorWarning _ => true
  | .sensorAlarm _ => true
  | .sensorClear _ => true
  | .lifeSave => true
  | .tokenRefill => true
  | .recorderScan _ => true
  | .healthWindowExpire => true
  | .healthAutoConfirm => true
  | .transferExpire => true
  | .mailboxMessageReceive _ _ _ _ _ _ _ payload => decide (payload.length ≤ 4096)
  | .sessionExpire _ => true
  | .connectionLost _ _ => true
  | .prgMsgOut => true
  | .sessionOpen rq _ _ payload _ _ => externalRq rq && payload.length == 1604 + 164 + 29792 || externalRq rq && payload.length == 1604 + 164 + 49856
  | .sessionProve rq _ payload _ => externalRq rq && (payload.length == 29792 || payload.length == 49856)
  | .sessionClose rq => externalRq rq
  | .keyInstall rq _ _ key _ => requester rq && key.length == 64
  | .keyRevoke rq _ => requester rq
  | .echo rq _ => externalRq rq
  | .paramRead rq ids => requester rq && decide (0 < ids.length) && decide (ids.length ≤ 256)
  | .paramWrite rq items => requester rq && decide (0 < items.length) && decide (items.length ≤ 64)
  | .tableRead rq _ _ _ => requester rq
  | .tableWrite rq _ _ entries => requester rq && !entries.isEmpty
  | .cntClear rq _ => requester rq
  | .tableInfo rq _ => requester rq
  | .guardArm rq _ => requester rq
  | .guardSwitch => true
  | .modeRun rq => requester rq
  | .modeRequest rq _ => requester rq
  | .sysRestart rq _ => requester rq
  | .sysRegionReset rq _ => requester rq
  | .timeStep rq _ => requester rq
  | .trkCommission rq _ _ addrs => requester rq && decide (addrs.length ≤ 192)
  | .trkTdr rq _ => requester rq
  | .trkAssign rq _ _ _ => requester rq
  | .trkRelease rq _ _ => requester rq
  | .schedCommit rq _ tick => requester rq && decide (tick < 2 ^ 64)
  | .prgChangeStage rq obj _ _ => requester rq && obj.length == 32
  | .prgChangeCommit rq tick => requester rq && decide (tick < 2 ^ 64)
  | .prgChangeDiscard rq => requester rq
  | .prgForceCommit rq => requester rq
  | .prgForceClear rq => requester rq
  | .prgTaskResume rq _ => requester rq
  | .prgMsgSend rq msg => requester rq && decide (msg.length ≤ 4096)
  | .pairHandover rq => requester rq
  | .pairWithdraw rq => requester rq
  | .pairRejoin rq => requester rq
  | .pairClaimRaise rq _ => requester rq
  | .chkProofRestart rq => requester rq
  | .chkFaultClear rq => requester rq
  | .dbgHalt rq _ => requester rq
  | .dbgResume rq _ => requester rq
  | .dbgStep rq _ _ => requester rq
  | .dbgRegRead rq _ _ _ => requester rq
  | .dbgRegWrite rq _ _ _ => requester rq
  | .dbgMemRead rq _ _ _ => requester rq
  | .dbgMemWrite rq _ _ data => requester rq && decide (data.length ≤ 4084)
  | .dbgBreak rq _ _ _ _ => requester rq
  | .dbgReset rq _ => requester rq
  | .dbgTraceRead rq _ _ => requester rq
  | .fioManual rq _ _ => requester rq
  | .fioGroupAck rq _ => requester rq
  | .fioHartScan rq _ => requester rq
  | .fioHartXfer rq _ _ long data => requester rq && long.length == 5 && decide (data.length ≤ 255)
  | .acqArm rq _ => requester rq
  | .acqStop rq _ _ => requester rq
  | .acqTrigger rq _ => requester rq
  | .acqExport rq _ _ _ => requester rq
  | .gaugeMark rq => requester rq
  | .gaugeProtect rq _ _ => requester rq
  | .gaugeExport rq _ offset _ => requester rq && decide (offset < 2 ^ 64)
  | .replayLoad rq hash _ _ => requester rq && hash.length == 32
  | .replayStart rq _ tick => requester rq && decide (tick < 2 ^ 64)
  | .replayStop rq => requester rq
  | .recRead rq _ _ _ => requester rq
  | .recSubscribe rq _ => requester rq
  | .recUser rq _ _ _ _ vals => requester rq && decide (vals.length ≤ 12)
  | .recScan rq => requester rq
  | .imgXferOpen rq _ _ hash => requester rq && hash.length == 32
  | .imgXferData rq _ _ data => requester rq && decide (data.length ≤ 262128)
  | .imgXferClose rq _ => requester rq
  | .imgXferDrop rq hash => requester rq && hash.length == 32
  | .imgStage rq hash _ => requester rq && hash.length == 32
  | .imgChamberClear rq => requester rq
  | .imgActivate rq => requester rq
  | .imgConfirm rq => requester rq
  | .imgRevert rq => requester rq
  | .imgInstall rq hash _ _ _ => requester rq && hash.length == 32
  | .attest rq nonce _ => requester rq && nonce.length == 32
  | .identityRead rq => requester rq
  | .stnStage rq hash _ _ => requester rq && hash.length == 32
  | .stnStart rq _ => requester rq
  | .stnStop rq _ => requester rq
  | .stnDiscard rq hash => requester rq && hash.length == 32
  | .ton _ _ _ _ => true
  | .tof _ _ _ _ => true
  | .tp _ _ _ _ => true
  | .ctu _ _ _ _ _ => true
  | .ctd _ _ _ _ _ => true
  | .ctud _ _ _ _ _ _ _ => true
  | .rTrig _ _ _ => true
  | .fTrig _ _ _ => true
  | .sbTime _ => true
  | .sbTaskInfo _ => true
  | .sbStationState _ _ _ => true
  | .sbRxqGet _ _ _ => true
  | .sbRxqAck _ _ _ => true
  | .sbTxqSubmit _ _ _ words => decide (words.length ≤ 20)
  | .sbTxqGet _ _ _ _ => true
  | .sbMbxRecv _ _ => true
  | .sbMbxSend _ msg => decide (msg.length ≤ 4096)
  | .sbRand _ => true
  | .mainsReturn => true
  | .hartReplyTimeout _ => true
  | .dioOpenClear _ => true
  | .stationJabberRelease _ _ => true
  | .stationHealthConfirmed _ _ => true
  | .stationBeaconMissed _ _ => true

end Sys2Proof
end

