-- ==== Sys2Proof/Tests/Slice0.lean ====
section
/-!
SUPPORT. The model's own tests: ill-formed commands that WellFormed refuses, a witness for the hypotheses of each clause of each
statement, at the bounds of their ranges, and single commands with results worked out from the spec by hand.
-/

set_option Elab.async false

namespace Sys2Proof.Tests

open Sys2Proof.Machine

/-! ### States to test on -/

/-- A module at work in a mode, its firmware of levels 1, with everything else as reset leaves it. -/
def base (m : Mode) : State :=
  { (State.reset.setWord (bankKey 1 0) (0x18000000#32)).setWord (bankKey 1 5) 0x01010101 with sys := { State.reset.sys with mode := m, keeperUp := true, diesUp := 15, boot := [] } }

/-- Soundness, in the form that evaluates. -/
theorem canon_iff (s : State) : s.canonical ↔ (Cmap.wf dfltWord s.words && Memory.wf s.pm && Memory.wf s.dram &&
    Cmap.wf (fun _ => StnS.fresh) s.stns && s.ports.length == 16 && s.fio.dio.length == 16 && s.fio.cl.length == 8 &&
    s.prog.tasks.length == 32 && s.prog.running.length == 4 && s.acq.units.length == 4 && s.eps.length == 4 &&
    s.kpr.sensors.length == 32) = true := by
  simp [State.canonical, and_assoc]

/-- Requests: over MB0, MB2, MB5, MB6 and MB7, and relayed by the partner over MB4. -/
def rq0 : Rq := ⟨0, 0x1234, 1⟩
def rq1 : Rq := ⟨1, 0, 1⟩
def rq2 : Rq := ⟨2, 0xFFFF, 7⟩
def rq3 : Rq := ⟨3, 3, 1⟩
def rq4 : Rq := ⟨4, 4, 0⟩
def rq5 : Rq := ⟨5, 5, 1⟩
def rq6 : Rq := ⟨6, 6, 1⟩
def rq7 : Rq := ⟨7, 7, 0⟩

/-! ### The commands' queue, and words -/

theorem witness_EmptyQueueIdles : State.reset.pending = [] := rfl

theorem witness_ReadAfterWrite : (base .lead).canonical ∧ 0 ≤ 31 ∧ 31 < 32 ∧ (28 < 5 ∨ 28 > 27) := by
  simp only [canon_iff]; decide +kernel

theorem witness_EveryStepKeepsCanonical :
    { base .hold with pending := [Instr.sensorClear 31] }.canonical ∧
      ∃ t, step { base .hold with pending := [Instr.sensorClear 31] } = .next t := by
  exact ⟨by simp only [canon_iff]; decide +kernel, _, rfl⟩

/-! ### Stations -/

/-- Station 77 on trunk 15 in a module that leads. -/
def stnAt (x : StnS) : State := (base .lead).setStn (stnKey 15 77) x

/-- A station at address 0xC0, the highest, that has found its rate and LEARNED H = 7, with part 3 in position 0. -/
def stnUp : StnS :=
  { StnS.fresh with addr := 0xC0, rateFound := true, learned := true, claimHigh := 7, beacons := 2, rotEq := 15, seq := 255,
                    cur := { StnCfg.none with entries := [⟨0, 3, 0, false, 0⟩] } }

def frameOf (b : Beacon) : RxFrame := ⟨b.bytes, true, true, 1000⟩
def bcastOf (b : Bcast) : RxFrame := ⟨b.bytes, true, false, 1000⟩
def beaconOf (seq : U8) (claim : U32) : Beacon := ⟨false, false, false, false, 2, seq, 0, 125000, claim⟩
def castOf (seq : U8) (claim : U32) : Bcast := ⟨false, false, false, seq, claim, [5]⟩

theorem witness_StationTimers :
    (stnAt StnS.fresh).canonical ∧ ((stnAt StnS.fresh).stn (stnKey 15 77)).addr = 0xFF ∧
    ((stnAt StnS.fresh).stn (stnKey 15 77)).rateFound = false ∧
    (stnAt stnUp).canonical ∧ ((stnAt stnUp).stn (stnKey 15 77)).rateFound = true ∧
    (stnAt { stnUp with missed := 5 }).canonical ∧ 5 ≤ ((stnAt { stnUp with missed := 5 }).stn (stnKey 15 77)).missed ∧
    (stnAt { stnUp with missed := 32 }).canonical ∧ 32 ≤ ((stnAt { stnUp with missed := 32 }).stn (stnKey 15 77)).missed := by
  simp only [canon_iff]; decide +kernel

/-- A claim 2 below H = 7 is refused, one 1 below is accepted (R137, R138); SEQ 254 is neither 255 nor 0. -/
theorem witness_StationClaims :
    (stnAt stnUp).canonical ∧ (stnAt stnUp).stn (stnKey 15 77) = stnUp ∧ stnUp.rateFound = true ∧ stnUp.learned = true ∧
    stnUp.silent = false ∧ stnUp.taken = false ∧ stnUp.quarantined = false ∧
    (frameOf (beaconOf 254 7)).beacon = some (beaconOf 254 7) ∧ (beaconOf 254 7).seq ≠ stnUp.seq ∧
      (beaconOf 254 7).seq ≠ stnUp.seq + 1 ∧
    (frameOf (beaconOf 255 5)).beacon = some (beaconOf 255 5) ∧ (beaconOf 255 5).seq = stnUp.seq ∧ sdiff32 5 stnUp.claimHigh < -1 ∧
    (frameOf (beaconOf 255 6)).beacon = some (beaconOf 255 6) ∧ -1 ≤ sdiff32 6 stnUp.claimHigh ∧ (beaconOf 255 6).tail = false ∧
    (bcastOf (castOf 255 5)).bcast = some (castOf 255 5) ∧ (castOf 255 5).seq = stnUp.seq ∧
    (bcastOf (castOf 255 6)).bcast = some (castOf 255 6) ∧
    (stnAt { stnUp with learned := false, learnCycles := 1, learnNow := true, learnHeard := some 9 }).canonical ∧
      2 ≤ 1 + (true : Bool).toNat := by
  simp only [canon_iff]; decide +kernel

theorem witness_StationFrames :
    (stnAt { stnUp with stagedOut := [(125000, [(3, 5)])] }).canonical ∧
    (stnAt { stnUp with missedOutputs := 3 }).canonical ∧ stnUp.cur.outTimeout ≤ 3 ∧ stnUp.hold = false ∧
    (stnAt stnUp).canonical ∧ (stnUp.cur.entries.any fun e => e.pos == stnUp.pos && e.part == 3 && !e.noInput) = true ∧
    stnUp.mayLaunch = true ∧ stnUp.mayDrive = true ∧ stnUp.quarantined = false ∧
    (let f : RxFrame := ⟨withCrc [0x70, 0xC0, 255, 0], true, false, 0⟩
     f.codeOk = true ∧ f.crcOk = true ∧ f.type = 7 ∧ f.byte 1 = stnUp.addr) := by
  simp only [canon_iff]; decide +kernel

/-- Management requests to the station at 0xC0, and to strangers, from MCMD on. -/
def toStn (payload : List Byte) : MReq := ⟨0xC0, payload⟩

theorem witness_StationManagement :
    (stnAt stnUp).canonical ∧ (stnAt stnUp).stn (stnKey 15 77) = stnUp ∧
    stnUp.takes 77 (toStn [1, 0]) ∧
    stnUp.takes 77 (toStn [2, 0, 0xC0, 0, 0, 0, 77]) ∧ (toStn [2, 0, 0xC0, 0, 0, 0, 77]).be 3 4 = (77#32).toNat ∧
      1 ≤ (toStn [2, 0, 0xC0, 0, 0, 0, 77]).byte 2 ∧ (toStn [2, 0, 0xC0, 0, 0, 0, 77]).byte 2 ≤ 0xC0 ∧
    stnUp.takes 77 (toStn [3, 0, 7]) ∧ 1 ≤ (toStn [3, 0, 7]).byte 2 ∧ (toStn [3, 0, 7]).byte 2 ≤ 7 ∧
    stnUp.takes 77 (toStn [4, 0, 16, 15]) ∧ 1 ≤ (toStn [4, 0, 16, 15]).byte 2 ∧ (toStn [4, 0, 16, 15]).byte 2 ≤ 16 ∧
      1 ≤ (toStn [4, 0, 16, 15]).byte 3 ∧ (toStn [4, 0, 16, 15]).byte 3 ≤ 15 ∧
    (stnAt { stnUp with slotsIn := [(1, ⟨0, 1, 0, false, 0⟩), (0, ⟨0, 0, 0, false, 0⟩)] }).canonical ∧
      ({ stnUp with slotsIn := [(1, ⟨0, 1, 0, false, 0⟩), (0, ⟨0, 0, 0, false, 0⟩)] } : StnS).takes 77 (toStn [5, 0, 2]) ∧
      (toStn [5, 0, 2]).byte 2 = 2 ∧ noClash [⟨0, 0, 0, false, 0⟩, ⟨0, 1, 0, false, 0⟩] = true ∧ stnUp.rotMask = 0 ∧
    stnUp.takes 77 (toStn [7, 0, 0, 0, 0, 0, 77]) ∧ (toStn [7, 0, 0, 0, 0, 0, 77]).be 3 4 = (77#32).toNat ∧
    stnUp.takes 77 (toStn [0x40, 0]) ∧ 0x40 ≤ (toStn [0x40, 0]).mcmd ∧ (toStn [0x7F, 0]).mcmd ≤ 0x7F ∧
    (let q : StnS := { stnUp with quarantined := true }
     (stnAt q).canonical ∧ q.isRepeat 77 (toStn [8, 0, 0, 0, 0, 0, 77]) = false ∧ (toStn [8, 0, 0, 0, 0, 0, 77]).addr.toNat = q.addr) ∧
    (let q : StnS := { stnUp with addr := 0xFF }
     (stnAt q).canonical ∧ q.rateFound = true ∧ q.quarantined = false ∧ (⟨0xFF, [9, 0, 1, 0, 0, 0, 77]⟩ : MReq).be 3 4 = (77#32).toNat ∧
       (⟨0xFF, [9, 0, 1, 0, 0, 0, 77]⟩ : MReq).byte 2 ≠ 0) ∧
    (let q : StnS := { stnUp with lastReq := some (0xC0, 9) }
     (stnAt q).canonical ∧ q.isRepeat 77 (toStn [7, 9]) = true ∧ q.mayDrive = true) := by
  simp only [canon_iff, StnS.takes]; decide +kernel

theorem witness_StationUpdate :
    (stnAt stnUp).canonical ∧ stnUp.takes 77 (toStn [0x0A, 0]) ∧ stnUp.upd = none ∧
    (let u : StnUpd := ⟨5, 1, 2, 1, [], [], true, true⟩
     let x : StnS := { stnUp with upd := some u }
     let r := toStn [0, 5, 0xFF, 0xFE, 0, 0, 0, 0]
     (stnAt x).canonical ∧ r.addr.toNat = x.addr ∧ u.session = r.be 0 2 ∧ r.be 2 2 ≠ 0xFFFF ∧
       updLength 256 ((r.payload.drop 8).take (r.byte 6)) 0 = some 0 ∧ r.be 4 2 = u.fillOf (r.be 2 2) ∧
       x.takes 77 (toStn [0x0B, 0, 0, 5]) ∧ u.session = (toStn [0x0B, 0, 0, 5]).be 2 2 ∧ u.verified = true ∧ u.switching = true) ∧
    (stnAt { stnUp with onTrial := true }).canonical := by
  simp only [canon_iff, StnS.takes]; decide +kernel

/-! ### Local inputs and outputs, HART -/

/-- Channel 15 a filtered input with period 10 and CEIL 3, channel 0 an output with OPEN_DET, loops 0 a source and 7 measuring. -/
def fioAt : State :=
  ((((((base .service).setFld (dioKey 15) 31 30 1).setFld (dioKey 15) 9 0 10).setFld (dioKey 15) 23 16 3).setFld (dioKey 0) 31 30 2).setBit
    (dioKey 0) 27 true).setFld (clKey 0 0) 31 29 1 |>.setFld (clKey 7 0) 31 29 4 |>.setBit (clKey 7 0) 28 true |>.setBit (clKey 7 0) 26 true

def fioOn : State := { fioAt with fio.dio := { DioS.fresh with on := true } :: List.replicate 14 DioS.fresh ++ [{ DioS.fresh with reload := false, c := 2 }] }

theorem witness_DigitalSample :
    fioAt.canonical ∧ fioAt.dioMode 15 = 1 ∧ fioAt.groupValid (15 / 4) = true ∧ 20000 % (fioAt.fld (dioKey 15) 9 0 * 1000) = 0 ∧
    (fioAt.dio 15).reload = true ∧ fioOn.canonical ∧ fioOn.dioMode 15 = 1 ∧ fioOn.groupValid (15 / 4) = true ∧
    20000 % (fioOn.fld (dioKey 15) 9 0 * 1000) = 0 ∧ (fioOn.dio 15).reload = false := by
  simp only [canon_iff]; decide +kernel

theorem witness_OpenDetection :
    fioOn.canonical ∧ fioOn.dioMode 0 = 2 ∧ (fioOn.dio 0).on = true ∧ fioOn.bit (dioKey 0) 27 = true ∧
    fioOn.bit (chKey 0 0) 29 = false := by
  simp only [canon_iff]; decide +kernel

/-- Every group state of R355 in turn, on the last digital and the last current group. -/
theorem witness_OverloadAndGroups :
    fioOn.canonical ∧ fioOn.dioMode 0 = 2 ∧ (fioOn.dio 0).on = true ∧
    fioOn.groupUp 5 = true ∧ fioOn.sag 5 = 0 ∧ fioOn.groupUp 3 = true ∧ fioOn.bit (grpKey 3 0) 24 = false ∧
    (fioOn.setFld (grpKey 5 0) 27 26 2).canonical ∧ (fioOn.setFld (grpKey 5 0) 27 26 2).sag 5 = 2 ∧
    (fioOn.setFld (grpKey 3 0) 27 26 3).canonical ∧ (fioOn.setFld (grpKey 3 0) 27 26 3).groupUp 3 = true ∧
      (fioOn.setFld (grpKey 3 0) 27 26 3).sag 3 = 3 := by
  simp only [canon_iff]; decide +kernel

theorem witness_CurrentLoopFaults :
    fioAt.canonical ∧ fioAt.clSource 0 = true ∧ fioAt.groupUp (4 + 0 / 4) = true ∧ fioAt.clMeasure 7 = true ∧
    fioAt.bit (clKey 7 0) 28 = true ∧
    (let s := { fioAt with fio.cl := List.replicate 7 ClS.fresh ++ [{ ClS.fresh with lowRun := 8 }] }
     s.canonical ∧ 8 ≤ (s.cl 7).lowRun ∧ s.clMeasure 7 = true) ∧
    (let s := { fioAt.setWord P.pairDisagreeTicks 3 with pair.disagreeRun := List.replicate 23 0 ++ [3] }
     s.canonical ∧ (s.word P.pairDisagreeTicks).toNat ≤ s.pair.disagreeRun.getD 23 0 ∧ s.bit (plKey 23 0) 25 = false) := by
  simp only [canon_iff]; decide +kernel

theorem witness_FieldCommands :
    fioAt.canonical ∧ fioAt.coreUp = true ∧ rq0.over [0, 1] ∧ rq0.over [0] ∧ rq2.over [0, 1, 2] ∧ rq7.over [0] ∧ fioAt.groupUp 5 = true ∧
    fioAt.sag 5 = 0 ∧ (fioAt.setFld (grpKey 5 0) 27 26 1).canonical ∧ (fioAt.setFld (grpKey 5 0) 27 26 1).sag 5 ≠ 0 ∧
    fioAt.sys.mode = .service ∧ fioAt.dioMode 0 = 2 ∧ fioAt.clSource (16 - 16) = true ∧ fioAt.fld (plKey 0 0) 27 26 ≠ 1 ∧
    (let s := { fioAt.setFld (plKey 0 0) 27 26 1 with pair.partner := .lead }
     s.canonical ∧ s.coreUp = true ∧ s.dioMode 0 = 2 ∧ s.fld (plKey 0 0) 27 26 = 1 ∧ s.pair.partner = .lead) ∧
    fioAt.sys.mode.hart = true ∧ fioAt.hartMaster 7 = true ∧ (∀ h ∈ fioAt.fio.hart, h.chan ≠ 7) ∧ fioAt.bgFull rq2.mb = false := by
  simp only [canon_iff, Rq.over]; decide +kernel

theorem witness_HartTransactions :
    (let s := { fioAt with fio.hart := [⟨7, rq2, false, 0, [], 1, []⟩, ⟨0, rq7, false, 0, [], 0, []⟩] }
     s.canonical ∧ s.fio.hart.find? (fun (x : HartS) => x.chan == 7) = some ⟨7, rq2, false, 0, [], 1, []⟩ ∧ rq2.mb ≠ 4 ∧ (0 : Nat) < 1 ∧
       s.fio.hart.find? (fun (x : HartS) => x.chan == 0) = some ⟨0, rq7, false, 0, [], 0, []⟩ ∧ rq7.mb ≠ 4) ∧
    fioAt.canonical ∧ fioAt.clMeasure 7 = true ∧ fioAt.bit (clKey 7 0) 26 = true := by
  simp only [canon_iff]; decide +kernel

/-! ### Acquisition, Gauge and replay -/

/-- Unit 3 has a legal part of one page and one segment, on the source of rate records. -/
def acqAt : State :=
  ((((base .lead).setFld (cuKey 3 1) 31 29 2).setWord (cuKey 3 5) 4096).setWord (cuKey 3 6) 1).setFld (cuKey 3 2) 31 28 7

/-- A segment as a unit has it when it closes. -/
def segOf : SegData := ⟨1000, 1, 0, false, false, 0, [7]⟩

theorem witness_CaptureUnits :
    acqAt.canonical ∧ rq1.over [0, 1] ∧ acqAt.coreUp = true ∧ acqAt.sys.mode.captures = true ∧ acqAt.cuActive 3 = false ∧
    acqAt.cuArmable 3 = true ∧ acqAt.cuArmable 0 = false ∧
    (acqAt.setFld (cuKey 3 2) 31 28 0).canonical ∧ (acqAt.setFld (cuKey 3 2) 31 28 0).cuArmable 3 = true ∧
    (acqAt.setFld (cuKey 3 0) 31 29 1).canonical ∧ (acqAt.setFld (cuKey 3 0) 31 29 1).cuActive 3 = true ∧
      ((acqAt.setFld (cuKey 3 0) 31 29 1).cu 3).inSeg = false ∧ hasBit 8 3 = true ∧ hasBit 8 0 = false ∧
      ((acqAt.setFld (cuKey 3 0) 31 29 1).setFld (cuKey 3 2) 31 28 0).fld (cuKey 3 2) 31 28 = 0 ∧
      ((acqAt.setFld (cuKey 3 0) 31 29 1).setFld (cuKey 3 2) 31 28 0).cuActive 3 = true ∧
    (let s := { acqAt.setFld (cuKey 3 0) 31 29 2 with acq.units := List.replicate 3 CuS.fresh ++ [{ CuS.fresh with inSeg := true }] }
     s.canonical ∧ s.cuActive 3 = true ∧ (s.cu 3).inSeg = true) := by
  simp only [canon_iff, Rq.over]; decide +kernel

/-- Both settings of the reuse bit, mask 7, and an export of the one segment held. -/
theorem witness_CaptureSegments :
    (let s := { (acqAt.setFld (cuKey 3 0) 31 29 2).setFld (cuKey 3 1) 23 16 128 with
        acq.units := List.replicate 3 CuS.fresh ++ [{ CuS.fresh with inSeg := true }], acq.segs := [⟨3, 0, 0⟩] }
     s.canonical ∧ (s.cu 3).inSeg = true ∧ s.bit (cuKey 3 2) 25 = false ∧ s.cuSegs 3 ≤ satNat 17 (s.fld (cuKey 3 0) 16 0 + 1) ∧
       (s.setBit (cuKey 3 2) 25 true).canonical ∧ (s.setBit (cuKey 3 2) 25 true).fld (cuKey 3 2) 31 28 = 7 ∧
       ((s.setBit (cuKey 3 2) 25 true).setFld (cuKey 3 2) 31 28 0).canonical ∧
       ((s.setBit (cuKey 3 2) 25 true).setFld (cuKey 3 2) 31 28 0).fld (cuKey 3 2) 31 28 ≠ 7 ∧
       hasBit (s.fld (cuKey 3 1) 23 16) 7 = true ∧ s.bit (cuKey 3 2) 26 = false ∧ s.bit (cuKey 3 2) 27 = false ∧
       rq0.over [0, 1] ∧ s.coreUp = true ∧ (1#16).toNat ≤ s.acq.segs.length ∧
       (∀ i, i < (1#16).toNat → ∃ g ∈ s.acq.segs, g.unit = 3 ∧ g.no = (0#32).toNat + i) ∧
       (s.acq.exports.map (·.2.2.2)).foldl (· + ·) 0 + (1#16).toNat * (s.word (cuKey 3 5)).toNat ≤ 6 * 2 ^ 30 ∧
       s.bgFull rq0.mb = false) := by
  simp only [canon_iff, Rq.over]; decide +kernel

def snapOf (k : Nat) : GSnap := ⟨k, k == 0, [], [], [], [], []⟩
def winOf : GWin := ⟨[snapOf 0], [], 8, [], [], 0⟩
def gaugeAt : State :=
  { base .lead with gauge := { GaugeS.fresh with recording := true, snaps := [snapOf 0, snapOf 0], windows := [(7, winOf)] } }

theorem witness_GaugeRecording :
    gaugeAt.canonical ∧ gaugeAt.gauge.recording = true ∧
      gaugeAt.time.tick % ((gaugeAt.word P.gaugeSnapMin).toNat * 480000) = 0 ∧ gaugeAt.gauge.snapBusy = false ∧
    { gaugeAt with gauge.snapBusy := true }.canonical ∧
    (let s := { gaugeAt.setWord P.gaugeBaseMib 8192 with gauge.snaps := [snapOf 0, snapOf 8, snapOf 9] }
     s.canonical ∧ s.gauge.copying = none ∧ s.ringSize < s.ringUsed + 2 ^ 28) ∧
    rq2.over [0, 1, 2] ∧ gaugeAt.coreUp = true ∧ gaugeAt.gauge.snaps ≠ [] ∧ gaugeAt.conflict 7 true none = none ∧
      gaugeAt.windowSlot = some 0 ∧ gaugeAt.gauge.copying = none ∧
    (let m : GMark := ⟨7, 1, 0, 0, 5⟩
     let s := { gaugeAt with gauge.copying := some m, gauge.windows := [] }
     s.canonical ∧ m.stop ≤ s.time.tick ∧ (s.windowOf m).isSome = true ∧ s.gauge.waiting = none) ∧
    rq1.over [0, 1] ∧ (gaugeAt.setBit (winKey 7 0) 31 true).canonical ∧ (gaugeAt.setBit (winKey 7 0) 31 true).bit (winKey 7 0) 31 = true ∧
    gaugeAt.gauge.windows.find? (fun x => x.1 == (7 : Fin 8).val) = some (7, winOf) := by
  simp only [canon_iff, Rq.over]; decide +kernel

/-- A module in REPLAY with a window of its own program, configuration and level in slot 7, which runs, is idle, or is at its end. -/
def replayBase : State := (base .replay).setFld P.replayStatus 31 28 2
def replayWin : GWin :=
  { winOf with prgHash := replayBase.prog.hash, cfgHash := replayBase.cfgHash, level := fieldOf replayBase.levels 23 16 }
def replayAt (tick : Nat) (rq : Option Rq) : State :=
  { replayBase with gauge := { GaugeS.fresh with windows := [(7, replayWin)] }, replay := ⟨some 7, tick, 0, 0, 0, rq⟩ }

theorem cfgHash_of_words {s t : State} (h : s.words = t.words) : s.cfgHash = t.cfgHash := by
  simp only [State.cfgHash, State.word, h]

theorem replayCause_zero {s : State} {w : GWin} {i slot : Nat} (hw : s.gauge.windows.find? (·.1 == slot) = some (i, w))
    (hs : w.snaps.isEmpty = false) (hp : w.prgHash = s.prog.hash) (hc : w.cfgHash = s.cfgHash) (hl : w.level = fieldOf s.levels 23 16) :
    s.replayCause slot = 0 := by
  simp [State.replayCause, hw, hs, hp, hc, hl]

theorem witness_Replay_cause : (replayAt 0 none).replayCause 7 = 0 :=
  have hc : replayWin.cfgHash = replayBase.cfgHash := by simp only [replayWin]
  have hl : replayWin.level = fieldOf replayBase.levels 23 16 := by simp only [replayWin]
  have hw : replayBase.words = (replayAt 0 none).words := by simp only [replayAt]
  have hf : fieldOf replayBase.levels 23 16 = fieldOf (replayAt 0 none).levels 23 16 := by
    rw [State.levels, State.levels, show State.word replayBase = (replayAt 0 none).word from funext fun k => by rw [State.word, State.word, hw]]
  replayCause_zero (i := 7) (w := replayWin) (by simp [replayAt]) (by simp [replayWin, winOf]) (by simp [replayWin, replayAt])
    (hc.trans (cfgHash_of_words hw)) (hl.trans hf)

theorem witness_Replay_window (tick : Nat) (rq : Option Rq) :
    (replayAt tick rq).gauge.windows.find? (fun x => x.1 == 7) = some (7, replayWin) := by simp [replayAt]

theorem witness_Replay_load :
    (let s := { base .hold with img.objects := [⟨[1], 4, 5, [], 0, some 7⟩] }
     s.canonical ∧ rq0.over [0] ∧ s.sys.mode = .hold ∧ s.bgFull rq0.mb = false ∧
       s.img.objects.find? (fun o => o.hash == [1] && o.kind == 4) = some ⟨[1], 4, 5, [], 0, some 7⟩) := by
  simp only [canon_iff, Rq.over]; decide +kernel

theorem witness_Replay_canonical (tick : Nat) (rq : Option Rq) : (replayAt tick rq).canonical :=
  have h : replayBase.canonical := by simp only [canon_iff]; decide +kernel
  h

theorem witness_Replay :
    rq0.over [0] ∧ rq0.mb ≠ 4 ∧ replayBase.coreUp = true ∧ replayBase.sys.mode = .replay ∧ replayBase.fld P.replayStatus 31 28 = 2 ∧
    replayBase.bgFull rq0.mb = false ∧
    (replayAt 7 (some rq0)).replay.slot = some 7 ∧ (replayAt 7 (some rq0)).replay.rq = some rq0 ∧
    (replayAt 7 (some rq0)).replay.tick < replayWin.endTick ∧ replayWin.endTick ≤ (replayAt 8 (some rq0)).replay.tick ∧
    (∀ r ∈ winOf.recs, r.tick ≠ 7) ∧ (winOf.snaps.filter (·.tick ≤ 0)).getLast? = some (snapOf 0) ∧ Memory.wf (snapOf 0).pm = true := by
  simp only [Rq.over]; decide +kernel

/-! ### Programs -/

/-- Task 31, of kind 1 on EP0, has been released at tick 0 and is the one that EP0 executes; the program runs in a module that leads. -/
def prgAt : State :=
  let s := ((base .lead).setBit P.prgStatus 15 true).setFld (taskKey 31 0) 31 30 1
  { s with prog := { s.prog with tasks := List.replicate 31 TaskS.fresh0 ++ [{ TaskS.fresh0 with released := some 0, started := true }],
                                 running := [some 31, none, none, none] } }

theorem witness_ProgramWindows :
    prgAt.canonical ∧ prgAt.running = true ∧ (∀ m : Fin 32, (prgAt.task m).newCode = true → (prgAt.task m).migrated = true) ∧
    prgAt.prog.running.getD (prgAt.taskEp 31) none = some 31 ∧ prgAt.taskKind 31 ≠ 3 ∧ RunEffects.none.inst = [] := by
  simp only [canon_iff]; decide +kernel

/-- The last place of a timer, of a counter and of an edge detector in program data. -/
theorem witness_Timers :
    prgAt.canonical ∧ prgAt.calls 31 0 ∧ isPrgData 0x1020000000 = true ∧ isPrgData (0x1060000000 - 32) = true ∧
      isPrgData (0x1060000000 - 32 + 31) = true ∧
    (let t : Timer := ⟨0, 5, false, true, true, true⟩
     t.inPrev = true ∧ t.primed = true) ∧
    (let t : Timer := ⟨0, 0, false, false, false, false⟩
     t.primed = false ∧ t.timing = false ∧ 2 ^ 64 - 1 < 2 ^ 64 ∧ 0 < 1) ∧
    (let t : Timer := ⟨0, 0, false, false, true, false⟩
     t.primed = true ∧ t.inPrev = false ∧ t.timing = false) := by
  simp only [canon_iff, State.calls]; decide +kernel

theorem witness_CountersAndEdges :
    prgAt.canonical ∧ prgAt.calls 31 0 ∧ isPrgData (0x1060000000 - 16) = true ∧ isPrgData (0x1060000000 - 16 + 15) = true := by
  simp only [canon_iff, State.calls]; decide +kernel

theorem witness_SystemBlocks :
    (let s := { prgAt with prog.inboxUsed := [(15, 4096)] }
     s.canonical ∧ s.calls 31 0 ∧ s.prog.inboxUsed.find? (·.1 == (15 : Fin 16).val) = some (15, 4096)) ∧
    1 ≤ (192#8).toNat ∧ (192#8).toNat ≤ 192 := by
  simp only [canon_iff, State.calls]; decide +kernel

theorem witness_RetentiveAndMessages :
    prgAt.canonical ∧ prgAt.running = true ∧ prgAt.prog.retainNext ≤ prgAt.time.tick ∧ prgAt.chgPhase ≠ 5 ∧ prgAt.chgPhase ≠ 6 ∧
      prgAt.prog.retainBusy = none ∧
    { prgAt with prog.retainBusy := some (1, 7, []) }.canonical ∧
    rq3.over [3] ∧ prgAt.coreUp = true ∧ prgAt.sys.mode = .lead ∧ (List.replicate 4096 (1#8)).length ≤ 4096 ∧ prgAt.inboxLoad < 16 ∧
    (let s := { prgAt with prog.inbox := List.replicate 16 (9, []) }
     s.canonical ∧ 16 ≤ s.inboxLoad) ∧
    (let s := { prgAt with prog.outbox := [[1], [2]] }
     s.canonical ∧ (s.kpr.resps.filter fun r => r.mb == (3 : Fin 8)).length < 16) ∧
    (let s := { prgAt with prog.tasks := List.replicate 31 TaskS.fresh0 ++ [{ TaskS.fresh0 with suspended := true }] }
     s.canonical ∧ rq0.over [0] ∧ (31#8).toNat < 32 ∧ s.taskKind (31#8).toNat ≠ 0 ∧ (s.task (31#8).toNat).suspended = true ∧
       s.paired = false ∧ s.serving = false ∧
       { s with pair.partner := .trail }.canonical ∧ { s with pair.partner := .trail }.paired = true) := by
  simp only [canon_iff, Rq.over]; decide +kernel

theorem witness_Forces :
    prgAt.canonical ∧ rq1.over [0, 1] ∧ prgAt.coreUp = true ∧ prgAt.sys.mode = .lead ∧ prgAt.conflict 1 true none = none ∧
    { prgAt with pair.partner := .trail }.paired = true ∧
    (let c : StagedChange := ⟨0, [.forces true], some rq1, 0x0403, true, true, false, 0⟩
     let s := { prgAt with kpr.staged := [c] }
     s.canonical ∧ s.kpr.staged = [c] ∧ c.effect ≤ s.time.tick ∧ c.items = [.forces true] ∧ c.rq = some rq1 ∧ rq1.mb ≠ 4 ∧
       (c.relayed = false ∨ c.acked = true)) ∧ 16383 < 16384 ∧ 63 < 64 := by
  simp only [canon_iff, Rq.over]; decide +kernel

/-! ### Loops and online changes -/

/-- Loop 1023, of a period of one tick, in a running engine. -/
def loopAt : State := ((base .lead).setBit P.loopStatus 7 true).setWord (lcKey 1023 0) 0x80000000

theorem witness_LoopWindowAndLaw :
    loopAt.canonical ∧ loopAt.bit P.loopStatus 7 = true ∧ (∀ l ∈ loopAt.loops, l ∈ [1023]) ∧ (∀ g ∈ loopAt.gens, g ∈ ([] : List Nat)) ∧
    ((1023 : Fin 1024).val ∈ loopAt.loops) := by
  simp only [canon_iff]; decide +kernel

/-- A process value in a lane of trunk 0 that is not valid, with policy 1 and 0, and with policy 2, by which it is not bad; MANUAL or not. -/
theorem witness_LoopWindowAndLaw_law :
    (let s := (loopAt.setFld (lcKey 1023 1) 31 29 1).setFld (lcKey 1023 0) 23 22 1
     s.canonical ∧ (s.loopPv 1023).2 = true ∧ s.fld (lcKey 1023 0) 23 22 = 1) ∧
    (let s := loopAt.setFld (lcKey 1023 1) 31 29 1
     s.canonical ∧ (s.loopPv 1023).2 = true ∧ s.fld (lcKey 1023 0) 23 22 = 0) ∧
    (let s := loopAt.setFld (lcKey 1023 0) 23 22 2
     s.canonical ∧ s.fld (lcKey 1023 0) 23 22 = 2 ∧ (s.cell (1023 * 4)).getLsbD 30 = false ∧
       { s with loop := { s.loop with cells := [(1023 * 4, 0x60000000#32)] } }.canonical ∧
       ({ s with loop := { s.loop with cells := [(1023 * 4, 0x60000000#32)] } }.cell (1023 * 4)).getLsbD 30 = true) := by
  simp only [canon_iff]; decide +kernel

/-- An online change of one task with a migration time of 50 µs, for the program of reset at its execution level. -/
def pkgOf : Package :=
  { hash := [1], base := [], program := [2], execLevel := 1, limitsOk := true, dramBytes := 0, retainBytes := 0,
    tasks := [[0x40000000#32, 0xFFFF0000#32, 0, 0]], moves := [], initCells := [], retain := [], orphans := [], loopWords := [], mts := [50],
    owners := [] }

def chgAt (phase : Nat) (trail : Bool) : State :=
  let s := (((base .lead).setBit P.prgStatus 15 true).setFld P.prgChangeStatus 15 13 phase).setBit P.prgChangeStatus 6 true
  { s with kpr.ownerKey := some (1, []), change.package := some pkgOf, pair.partner := if trail then .trail else .absent,
           img.objects := [⟨[9], 2, 5, [], 0, none⟩] }

theorem witness_StagingChange :
    (chgAt 0 false).canonical ∧ (chgAt 0 false).coreUp = true ∧ (chgAt 0 false).sys.mode = .lead ∧ rq0.over [0] ∧ (chgAt 0 false).chgPhase ≠ 2 ∧
      (chgAt 0 false).conflict 0 true none = none ∧ (∃ o ∈ (chgAt 0 false).img.objects, o.kind = 2 ∧ o.hash = [9]) ∧
      (chgAt 0 false).stageCause pkgOf (chgAt 0 false).kpr.ownerKey.isSome = 0 ∧ (chgAt 0 false).bgFull rq0.mb = false ∧
      (chgAt 0 false).paired = false ∧ (chgAt 0 false).background 0x0400 = none ∧
    (chgAt 0 true).canonical ∧ (chgAt 0 true).paired = true ∧ (chgAt 0 true).conflict 0 true none = none ∧
    (chgAt 1 false).canonical ∧ 1 ≤ (chgAt 1 false).chgPhase ∧ (chgAt 3 true).canonical ∧ (chgAt 3 true).chgPhase ≤ 3 ∧
    (let c := (chgAt 2 true).time.tick + ((chgAt 2 true).word P.prgChangeLead).toNat
     (chgAt 2 true).canonical ∧ (chgAt 2 true).chgPhase = 2 ∧ (chgAt 2 true).commitCause c (chgAt 2 true).time.tick = 0 ∧
       (chgAt 2 true).commitCause 80000 (chgAt 2 true).time.tick = 0 ∧ (chgAt 2 true).paired = true ∧
       (chgAt 2 false).canonical ∧ (chgAt 2 false).paired = false ∧ (chgAt 2 false).commitCause c (chgAt 2 false).time.tick = 0) := by
  simp only [canon_iff, Rq.over]; decide +kernel

theorem witness_CommitAgreement :
    (let s := { chgAt 2 false with sys := { (base .trail).sys with mode := .trail } }
     s.canonical ∧ s.sys.mode = .trail ∧ s.bit P.pairStatus 25 = false ∧ s.chgPhase = 2 ∧ s.change.package.map (·.program) = some [2] ∧
       s.commitCause (s.word P.prgChangeLead).toNat ((s.word P.prgChangeLead).toNat - (s.word P.prgChangeLead).toNat) = 0) ∧
    (chgAt 1 false).chgPhase ≠ 2 ∧
    (let s := { chgAt 3 true with change.lead := true, change.commit := 8 }
     s.canonical ∧ s.chgPhase = 3 ∧ s.change.lead = true ∧ s.change.commit = 8 ∧ s.time.tick + 8 ≤ 8 ∧
       min (s.change.proposedAt + 8) (8 - 8) ≤ s.time.tick) ∧
    (let s := { chgAt 3 false with change.lead := false, change.commit := 4, change.ackSent := true, sys.mode := .trail, pair.hbMissed := 7 }
     s.canonical ∧ s.chgPhase = 3 ∧ s.change.lead = false ∧ s.change.commit = 4 ∧ s.time.tick + 4 ≤ 4 ∧ s.change.ackSent = true ∧
       4 ≤ s.time.tick + 4 ∧ s.pair.hbMissed < 8 ∧ s.sys.mode = .trail) := by
  simp only [canon_iff]; decide +kernel

theorem witness_CommitAndSave :
    (chgAt 4 true).canonical ∧ (chgAt 4 true).change.package = some pkgOf ∧ (chgAt 4 true).chgPhase = 4 ∧
      (chgAt 4 true).change.commit ≤ (chgAt 4 true).time.tick ∧
      (∀ m : Fin 32, (chgAt 4 true).taskKind m ≠ 0 → fieldOf ((pkgOf.tasks.getD m []).getD 0 0) 31 30 ≠ 0) ∧
    (let s := { chgAt 6 true with kpr.reqs := [{ bgReq rq0 0x0401 0 with background := true }] }
     s.canonical ∧ s.chgPhase = 6 ∧ s.change.package = some pkgOf ∧ s.background 0x0401 = some rq0 ∧ rq0.mb ≠ 4) := by
  simp only [canon_iff]; decide +kernel

/-! ### An image that is valid: a header, no body, and a manifest of the header's hash alone (R521) -/

theorem keccakRound_length (a : List Lane) (rc : Lane) : (keccakRound a rc).length = 25 := by
  unfold keccakRound
  extract_lets c d t b e
  have he : e.length = 25 := by simp [e]
  match h : e with
  | [] => simp at he
  | x :: r => simpa using he

theorem keccakF_length (a : List Lane) : (keccakF a).length = 25 := by
  have h : ∀ (l : List Lane) (a : List Lane), a.length = 25 → (l.foldl keccakRound a).length = 25 := by
    intro l
    induction l with
    | nil => intro a ha; exact ha
    | cons x l ih => intro a _; exact ih _ (keccakRound_length a x)
  exact h _ (keccakRound a 1) (keccakRound_length a 1)

theorem absorb_length (n : Nat) : ∀ (a : List Lane) (bs : List Byte), a.length = 25 → (absorb n a bs).length = 25 := by
  induction n with
  | zero => intro a bs h; exact h
  | succ n ih => intro a bs _; exact ih _ _ (keccakF_length _)

theorem leBytes_len (n v : Nat) : (leBytes n v).length = n := by
  induction n generalizing v with
  | zero => rfl
  | succ n ih => simp [leBytes, ih]

theorem shake256_length (m : List Byte) : (shake256 m 32).length = 32 := by
  unfold shake256
  extract_lets p a
  have ha : a.length = 25 := absorb_length _ _ _ (by simp)
  have hs : (squeezeBytes a).length = 136 := by
    have h : ∀ l : List Lane, (l.flatMap fun x => leBytes 8 x.toNat).length = 8 * l.length := by
      intro l
      induction l with
      | nil => rfl
      | cons x l ih => simp [leBytes_len, ih]; omega
    unfold squeezeBytes
    rw [h]
    simp [ha]
  simp [squeeze, hs]

/-- Bytes at consecutive addresses. -/
def cellsAt : Nat → List Byte → List (Nat × Byte)
  | _, [] => []
  | a, b :: bs => (a, b) :: cellsAt (a + 1) bs

theorem get_left (h : List (Nat × Byte)) (a k : Nat) (bs : List Byte) (hk : k < a) :
    Cmap.get byteDflt (h ++ cellsAt a bs) k = Cmap.get byteDflt h k := by
  induction h with
  | nil => cases bs <;> simp [cellsAt, Cmap.get, hk]
  | cons x h ih => simp [Cmap.get, ih]

theorem get_right (h : List (Nat × Byte)) (m : List (Nat × Byte)) (k : Nat) (hh : ∀ x ∈ h, x.1 < k) :
    Cmap.get byteDflt (h ++ m) k = Cmap.get byteDflt m k := by
  induction h with
  | nil => rfl
  | cons x h ih =>
    have hx : x.1 < k := hh x (by simp)
    have hn : ¬ k < x.1 := by omega
    have he : ¬ k = x.1 := by omega
    simp only [List.cons_append, Cmap.get, hn, he, if_false]
    exact ih fun y hy => hh y (by simp [hy])

theorem getAll_left (h : List (Nat × Byte)) (a : Nat) (bs : List Byte) (n k : Nat) (hk : k + n ≤ a) :
    Cmap.getAll byteDflt (h ++ cellsAt a bs) k n = Cmap.getAll byteDflt h k n := by
  induction n generalizing k with
  | zero => rfl
  | succ n ih => simp only [Cmap.getAll]; rw [ih (k + 1) (by omega), get_left h a k bs (by omega)]

theorem getAll_right (h m : List (Nat × Byte)) (n k : Nat) (hh : ∀ x ∈ h, x.1 < k) :
    Cmap.getAll byteDflt (h ++ m) k n = Cmap.getAll byteDflt m k n := by
  induction n generalizing k with
  | zero => rfl
  | succ n ih =>
    simp only [Cmap.getAll]
    rw [ih (k + 1) fun x hx => by have := hh x hx; omega, get_right h m k hh]

theorem getAll_cells (bs : List Byte) (a : Nat) : Cmap.getAll byteDflt (cellsAt a bs) a bs.length = bs := by
  induction bs generalizing a with
  | nil => rfl
  | cons b bs ih =>
    have h := getAll_right [(a, b)] (cellsAt (a + 1) bs) bs.length (a + 1) (by simp)
    simp only [List.cons_append, List.nil_append] at h
    simp only [List.length_cons, Cmap.getAll, cellsAt, h, ih]
    simp [Cmap.get]

def imgHeader (cls : U8) : List (Nat × Byte) := [(0, 0x57), (1, 0x41), (2, 0x49), (3, 0x4D), (4, 1), (8, cls)]
def imgOf (kind : Nat) (cls : U8) : Obj :=
  ⟨[9], kind, 4128, imgHeader cls ++ cellsAt 4096 (shake256 (Cmap.getAll byteDflt (imgHeader cls) 0 4096) 32), 0, none⟩

theorem imgOf_u (kind : Nat) (cls : U8) (off n : Nat) (h : off + n ≤ 4096) :
    (imgOf kind cls).u off n = ofLe (Cmap.getAll byteDflt (imgHeader cls) off n) := by
  unfold Obj.u imgOf
  rw [getAll_left _ _ _ _ _ h]

theorem imgOf_cls (kind : Nat) (cls : U8) : (imgOf kind cls).cls = cls.toNat := by
  unfold Obj.cls
  rw [imgOf_u _ _ _ _ (by decide)]
  simp [imgHeader, Cmap.getAll, Cmap.get, byteDflt, ofLe]

theorem imgOf_blocks (kind : Nat) (cls : U8) : (imgOf kind cls).blocks = 0 := by
  unfold Obj.blocks
  rw [imgOf_u _ _ _ _ (by decide)]
  simp [imgHeader, Cmap.getAll, Cmap.get, byteDflt, ofLe]

theorem imgOf_manifest (kind : Nat) (cls : U8) : (imgOf kind cls).manifest = (imgOf kind cls).manifestOf := by
  have hh : ∀ x ∈ imgHeader cls, x.1 < 4096 := by simp [imgHeader]
  unfold Obj.manifest Obj.manifestOf
  rw [imgOf_blocks]
  simp only [Nat.mul_zero, Nat.add_zero, Nat.zero_add, Nat.mul_one, List.range_zero, List.flatMap_nil, List.append_nil]
  unfold imgOf
  simp only []
  rw [getAll_right _ _ _ _ hh, getAll_left _ _ _ _ _ (by decide)]
  have h := getAll_cells (shake256 (Cmap.getAll byteDflt (imgHeader cls) 0 4096) 32) 4096
  rw [shake256_length] at h
  exact h

/-- The object is a valid image of its class, where its owner has a key if the class asks for one (R522). -/
theorem imgOf_valid (s : State) (kind : Nat) (cls : U8) (classes : List Nat) (hc : classes.contains cls.toNat = true)
    (hk : s.kpr.ownerKey.isSome = true) : s.imageValid (imgOf kind cls) true classes = true := by
  unfold State.imageValid
  rw [imgOf_cls, imgOf_u _ _ _ _ (by decide), imgOf_u _ _ _ _ (by decide), imgOf_manifest, hk, hc]
  simp [imgHeader, Cmap.getAll, Cmap.get, byteDflt, ofLe]

/-! ### Trunk ports -/

def entryOf : MEntry := ⟨511, 0xC0, 3, 0, false, false, 1, 1023, 0xFF⟩
def schedOf : Sched :=
  { rate := 0, period := 8, phase := 0, hyper := 1, bcast := 3, apply := 1, rounds := 32, evLen := 2, arbBit := 1200, loopDelay := 100,
    entries := [entryOf], times := [⟨0, 511, 30000⟩], inputTicks := [0], widths := [1], inputEnd := 50000, budgetEnd := 900000, digest := 5 }

/-- Port 15 in use with the module at its Head end (`pos` 0) or Tail end (1), calibrated and running the schedule above. -/
def trunkAt (m : Mode) (pos : Nat) (f : PortS → PortS) : State :=
  ((base m).setWord (P.trkHeadPos 15) (w32 pos)).modPort 15 fun q => f { q with calibrated := true, running := true, cur := some schedOf }

/-- A frame of this header, its CRC and payload sound, or with its last byte spoilt. -/
def goodFrame (hdr payload : List Byte) (stamp : Nat) : RxFrame := ⟨withCrc (hdr ++ payload), true, false, stamp⟩
def badFrame (hdr payload : List Byte) : RxFrame := ⟨hdr ++ payload ++ [0, 0, 0, 0], true, false, 0⟩
def eight : List Byte := List.replicate 8 7#8

theorem witness_TrunkReception :
    (trunkAt .lead 0 id).canonical ∧ (trunkAt .lead 0 id).receives 15 = true ∧ (⟨[], false, false, 0⟩ : RxFrame).codeOk = false ∧
    (let b : Beacon := ⟨true, false, false, false, 2, 0, 0, 125000, 1⟩
     (frameOf b).codeOk = true ∧ (frameOf b).beacon = some b ∧ b.tail = (trunkAt .lead 0 id).isHead 15 ∧
       0 < sdiff32 b.claim (trunkAt .lead 0 id).pair.claim ∧ (trunkAt .lead 0 id).pair.withdrawing = none) ∧
    (let b : Bcast := ⟨true, false, false, 0, 1, [5]⟩
     (bcastOf b).codeOk = true ∧ (bcastOf b).bcast = some b ∧ b.tail = (trunkAt .lead 0 id).isHead 15 ∧
       b.seq = seqOf ((trunkAt .lead 0 id).port 15).cycle ∧ 0 < sdiff32 b.claim (trunkAt .lead 0 id).pair.claim) ∧
    ((trunkAt .lead 0 id).port 15).cur = some schedOf := by
  simp only [canon_iff]; decide +kernel

/-- An input frame at both ends of its reception window and before it, and with a bad CRC (R112, R92); the other frame types. -/
theorem witness_TrunkReception_frames :
    (let s := trunkAt .lead 0 id
     let due := (s.port 15).cycleStart + 30000 + (if s.isHead 15 then (s.delay 15 0xC0).head else (s.delay 15 0xC0).tail)
     (schedOf.slots ((s.port 15).pos schedOf))[0]? = some (entryOf, 30000) ∧ entryOf.eqSet < 1024 ∧
     (goodFrame [0x23, 0xC0, 0, 0] eight (due + 250)).crcOk = true ∧ (goodFrame [0x23, 0xC0, 0, 0] eight 0).type = 2 ∧
     (goodFrame [0x23, 0xC0, 0, 0] eight 0).byte 1 = entryOf.addr ∧ (goodFrame [0x23, 0xC0, 0, 0] eight 0).byte 0 % 4 = entryOf.part ∧
     (goodFrame [0x23, 0xC0, 0, 0] eight 0).byte 2 = (seqOf (s.port 15).cycle).toNat ∧
     (goodFrame [0x23, 0xC0, 0, 0] eight 0).bytes.length = 16 ∧
     due ≤ (due - 250) + 250 ∧ due + 250 ≤ due + 250 ∧ (due - 251) + 250 < due ∧
     (badFrame [0x23, 0xC0, 0, 0] eight).codeOk = true ∧ (badFrame [0x23, 0xC0, 0, 0] eight).crcOk = false) ∧
    (goodFrame [0x40, 0xC0, 0, 0] eight 0).crcOk = true ∧ (goodFrame [0x40, 0xC0, 0, 0] eight 0).type = 4 ∧
    (goodFrame [0x60, 0xC0, 0, 0] eight 0).crcOk = true ∧ (goodFrame [0x60, 0xC0, 0, 0] eight 0).type = 6 ∧
    (goodFrame [0x80, 0xF1, 0, 0] [] 9000).crcOk = true ∧ (goodFrame [0x80, 0xF1, 0, 0] [] 9000).type = 8 ∧
    (let g : Ranging := ⟨0xF1, List.replicate 14 5, [], 0, 0, some 3⟩
     let k : Commission := ⟨2, 1, [], 0, [], some g, 0, 0, 0, 0, true, 0, 0⟩
     let s := trunkAt .commission 0 fun q => { q with comm := some k }
     s.canonical ∧ s.receives 15 = true ∧ (s.port 15).cur = some schedOf ∧ (s.port 15).comm = some k ∧ k.ranging = some g ∧
       (goodFrame [0x80, 0xF1, 0, 0] [] 9000).byte 1 = g.addr ∧ s.sys.mode.contends = true ∧ g.own.length < 15) := by
  simp only [canon_iff]; decide +kernel

/-- Training frames 0 and 31 by R103. -/
theorem witness_PortUpkeep :
    (trunkAt .listen 0 id).canonical ∧ (trunkAt .listen 0 id).sys.mode = .listen ∧ (trunkAt .listen 0 id).used 15 = true ∧
      (trunkAt .listen 0 id).bit (P.trkStatus 15) 14 = false ∧
    (let s := trunkAt .commission 0 fun q => { q with trainRuns := [(1023, 31)] }
     let f := goodFrame [0x90, 0xC0, 0, 0] ((List.range 8).map fun k => BitVec.ofNat 8 (37 * (8 * 31 + k) + 0x5B)) 0
     s.canonical ∧ s.sys.mode = .commission ∧ s.receives 15 = true ∧ f.codeOk = true ∧ f.crcOk = true ∧ (s.port 15).cur = some schedOf ∧
       (schedOf.slots ((s.port 15).pos schedOf))[0]? = some (entryOf, 30000) ∧ f.type = 9 ∧ f.byte 1 = entryOf.addr ∧
       (((s.port 15).trainRuns.find? (·.1 == entryOf.eqSet)).map (·.2)).getD 0 = 31 ∧
       f.payload.take 8 = (List.range 8).map (fun k => BitVec.ofNat 8 (37 * (8 * 31 + k) + 0x5B))) ∧
    (let s := trunkAt .commission 0 id
     let f := goodFrame [0x90, 0xC0, 0, 0] ((List.range 8).map fun k => BitVec.ofNat 8 (37 * (8 * 0 + k) + 0x5B)) 0
     s.canonical ∧ f.crcOk = true ∧ f.type = 9 ∧ f.byte 1 = entryOf.addr ∧
       (((s.port 15).trainRuns.find? (·.1 == entryOf.eqSet)).map (·.2)).getD 0 = 0 ∧
       f.payload.take 8 = (List.range 8).map (fun k => BitVec.ofNat 8 (37 * (8 * 0 + k) + 0x5B))) ∧
    (let s := trunkAt .lead 0 fun q => { q with round := some ⟨0, some (0, 0xF0), none, true⟩ }
     s.canonical ∧ s.used 15 = true ∧ (s.port 15).round = some ⟨0, some (0, 0xF0), none, true⟩ ∧ (s.port 15).noiseSeen = false) ∧
    (trunkAt .lead 0 id).canonical ∧ ((trunkAt .lead 0 id).port 15).round = none ∧ ((trunkAt .lead 0 id).port 15).calibrated = true ∧
      (trunkAt .lead 0 id).bit (P.trkStatus 15) 7 = false ∧ 1999 < 2000 ∧
    (let s := trunkAt .lead 0 fun q => { q with calSkipRun := 10000 }
     s.canonical ∧ 10000 ≤ (s.port 15).calSkipRun ∧ s.bit (P.trkStatus 15) 11 = false) ∧
    (let s := ((trunkAt .lead 0 id).setWord (P.trkEqmode 15) 2).setBit (eqKey 15 1 0) 31 true
     s.canonical ∧ s.word (P.trkEqmode 15) = 2#32 ∧ (s.port 15).retrainLeft = 0 ∧ 1 ∈ s.setsInUse 15 ∧ s.setValid 15 1 = true) := by
  simp only [canon_iff]; decide +kernel

theorem witness_BreaksAndReflectometry :
    (let s := trunkAt .lead 0 fun q => { q with brkRun := 2, brkPair := (0xBF, 0xC0) }
     s.canonical ∧ 2 ≤ (s.port 15).brkRun ∧ s.bit (P.trkStatus 15) 10 = false) ∧
    (let s := (trunkAt .lead 0 fun q => { q with brkClearRun := 16 }).setBit (P.trkStatus 15) 10 true
     s.canonical ∧ 16 ≤ (s.port 15).brkClearRun ∧ s.bit (P.trkStatus 15) 10 = true) ∧
    (let s := trunkAt .service 0 id
     s.canonical ∧ rq1.over [0, 1] ∧ s.coreUp = true ∧ s.sys.mode.tdr = true ∧ (15#8).toNat = (15 : Fin 16).val ∧ s.used 15 = true ∧
       (s.port 15).tdrPending = none ∧ s.bgFull rq1.mb = false) ∧
    (let s := trunkAt .service 0 fun q => { q with tdrPending := some (1, 0), tdrWait := 64 }
     s.canonical ∧ (s.port 15).tdrPending = some (1, 0) ∧ (1 : Fin 8) ≠ 4 ∧ s.gatePulse 15 = true ∧ 64 ≤ (s.port 15).tdrWait) ∧
    (let s := trunkAt .lead 0 fun q => { q with missedAt := some 3 }
     s.canonical ∧ (s.port 15).missedAt ≠ none ∧ s.bit (P.schedStatus 15) 11 = false) := by
  simp only [canon_iff, Rq.over]; decide +kernel

theorem witness_RoundsAndLaunches :
    (let s := trunkAt .lead 1 id
     s.canonical ∧ (s.port 15).cur = some schedOf ∧ (s.port 15).running = true ∧ s.gateOpen 15 = true ∧ s.isHead 15 = false ∧
       (s.port 15).headHeardPrev = false ∧ s.sys.mode.run = true ∧ (3 : Int) < 4 ∧ s.receives 15 = true ∧ (31 : Fin 32).val < schedOf.rounds) ∧
    (let s := trunkAt .trail 1 id
     s.canonical ∧ s.sys.mode.contends = false ∧ s.receives 15 = true ∧ [(0, 0xF0), (15, 0xFF)] ≠ []) ∧
    (let k : KReq := ⟨0xFF, [0x32], 128, 0, none, .stranger⟩
     let s := trunkAt .lead 0 fun q => { q with kreqs := [k] }
     s.canonical ∧ s.sys.mode.contends = true ∧ s.gateOpen 15 = true ∧ s.grantOf 15 31 = some .keeper ∧
       (∀ x ∈ [(1, 0)], 0xF1 < x.1 * 256 + x.2)) ∧
    (let g : Ranging := ⟨0xF1, [], [], 0, 0, none⟩
     let k : Commission := ⟨2, 1, [], 0, [], some g, 0, 0, 0, 0, true, 0, 0⟩
     let s := trunkAt .commission 0 fun q => { q with comm := some k, round := some ⟨0, some (0, 0xF0), some .ranging, false⟩ }
     s.canonical ∧ (s.port 15).round = some ⟨0, some (0, 0xF0), some .ranging, false⟩ ∧ (s.port 15).comm = some k ∧ k.ranging = some g) ∧
    (let s := trunkAt .lead 0 fun q => { q with txqOrder := [15], round := some ⟨0, some (0, 0xF0), some (.txq 15), true⟩ }
     ((s.setFld (txKey 15 15 0) 31 24 0xC0).setFld (stKey 15 0xC0 0) 31 28 1).canonical ∧
       ((s.setFld (txKey 15 15 0) 31 24 0xC0).setFld (stKey 15 0xC0 0) 31 28 1).unreachable 15 0xC0 = false ∧
       ((s.setFld (txKey 15 15 0) 31 24 0xC0).setFld (stKey 15 0xC0 0) 31 28 3).canonical ∧
       ((s.setFld (txKey 15 15 0) 31 24 0xC0).setFld (stKey 15 0xC0 0) 31 28 3).unreachable 15
         (((s.setFld (txKey 15 15 0) 31 24 0xC0).setFld (stKey 15 0xC0 0) 31 28 3).fld (txKey 15 15 0) 31 24) = true) ∧
    (let k : KReq := ⟨0xFF, [0x32], 128, 0, none, .stranger⟩
     let s := trunkAt .lead 0 fun q => { q with kreqs := [k], round := some ⟨0, some (0, 0xF0), some .keeper, true⟩ }
     s.canonical ∧ (s.port 15).round = some ⟨0, some (0, 0xF0), some .keeper, true⟩ ∧ (s.port 15).nextKreq = some k ∧
       k.payload.getD 0 0 = 0x32#8) := by
  simp only [canon_iff]; decide +kernel

/-- A stranger, serial 77, in quarantine in slot 31. -/
def strangerAt (m : Mode) : State :=
  (((trunkAt m 0 id).setWord (strKey 15 31 0) 77).setBit (strKey 15 31 2) 0 true).setBit (strKey 15 31 2) 1 true

theorem witness_TrunkCommands :
    (let s := strangerAt .commission
     s.canonical ∧ rq0.over [0] ∧ s.coreUp = true ∧ s.sys.mode = .commission ∧ (15#8).toNat = (15 : Fin 16).val ∧
       1 ≤ (15#8).toNat ∧ (15#8).toNat < 16 ∧ (2#8).toNat = 2 ∧ s.used 15 = true ∧ (s.port 15).comm = none ∧ s.bgFull rq0.mb = false ∧
       (∀ x ∈ (s.port 15).kreqs, x.origin ≠ .commission) ∧ s.strangerKnown 15 77 = true ∧ 1 ≤ (192#8).toNat ∧ (192#8).toNat ≤ 192 ∧
       s.bit (strKey 15 (s.strangerSlot 15 77) 2) 1 = true) ∧
    (let s := (strangerAt .lead).setFld (stKey 15 1 0) 31 28 3
     s.canonical ∧ s.sys.mode = .lead ∧ s.stState 15 (1#8).toNat = 3) ∧
    (let s := ((((trunkAt .service 0 id).setWord (P.trkLoopDelay 15) 100).setWord (P.schedPeriod 15) 16).setWord (P.schedEventLen 15) 2).setWord
       (P.schedEventRounds 15) 1
     s.canonical ∧ s.sys.mode = .service ∧ s.schedCause 15 (s.schedule 15) = 0) ∧
    (let s := (trunkAt .hold 0 id).setWord (P.trkLoopDelay 15) 0
     s.canonical ∧ s.sys.mode = .hold ∧ s.schedCause 15 (s.schedule 15) ≠ 0) ∧
    (let s := ((((trunkAt .standalone 0 id).setWord (P.trkLoopDelay 15) 100).setWord (P.schedPeriod 15) 16).setWord (P.schedEventLen 15) 2).setWord
       (P.schedEventRounds 15) 1
     s.canonical ∧ s.sys.mode = .standalone ∧ s.conflict 4 true (some 15) = none ∧ s.schedCause 15 (s.schedule 15) = 0 ∧
       s.bgFull rq0.mb = false) ∧
    (let s := trunkAt .lead 0 fun q => { q with staged := some (schedOf, 1), commitRq := some (0, 5) }
     s.canonical ∧ (s.port 15).staged = some (schedOf, 1) ∧ s.time.tick < 1) ∧
    (let s := trunkAt .lead 0 fun q => { q with staged := some (schedOf, 0), commitRq := some (0, 5) }
     s.canonical ∧ (s.port 15).staged = some (schedOf, 0) ∧ 0 ≤ s.time.tick ∧ schedOf.startsAt s.time.tick = true ∧
       schedOf.posOf s.time.tick = 0 ∧ (s.port 15).commitRq = some (0, 5) ∧ (0 : Fin 8) ≠ 4) := by
  simp only [canon_iff, Rq.over]; decide +kernel

def stnPkgOf : StnPkg := ⟨1, 2, 3, 4, 1, [], [[([0x7F], 1)]]⟩

def distAt (x : Serve) : State :=
  let s := trunkAt .lead 0 fun q => { q with serves := [x], round := some ⟨31, some (0, 0xF0), some .update, true⟩ }
  { s.setFld (P.imgStnStatus 15) 31 29 2 with
    kpr := { s.kpr with ownerKey := some (1, []) },
    img := { s.img with stnPkgs := [([9], stnPkgOf)], journals := [⟨15, [9], 1, 0, none, []⟩], objects := [imgOf 3 7] } }

theorem witness_StationDistribution_stage :
    (distAt ⟨0xC0, 0, 0, 0, none, 0, 0, 0, 0, 0⟩).imageValid (imgOf 3 7) true [7] = true :=
  imgOf_valid _ _ _ _ (by decide) rfl

theorem witness_StationDistribution :
    (let x : Serve := ⟨0xC0, 0, 0, 0, none, 0, 0, 0, 0, 0⟩
     let s := distAt x
     s.canonical ∧ s.coreUp = true ∧ rq6.over [6] ∧ s.sys.mode = .lead ∧ (s.object 3 [9]).isSome = true ∧ s.bgFull rq6.mb = false ∧
       stnPkgOf ∈ (s.img.stnPkgs.getLast?.map (·.2)) ∧ s.conflict 3 true (some 0) = none ∧ s.stnRunning 15 = true ∧
       (s.port 15).cur = some schedOf ∧ (s.port 15).round = some ⟨31, some (0, 0xF0), some .update, true⟩ ∧ s.stnPkg 15 = some stnPkgOf ∧
       (s.port 15).serves.find? Serve.ready = some x ∧ x.attempts = 0) ∧
    (let s := distAt ⟨0xC0, 0, 0, 0, none, 0, 0, 0, 0, 0⟩
     { s with img := { s.img with journals := [] } }.canonical ∧ (∃ x ∈ s.img.stnPkgs, x.1 = [9])) ∧
    (let x : Serve := ⟨0xC0, 0, 0, 0, none, 0, 0, 0, 0, 64⟩
     (distAt x).canonical ∧ ((distAt x).port 15).serves = [x] ∧ 1 ≤ x.addr ∧ x.addr ≤ 192 ∧ 64 ≤ x.absent) ∧
    (let x : Serve := ⟨1, 0, 0, 0, none, 2, 0, 0, 0, 0⟩
     let s := (distAt x).setWord (P.imgStnVerifyTo 15) 0
     s.canonical ∧ (s.port 15).serves = [x] ∧ x.step = 2 ∧ x.since + (s.word (P.imgStnVerifyTo 15)).toNat * 8000 ≤ s.time.tick) ∧
    (let x : Serve := ⟨1, 0, 0, 0, none, 5, 0, 0, 0, 0⟩
     let s := (distAt x).setWord (P.imgStnActivateTo 15) 0
     s.canonical ∧ (s.port 15).serves = [x] ∧ x.step = 5 ∧ x.since + (s.word (P.imgStnActivateTo 15)).toNat * 8000 ≤ s.time.tick) := by
  simp only [canon_iff, Rq.over]; decide +kernel

/-! ### Images and identity -/

/-- A module in a mode with an owner's key, holding the object above. -/
def imgAt (m : Mode) (o : Obj) : State :=
  { base m with kpr := { KprS.fresh with ownerKey := some (1, []) }, img := { ImgS.fresh with objects := [o] } }

theorem imgAt_object (m : Mode) (kind : Nat) (cls : U8) : (imgAt m (imgOf kind cls)).object kind [9] = some (imgOf kind cls) := by
  simp [State.object, imgAt, imgOf]

/-- A whole transfer of one byte, with this declared hash. -/
def xferOf (hash : List Byte) : Xfer := ⟨4294967295, 3, 1, hash, [(0, 7)], [(0, 1)], none⟩

theorem witness_ObjectTransfer :
    (imgAt .lead (imgOf 1 1)).img.objects = [imgOf 1 1] ∧ (base .lead).canonical ∧ rq6.over [6] ∧ (List.replicate 32 (0#8)).length = 32 ∧
    1 ≤ (1#8).toNat ∧ (3#8).toNat ≤ 3 ∧ (67108864#64).toNat ≤ maxSize (3#8).toNat ∧ (base .lead).img.xfers.length < 4 ∧
    (base .lead).transferUsed + (67108864#64).toNat ≤ 4 * 2 ^ 30 ∧
    (let x : Xfer := { xferOf [] with ranges := [], data := [] }
     let s := { base .lead with img := { ImgS.fresh with xfers := [x] } }
     s.canonical ∧ s.img.xfers.find? (fun x => x.num == (4294967295#32).toNat) = some x ∧ [7#8].length ≤ 262128 ∧ [7#8] ≠ [] ∧
       (0#64).toNat + [7#8].length ≤ x.size ∧ s.bgFull rq6.mb = false ∧ x.held ≠ x.size) ∧
    (let s := { base .lead with img := { ImgS.fresh with objects := [⟨[9], 3, 1, [], 0, none⟩] } }
     s.canonical ∧ ∃ o ∈ s.img.objects, o.hash = [9]) := by
  refine ⟨rfl, ?_⟩
  simp only [canon_iff, Rq.over]; decide +kernel

/-- A transfer that is whole, with the hash of its bytes and with another. -/
theorem witness_ObjectTransfer_close :
    (∀ hash, (xferOf hash).held = (xferOf hash).size) ∧
    (∀ hash, { base .lead with img := { ImgS.fresh with xfers := [xferOf hash] } }.img.xfers.find? (fun x => x.num == (4294967295#32).toNat) =
      some (xferOf hash)) ∧
    (let x := xferOf (shake256 (Cmap.getAll byteDflt [(0, 7)] 0 1) 32)
     shake256 (Cmap.getAll byteDflt x.data 0 x.size) 32 = x.hash) ∧
    shake256 (Cmap.getAll byteDflt (xferOf []).data 0 (xferOf []).size) 32 ≠ (xferOf []).hash := by
  refine ⟨fun _ => by simp [xferOf, Xfer.held], fun _ => by simp [xferOf], by simp only [xferOf], ?_⟩
  intro h
  have := congrArg List.length h
  rw [shake256_length] at this
  simp [xferOf] at this

theorem witness_FirmwareSets_stage :
    (imgAt .update (imgOf 1 4)).imageValid (imgOf 1 4) true [1, 2, 3, 4] = true ∧ (imgAt .update (imgOf 1 4)).object 1 [9] = some (imgOf 1 4) :=
  ⟨imgOf_valid _ _ _ _ (by decide) rfl, imgAt_object _ _ _⟩

/-- A Chamber with an image that asks for no revision of the hardware. -/
def chamberAt : State := { (base .update).setWord P.imgChamber 1 with img := { ImgS.fresh with chamber := [(0, 0, [])] } }

theorem witness_FirmwareSets_activate : chamberAt.activateCause = 0 := by
  have h : ∀ b, revAbove 0 b = false := fun b => by simp [revAbove, fieldOf]
  have hc : (chamberAt.img.chamber.any fun (x : Nat × U32 × List Byte) => revAbove x.2.1 Config.hwRev) = false := by
    simp [chamberAt]
    exact h _
  unfold State.activateCause
  rw [hc]
  decide +kernel

theorem witness_FirmwareSets :
    (base .update).canonical ∧ rq6.over [6] ∧ rq0.over [0, 6] ∧ (base .update).sys.mode ≠ .boot ∧ (base .update).sys.mode ≠ .faultSafe ∧
    (base .update).bgFull rq6.mb = false ∧ (base .update).bit P.imgStatus 10 = false ∧ (base .update).img.activating = false ∧
    (base .update).activateCause ≠ 0 ∧
    chamberAt.canonical ∧ chamberAt.sys.mode = .update ∧ chamberAt.img.activating = false ∧
    (let s := (base .boot).setBit P.imgStatus 10 true
     s.canonical ∧ s.bit P.imgStatus 10 = true ∧ s.sys.keeperUp = true ∧ s.word P.imgActiveBank = 0#32 ∧
       (s.setWord P.imgActiveBank 1).canonical ∧ (s.setWord P.imgActiveBank 1).word P.imgActiveBank = 1#32) ∧
    (let s := { (((base .lead).setBit P.imgStatus 15 true).setWord P.imgHealthAuto 1).setBit P.chkStatus 15 true with
                img := { ImgS.fresh with healthAt := some 0, cleanSince := some 0 }, kpr := { KprS.fresh with now := 900000 } }
     s.canonical ∧ s.bit P.imgStatus 15 = true ∧ s.sys.mode ≠ .faultSafe ∧ s.bit P.chkStatus 14 = false ∧ s.sys.mode.run = true ∧
       s.pair.withdrawing = none ∧ s.img.healthAt = some 0 ∧ 0 + 900000 ≤ s.kpr.now ∧ s.img.fallCause = none ∧ s.img.cleanSince = some 0 ∧
       s.word P.imgHealthAuto = 1#32 ∧ s.bit P.chkStatus 15 = true ∧ 0 + (s.word P.imgHealthRunS).toNat * 1000 ≤ s.kpr.now) := by
  simp only [canon_iff, Rq.over]; decide +kernel

theorem witness_InstallAndIdentity_valid :
    (imgAt .hold (imgOf 1 6)).imageValid (imgOf 1 6) true [5, 6] = true ∧ (imgOf 1 6).cls = 6 ∧
    (imgAt .service (imgOf 1 5)).imageValid (imgOf 1 5) true [5, 6] = true ∧ (imgOf 1 5).cls = 5 ∧
    (imgAt .hold (imgOf 1 6)).object 1 [9] = some (imgOf 1 6) :=
  ⟨imgOf_valid _ _ _ _ (by decide) rfl, imgOf_cls _ _, imgOf_valid _ _ _ _ (by decide) rfl, imgOf_cls _ _, imgAt_object _ _ _⟩

theorem witness_InstallAndIdentity :
    (base .hold).canonical ∧ (base .hold).coreUp = true ∧ rq6.over [6] ∧ rq2.over [0, 2, 6] ∧ (base .hold).sys.mode = .hold ∧
    (base .service).sys.mode = .service ∧ (base .hold).bgFull rq6.mb = false ∧ (base .hold).background 0x0D10 = none ∧
    (List.replicate 32 (0#8)).length = 32 ∧ (List.replicate 31 (0#8)).length ≠ 32 ∧ (List.replicate 33 (0#8)).length ≠ 32 := by
  simp only [canon_iff, Rq.over]; decide +kernel

/-! ### Keeper, recorder, sessions and keys -/

def periodOf : Period :=
  ⟨List.replicate 32 none, List.replicate 8 0, false, 0, 10000001, 0, [], 0, 0, 5, true, [0, 1], [0, 0], []⟩

/-- Sensor 31 at a level, with these counts. -/
def sensAt (level : Nat) (x : SensS) : State :=
  { (base .lead).setFld (0xF020 + 31) 31 30 level with kpr := { KprS.fresh with sensors := List.replicate 31 SensS.fresh ++ [x], lifeDue := true } }

theorem witness_KeeperPeriod :
    (let s := { base .boot with sys := { (base .boot).sys with diesUp := 0 } }
     s.canonical ∧ s.sys.keeperUp = true ∧ s.coreUp = false ∧ periodOf.reach = 0 ∧ periodOf.wellFormed = true ∧ s.kpr.staged = [] ∧
       s.recorder.queue = []) ∧
    (let s := sensAt 0 { SensS.fresh with warn := 10 }
     s.canonical ∧ s.sensLevel 31 = 0 ∧ 10 ≤ (s.sens 31).warn ∧ s.kpr.lifeDue = true) ∧
    (let s := sensAt 1 { SensS.fresh with alarm := 10, low := true, inWarn := 99 }
     s.canonical ∧ s.sensLevel 31 < 2 ∧ 10 ≤ (s.sens 31).alarm) ∧
    (let s := sensAt 1 { SensS.fresh with inWarn := 100 }
     s.canonical ∧ s.sensLevel 31 = 1 ∧ 100 ≤ (s.sens 31).inWarn) ∧
    (let s := sensAt 2 { SensS.fresh with inAlarm := 100, inWarn := 99 }
     s.canonical ∧ s.sensLevel 31 = 2 ∧ 100 ≤ (s.sens 31).inAlarm ∧ (s.sens 31).inWarn < 100) := by
  simp only [canon_iff]; decide +kernel

theorem witness_RecorderCommands :
    (base .lead).canonical ∧ rq2.over [0, 1, 2] ∧ (7#8).toNat < 8 ∧ 1 ≤ (1#16).toNat ∧ (63#16).toNat ≤ 63 ∧ rq2.mb.val < 3 ∧
    (base .lead).recorder.subs.length = 3 ∧ rq2.onAny [0, 1, 2] = true ∧ isUser 0x7100 = true ∧ isUser 0x7FFF = true ∧
    (2#8).toNat ≤ 2 ∧ (12#8).toNat ≤ 12 ∧ (4095#16).toNat ≤ 4095 ∧ (List.replicate 12 (5#32)).length = (12#8).toNat ∧
    isUser 0x70FF = false ∧ isUser 0x8000 = false ∧ rq1.over [0, 1] ∧ (base .lead).bgFull rq1.mb = false ∧
    (let s := (base .lead).setWord P.recScanHours 24
     s.canonical ∧ ¬ ((s.word P.recScanLast).toNat + (s.word P.recScanHours).toNat ≤ (s.word P.sysHours).toNat) ∧
       s.background 0x0B04 = none) ∧
    (let s := (((base .lead).setWord P.recScanHours 24).setWord P.sysHours 24)
     s.canonical ∧ (s.word P.recScanLast).toNat + (s.word P.recScanHours).toNat ≤ (s.word P.sysHours).toNat) ∧
    (let s := { base .lead with kpr := { KprS.fresh with reqs := [bgReq rq1 0x0B04 0] } }
     s.canonical ∧ s.background 0x0B04 = some rq1 ∧ rq1.mb ≠ 4) ∧
    (let s := { base .lead with recorder := { RecS.fresh with buckets := [(7 * 65536 + 0x7FFF, 0, 0, 0), (5, 1, 0, 0)] } }
     s.canonical ∧ (s.recorder.buckets.map fun b => b.1).Nodup) := by
  simp only [canon_iff, Rq.over]; decide +kernel

/-- Ports 0 and 1 serve every mailbox of the mask; a session with every role is open on MB0 by port 0; an opening waits on MB1. -/
def sessAt (m : Mode) (key : Option (Nat × List Byte)) : State :=
  { (base m).setWord P.kprMbxMask 0xFFFF with
    kpr := { KprS.fresh with ownerKey := key, sessions := [⟨1, 0, 31, 5, [], 0, 0, 60000, 0, 0⟩], connections := [(0, 0)],
                             openings := [⟨1, 1, 1, 5, [1], [2]⟩] } }

def certOf : Cert := ⟨5, 1, 0, 0xFFFFFFFFFFFFFFFF, true⟩

theorem witness_SessionsAndKeys :
    (let s := sessAt .hold (some (1, []))
     s.canonical ∧ s.sys.keeperUp = true ∧ s.portServes 0 0 = true ∧ (s.kpr.reqs.filter fun r => r.rq.mb == 0 && !r.open_).length < 16 ∧
       (∀ r ∈ s.kpr.reqs, r.open_ = false) ∧ (0 : Fin 8) ≠ 4 ∧ s.openOpcode (1#16).toNat = true ∧ (List.replicate 4096 (0#8)).length ≤ 4096 ∧
       (2#32) ≠ 0#32 ∧ (∀ x ∈ s.kpr.sessions, x.number ≠ 2#32) ∧
       (∃ x ∈ s.kpr.sessions, x.mb = 0 ∧ x.number = 1#32 ∧ x.port = (0 : Fin 3).val) ∧ (1#32) ≠ 0#32 ∧
       rq1.over [0, 1, 2, 3, 5, 6] ∧ (∀ x ∈ s.kpr.sessions, x.mb ≠ rq1.mb) ∧ ([1#8].headD 0).toNat = rq1.mb.val ∧
       s.certOk rq1.mb certOf = true ∧ s.certOk rq1.mb { certOf with roles := 0 } = false ∧ s.bgFull rq1.mb = false ∧
       s.kpr.openings.find? (fun o => o.mb == rq1.mb && o.port == (1 : Fin 3).val) = some ⟨1, 1, 1, 5, [1], [2]⟩ ∧
       (∃ x ∈ s.kpr.sessions, x.mb = 0 ∧ (60000 ≤ x.idleMs ∨ 2 ^ 32 ≤ max x.received x.sent ∨ x.openedAt + 86400000000000 ≤ s.plant)) ∧
       ((0 : Fin 3).val, (0 : Fin 8)) ∈ s.kpr.connections ∧ (∃ x ∈ s.kpr.sessions, x.mb = 0 ∧ x.port = (0 : Fin 3).val)) := by
  simp only [canon_iff, Rq.over]; decide +kernel

theorem witness_SessionsAndKeys_keys :
    (let s := { sessAt .hold none with sys := { (sessAt .hold none).sys with leverInAt := some 0 } }
     s.canonical ∧ rq0.over [0] ∧ s.sys.mode = .hold ∧ (List.replicate 64 (7#8)).length = 64 ∧ s.kpr.ownerKey = none ∧
       s.firstKey { rq0 with session := 0 } 1 = true ∧ s.firstKey { rq0 with session := 0 } 2 = false) ∧
    (let s := sessAt .hold (some (1, []))
     s.kpr.ownerKey ≠ none ∧
       s.kpr.sessions.find? (fun x => x.mb == rq0.mb && x.number == rq0.session) = some ⟨1, 0, 31, 5, [], 0, 0, 60000, 0, 0⟩ ∧
       hasBit 31 4 = true) ∧
    (let s := { base .lead with kpr := { KprS.fresh with revoked := List.replicate 255 1 } }
     s.canonical ∧ (2#64).toNat ∉ s.kpr.revoked ∧ s.kpr.revoked.length < 256) := by
  simp only [canon_iff, Rq.over]; decide +kernel

/-! ### Parameters, tables and guards -/

theorem witness_ParametersAndTables_read :
    (base .lead).canonical ∧ rq2.over [0, 1, 2, 5, 6] ∧ rq5.over [0, 1, 2, 5, 6] ∧ (List.replicate 256 (1#16)) ≠ [] ∧
    (List.replicate 256 (1#16)).length ≤ 256 ∧
    ((tableRow (0x90C1#16).toNat).map fun r => decide ((1#16) ≠ 0#16 ∧ (255#32).toNat + (1#16).toNat ≤ r.count (0x90C1#16).toNat)) = some true ∧
    (base .lead).available (0x90C1#16).toNat = true ∧ tableRow (0x00FF#16).toNat = none := by
  simp only [canon_iff, Rq.over]; decide +kernel

/-- An unknown number is the second item refused; a threshold of a port alone and in a pair; clearing a counter, and what is none. -/
theorem witness_ParametersAndTables_write :
    (let s := base .lead
     let l : List (Nat × U32) := [(P.trkSnrWarn 15, 150), (0x0FFF, 1)]
     s.canonical ∧ rq0.over [0, 1] ∧ (firstBad l (s.writeStatus rq0 l)).isSome = true) ∧
    (let s := base .lead
     let l : List (Nat × U32) := [(P.trkSnrWarn 15, 150)]
     s.sys.mode ≠ .trail ∧ firstBad l (s.writeStatus rq0 l) = none ∧ (∀ x ∈ l, restartItem x.1 = false) ∧ (∀ x ∈ l, x.1 / 0x1000 ≠ 0xC) ∧
       s.paired = false ∧ { s with pair.partner := .trail }.paired = true ∧ { s with pair.partner := .trail }.canonical) ∧
    (let s := base .lead
     ((tableRow (0x90C1#16).toNat).map fun r => decide (r.rw ≠ [] ∧ (∀ ws ∈ [List.replicate r.words (0#32)], ws.length = r.words) ∧
        (255#32).toNat + 1 ≤ r.count (0x90C1#16).toNat ∧ s.mb1Limited rq0 = false ∧ hasBit r.modes s.sys.mode.num = true ∧ r.base ≠ 0xC0C1 ∧
        firstBad ([List.replicate r.words (0#32)].zipIdx.map fun x => s.entryAfter r (0x90C1#16).toNat ((255#32).toNat + x.2) x.1).zipIdx
          (fun x => s.entryStatus r.base (0x90C1#16).toNat ((255#32).toNat + x.2) x.1) = none ∧
        tableItems r (0x90C1#16).toNat (255#32).toNat
          ([List.replicate r.words (0#32)].zipIdx.map fun x => s.entryAfter r (0x90C1#16).toNat ((255#32).toNat + x.2) x.1) ≠ [])) = some true) ∧
    (firstBad [P.trkSnrWarn 15] (base .lead).clearStatus).isSome = true ∧
    firstBad [P.trkCodeErr 15] (base .lead).clearStatus = none := by
  simp only [canon_iff, Rq.over]; decide +kernel

/-- Guard 15 waits to take its shadow table, sound or with a corrupt last entry; an access that no region admits, and one without a guard. -/
theorem witness_AccessGuards :
    (let s := { base .lead with kpr := { KprS.fresh with staged := [⟨0, [.guardArm 15], some rq0, 0x0106, false, false, false, 0⟩] } }
     s.canonical ∧ (∃ c ∈ s.kpr.staged, c.effect ≤ s.time.tick ∧ .guardArm (15 : Fin 16).val ∈ c.items) ∧
       (∀ e, e < guardRegions 15 → (s.shadowRegion 15 e).corrupt = false) ∧ 15 < guardRegions 15 ∧
       (s.setBit (shadowKey 15 15 3) 29 true).canonical ∧ ((s.setBit (shadowKey 15 15 3) 29 true).shadowRegion 15 15).corrupt = true) ∧
    (let s := base .lead
     s.guardFinds (.ep 3 3 []) 0 (0#48).toNat 64 true = none ∧ (s.guardFinds (.ep 3 3 []) 2 (0x51000000#48).toNat 64 true).isSome = true ∧
       (s.guardFinds .gauge 1 (0xFFFFFFFFFFFF#48).toNat 1 false).isSome = true ∧
       (s.setBit (P.guardFirst 15 0) 31 true).canonical ∧ (s.setBit (P.guardFirst 15 0) 31 true).bit (P.guardFirst 15 0) 31 = true ∧
       s.bit (P.guardFirst 15 0) 31 = false) := by
  simp only [canon_iff]; decide +kernel

theorem witness_AccessGuards_arm :
    (base .hold).canonical ∧ rq0.over [0, 1] ∧ (base .hold).sys.mode ≠ .trail ∧
    (base .hold).writeStatus rq0 [(0xC001 + 0x100 * (15 : Fin 16).val, 1)] (0xC001 + 0x100 * (15 : Fin 16).val, 1) = 0 ∧
    restartItem (0xC001 + 0x100 * (15 : Fin 16).val) = false := by
  simp only [canon_iff, Rq.over]; decide +kernel

/-! ### What partners do for each other -/

/-- A module with one relayed change, to SNR_WARN of port 15, acknowledged or not. -/
def relayAt (m : Mode) (effect : Nat) (acked : Bool) : State :=
  { base m with kpr := { KprS.fresh with staged := [⟨effect, [.param (P.trkSnrWarn 15) 150], some rq0, 0x0101, true, acked, false, 9⟩] } }

def hdrOf : LinkFrame := ⟨.b, true, true, 5, 0⟩

theorem witness_RelayedWork :
    (base .trail).canonical ∧ (base .trail).sys.mode = .trail ∧ (base .trail).bit P.pairStatus 25 = false ∧ (base .trail).coreUp = true ∧
      rq0.over [0] ∧
    (let s := { base .trail with sync := { SyncS.fresh with msgIn := [⟨7, 3, [1]⟩] } }
     s.canonical ∧ s.sync.msgIn.find? (fun m => m.fseq == 7) = some ⟨7, 3, [1]⟩) ∧
    (let s := relayAt .lead 0 true
     s.canonical ∧ s.sys.mode ≠ .resync ∧ s.kpr.staged.length = 1 ∧ 0 ≤ s.time.tick ∧ rq0.mb ≠ 4) ∧
    (relayAt .lead 2 false).canonical ∧ 2 ≤ (relayAt .lead 2 false).time.tick + 2 ∧
    (relayAt .lead 3 false).canonical ∧ (relayAt .lead 3 false).time.tick + 2 < 3 ∧
    (let s := { base .lead with kpr := { KprS.fresh with reqs := List.replicate 15 (bgReq rq4 5 0) } }
     s.canonical ∧ s.sys.mode = .lead ∧ (s.kpr.reqs.filter fun r => r.rq.mb == 4).length < 16) ∧
    { hdrOf with sound := false }.sound = false ∧
    (let s := { base .resync with sync := { SyncS.fresh with resync := some ⟨false, 2, 0, 0, 0, 0, 0, 0, 0, 0, false, false, 0, 8, 9⟩ } }
     s.canonical ∧ s.takesFrame hdrOf false ∧ s.sys.mode = .resync ∧ 0x1000000000 ≤ 0x1000000000) := by
  simp only [canon_iff, Rq.over, State.takesFrame]; decide +kernel

/-! ### Resets, BOOT and the lever -/

def modSys (s : State) (f : SysS → SysS) : State := { s with sys := f s.sys }
def modPair (s : State) (f : PairS → PairS) : State := { s with pair := f s.pair }
def modSync (s : State) (f : SyncS → SyncS) : State := { s with sync := f s.sync }
def modKpr (s : State) (f : KprS → KprS) : State := { s with kpr := f s.kpr }

/-- A step of the release order that succeeds or fails, with nothing unstable. -/
def stepRes (ok : Bool) : StepRes := ⟨[], ok, 0, 0, 0, 7, List.replicate 6 2400, true⟩

theorem witness_ResetSources :
    (base .lead).canonical ∧ 10000 ≤ 10000 ∧ 999 < 1000 ∧ 1000 ≤ 1000 ∧ 9999 < 10000 ∧
    (modKpr (base .lead) fun x => { x with restart := some 0 }).canonical ∧
      (modKpr (base .lead) fun x => { x with restart := some 0 }).kpr.restart = some 0 ∧ (base .lead).pair.withdrawing = none ∧
      { (base .lead).pair with withdrawing := some 0x0B }.withdrawing ≠ none ∧
    (let s := (base .lead).setFld P.sysClock 7 6 1
     s.canonical ∧ s.fld P.sysClock 7 6 ≠ 0 ∧ 1 ∉ s.sys.boot) ∧
    (let s := modKpr (modSys (base .lead) fun x => { x with deferred := [(3, 0)] }) fun x => { x with now := 100 }
     s.canonical ∧ (Die.fd1.num, 0) ∈ s.sys.deferred ∧ 0 + 100 ≤ s.kpr.now ∧ s.sys.boot = []) ∧
    (let s := (base .lead).setBit P.sysClock 1 true
     s.canonical ∧ s.bit P.sysClock Die.line.num = true ∧ Die.line ∈ { stepRes true with unstable := [.line] }.unstable ∧
       Die.line ∉ (stepRes true).unstable) ∧
    (let s := modSys (base .lead) fun x => { x with sluices := 2 ^ 13, inits := 2 ^ 13 + 2 ^ 3 }
     s.canonical ∧ hasBit s.sys.sluices (13 : Fin 14) = true ∧ hasBit s.sys.inits (13 : Fin 14) = true ∧
       hasBit s.sys.inits (3 : Fin 14) = true ∧ (3 : Fin 14).val < 4 ∧ hasBit s.sys.split (3 : Fin 14) = false ∧ (15 : Fin 16) ≠ 0) ∧
    hasBit (base .lead).sys.sluices (13 : Fin 14) = false ∧ (base .lead).regionUp (13 : Fin 14) = true := by
  simp only [canon_iff]; decide +kernel

/-- A module in BOOT with these steps still to run. -/
def bootAt (steps : List Nat) : State := modSys (base .boot) fun x => { x with diesUp := 0, boot := steps }

theorem witness_BootAndLever :
    (let s := modSys (base .boot) fun x => { x with keeperUp := false }
     (s.setFld P.sysResetCause 31 28 1).canonical ∧ (s.setFld P.sysResetCause 31 28 1).sys.keeperUp = false ∧
       (s.setFld P.sysResetCause 31 28 1).fld P.sysResetCause 31 28 = 1 ∧ (s.setFld P.sysResetCause 31 28 3).canonical ∧
       (s.setFld P.sysResetCause 31 28 3).fld P.sysResetCause 31 28 = 3 ∧ (s.setFld P.sysResetCause 31 28 4).canonical ∧
       (s.setFld P.sysResetCause 31 28 4).fld P.sysResetCause 31 28 = 4) ∧
    (let s := bootAt [2, 5]
     s.canonical ∧ s.sys.keeperUp = true ∧ s.sys.mains = true ∧ s.sys.bootFail = false ∧ s.bit P.imgStatus 10 = false ∧ s.sys.mode = .boot ∧
       s.sys.boot = 2 :: [5] ∧ (∀ d ∈ s.stepDies 2, s.bit P.sysClock d = false) ∧ (stepRes true).unstable = [] ∧ (stepRes true).ok = true ∧
       (stepRes false).ok = false) ∧
    (let s := modSys (bootAt [5]) fun x => { x with diesUp := 1 }
     s.canonical ∧ s.sys.boot = 5 :: [] ∧ (∀ d ∈ s.stepDies 5, s.bit P.sysClock d = false)) ∧
    (base .boot).canonical ∧ (base .boot).sys.mode = .boot ∧ (base .boot).sys.keeperUp = true ∧ (base .boot).sys.boot = [] ∧
    (base .standalone).canonical ∧ (base .standalone).sys.leverOut = false ∧ (base .standalone).sys.mains = true ∧
      (base .standalone).sys.mode = .standalone ∧ (base .lead).sys.mode = .lead ∧ (base .lead).pair.partner ≠ .trail ∧
    (base .trail).canonical ∧ (base .trail).sys.mode = .trail ∧ (base .trail).pair.withdrawing = none ∧
    (base .listen).canonical ∧ (base .listen).sys.mode = .listen ∧ (base .listen).sys.pending = none ∧
    (let s := modKpr (modSys (base .hold) fun x => { x with leverOut := true, leverTook := true, prgValid := true, cfgValid := true })
        fun x => { x with ownerKey := some (1, []) }
     s.canonical ∧ s.sys.keeperUp = true ∧ s.sys.leverOut = true ∧ s.sys.mode = .hold ∧ s.sys.leverTook = true ∧ s.sys.prgValid = true ∧
       s.sys.cfgValid = true ∧ s.kpr.ownerKey ≠ none ∧ s.sys.split = 0 ∧ s.sys.pending = none) := by
  simp only [canon_iff]; decide +kernel

/-- A lead of a pair that may hand over: a trail without a difference, its links usable. -/
def pairAt : State :=
  modPair (base .lead) fun x => { x with partner := .trail, hbMissed := 0, partnerMode := 6 }

theorem witness_BootAndLever_handover :
    pairAt.canonical ∧ pairAt.sys.keeperUp = true ∧ pairAt.sys.leverOut = false ∧ pairAt.mayHandover = true ∧
    ¬ (3 ≤ pairAt.chgPhase ∧ pairAt.chgPhase ≤ 6) := by
  simp only [canon_iff]; decide +kernel

/-! ### Modes and time -/

/-- Fit to run: program and configuration valid, no EP split. -/
def fitAt (m : Mode) : State := modSys (base m) fun x => { x with prgValid := true, cfgValid := true }

theorem witness_ModeRequests_cause : ∀ w, ModeCause.request ≠ .withdrawal w := by
  intro w h; cases h

theorem witness_ModeRequests :
    (let s := modSys (base .hold) fun x => { x with pending := some (.listen, .request), pendingRq := some (rq0, 0x0200) }
     s.canonical ∧ s.sys.pending = some (.listen, .request) ∧ s.pair.withdrawing = none ∧ Mode.listen ≠ s.sys.mode ∧
       Mode.listen.emits = false ∧ s.sys.pendingRq = some (rq0, 0x0200) ∧ rq0.mb ≠ 4) ∧
    (fitAt .hold).canonical ∧ rq0.over [0, 1] ∧ (fitAt .hold).mb1Limited rq0 = false ∧ (fitAt .hold).sys.pending = none ∧
      (fitAt .hold).sys.carrier = 0x12 ∧ (fitAt .hold).mayRun = true ∧ (fitAt .hold).sys.mode = .hold ∧
    (fitAt .listen).canonical ∧ (fitAt .listen).mayRun = true ∧ (fitAt .listen).sys.mode = .listen ∧
    (base .service).canonical ∧ (base .service).mayRun = false ∧ (base .service).sys.mode = .service ∧
    Mode.ofNum (4#8).toNat = some .standalone ∧ (4#8) ≠ 10#8 ∧ (base .hold).sys.mode.listed .standalone = false ∧
    Mode.ofNum (9#8).toNat = some .service ∧ (base .hold).sys.mode.listed .service = true ∧ (base .hold).modeCondition .service = true ∧
      (base .hold).sys.mode.run = false ∧ (base .hold).sys.mode ≠ .update ∧ (base .hold).pair.withdrawing = none ∧
    (base .trail).canonical ∧ (base .trail).sys.mode.listed .service = true ∧ (base .trail).modeCondition .service = true ∧
      (base .trail).sys.mode.run = true ∧ (base .trail).sys.pending = none ∧ (base .trail).mb1Limited rq0 = false ∧
    (1#32).toNat ≤ 1 ∧ (base .lead).coreUp = true ∧ (base .lead).sys.mode ≠ .boot ∧ (base .lead).sys.mode ≠ .update ∧
    (13#8).toNat < 14 ∧ (base .lead).regionUp (13#8).toNat = true ∧ 14 ≤ (14#8).toNat ∧ (base .lead).mb1Limited rq0 = false := by
  simp only [canon_iff, Rq.over]; decide +kernel

theorem witness_PlantTime :
    (base .hold).canonical ∧ rq0.over [0, 1] ∧ (base .hold).coreUp = true ∧ (base .hold).sys.mode.steps = true ∧
    (base .lead).canonical ∧ (base .lead).sys.mode.steps = false ∧
    (let s := { (base .hold).setWord P.timeSourceCfg 1 with time := { TimeS.fresh with gm := some 14 } }
     let thr := (s.word P.timeLockThr).toNat
     let m (off : Option Int) : PtpMsg := ⟨false, s.word P.timePtpTransport == 1#32, ⟨(s.word P.timePtpDomain).toNat % 256, by omega⟩, 7, 37, off⟩
     s.canonical ∧ s.ptpTakes (m none) = true ∧ s.sys.mode.ptp = true ∧ s.time.gm = some ((m none).gm.toNat * 2 + (m none).engB.toNat) ∧
       (m (some (-(thr : Int)))).offset = some (-(thr : Int)) ∧ (-(thr : Int)).natAbs ≤ thr ∧ thr < ((thr : Int) + 1).natAbs ∧
       s.sys.mode.steps = true ∧ (15 : Nat) ≠ (m none).gm.toNat * 2 + (m none).engB.toNat) ∧
    (let s := { base .lead with time := { TimeS.fresh with gm := some 14 }, kpr := { KprS.fresh with now := 3000 } }
     s.canonical ∧ s.time.gm ≠ none ∧ s.time.gmOrigin + 3000 ≤ s.kpr.now) ∧
    (let s := { base .trail with time := { TimeS.fresh with alignRun := 8 } }
     s.canonical ∧ s.sys.mode = .trail ∧ 8 ≤ s.time.alignRun ∧ s.pair.withdrawing = none) := by
  simp only [canon_iff, Rq.over]; decide +kernel

/-! ### The tick, the exchange and the links -/

/-- Both links usable, with frames arriving. -/
def linked (s : State) : State := (s.setBit P.syncStatus Link.a.usableBit true).setBit P.syncStatus Link.b.usableBit true

def snapNone : Snap := ⟨List.replicate 16 ⟨false, false, 0, 0, 0, false⟩, List.replicate 8 ⟨0, false, false⟩, List.replicate 6 0⟩
def exchOf (k : Nat) : Exch := ⟨k, 0, 0, 0, 0, snapNone, []⟩
def beatOf (k : Nat) : Beat := ⟨k, 5000, 3, 4000, 0, 6, false, false, false, false, 1, 1, List.replicate 8 0, List.replicate 8 0, List.replicate 32 0, 0, 0, []⟩

theorem witness_TickAndExchange :
    (base .lead).canonical ∧ (base .lead).coreUp = true ∧ (base .lead).sync.exchIn = none ∧ (base .lead).groupUp 5 = true ∧
    (modSys (base .boot) fun x => { x with diesUp := 0 }).canonical ∧ (modSys (base .boot) fun x => { x with diesUp := 0 }).coreUp = false ∧
    (modSync (base .lead) fun x => { x with exchIn := some (exchOf 0) }).canonical ∧
      (modSync (base .lead) fun x => { x with exchIn := some (exchOf 0) }).sync.exchIn ≠ none ∧
    (linked (base .lead)).canonical ∧ (linked (base .lead)).takesFrame hdrOf true ∧ hdrOf.tick = (linked (base .lead)).time.tick ∧
      (linked (base .lead)).sync.exchLate = false ∧ { hdrOf with tick := 1 }.tick ≠ (linked (base .lead)).time.tick ∧
      levelsChanged (linked (base .lead)).sync.beatLast (beatOf 0) = false ∧
    (let s := modSync (linked (base .lead)) fun x => { x with linkB := { LinkS.fresh with txs := [(3, 2000)] } }
     s.canonical ∧ s.takesFrame hdrOf true ∧ (s.link hdrOf.link).txs.find? (fun x => x.1 == (beatOf 0).echoTick) = some (3, 2000)) ∧
    (let s := modPair (linked (trunkAt .lead 0 id)) fun x => { x with partner := .trail }
     let r : RxRecord := ⟨15, 3, 0, 0, 0, [], []⟩
     s.canonical ∧ s.takesFrame hdrOf true ∧ s.agreesPair = true ∧ r.kind = 3 ∧ (s.port r.port).cur = some schedOf ∧
       r.cycle % 2 ^ 32 = (s.port r.port).cycle % 2 ^ 32 ∧
       s.time.tick ≤ (s.port r.port).cycleTick + schedOf.inputTick ((s.port r.port).pos schedOf) ∧
       { s with time := { TimeS.fresh with tick := 1 } }.canonical ∧
       (s.port r.port).cycleTick + schedOf.inputTick ((s.port r.port).pos schedOf) < { s with time := { TimeS.fresh with tick := 1 } }.time.tick) ∧
    (linked (base .lead)).agreesPair = false ∧ (base .hold).canonical ∧ (base .hold).coreUp = true ∧ (base .hold).sys.mode.emits = false ∧
    (let s := modPair (base .trail) fun x => { x with partner := .lead, hbMissed := 8 }
     s.canonical ∧ s.sys.mode = .trail ∧ s.inPair = true ∧ 8 ≤ s.pair.hbMissed ∧ s.trunksSilent = true) ∧
    (let s := modPair (base .lead) fun x => { x with partner := .trail, hbMissed := 8 }
     s.canonical ∧ s.sys.mode = .lead ∧ s.inPair = true ∧ 8 ≤ s.pair.hbMissed ∧ s.trunksSilent = true) := by
  simp only [canon_iff, State.takesFrame]; decide +kernel

/-- Two mismatches, the second of the lower EP and lane. -/
def mismatches : List Mismatch := [(3, 7, 0, 1), (3, 6, 0, 2)]

theorem mismatches_all (P : Mismatch → Prop) : (∀ x ∈ mismatches, P x) ↔ P (3, 7, 0, 1) ∧ P (3, 6, 0, 2) := by simp [mismatches]

theorem witness_LinksAndLockstep :
    (let s := modSync (linked (base .lead)) fun x => { x with linkA := { LinkS.fresh with silent := 8 },
                                                              linkB := { LinkS.fresh with silent := 7, beyond := 8 } }
     s.canonical ∧ s.usable .a = true ∧ 8 ≤ (s.link .a).silent ∧ s.usable .b = true ∧ 8 ≤ (s.link .b).beyond) ∧
    (let s := modSync (linked (base .lead)) fun x => { x with linkA := { LinkS.fresh with silent := 7, beyond := 7, good := 63 } }
     s.canonical ∧ (s.link .a).silent < 8 ∧ (s.link .a).beyond < 8 ∧ (s.link .a).good < 64) ∧
    (let s := modSync (base .lead) fun x => { x with linkA := { LinkS.fresh with good := 64 } }
     s.canonical ∧ s.usable .a = false ∧ 64 ≤ (s.link .a).good) ∧
    (let s := modPair (base .lead) fun x => { x with hbMissed := 7 }
     s.canonical ∧ s.pair.hbSeen = false ∧ 7 ≤ s.pair.hbMissed ∧ s.bit P.pairStatus 24 = false) ∧
    (let s := modPair (base .lead) fun x => { x with hbMissed := 6 }
     s.canonical ∧ s.pair.hbMissed < 7) ∧
    (base .lead).canonical ∧ (base .lead).coreUp = true ∧ hasBit (base .lead).sys.split (3 : Fin 4) = false ∧
    (let s := modSys (base .lead) fun x => { x with split := 8 }
     s.canonical ∧ s.coreUp = true ∧ hasBit s.sys.split (3 : Fin 4) = true ∧ s.sys.split ≠ 0) ∧
    (∀ x ∈ mismatches, hasBit (base .lead).sys.split x.1 = false) ∧ firstMismatch mismatches = some (3, 6, 0, 2) ∧
    (base .lead).sys.mode.emits = true ∧ rq1.over [0, 1] ∧ rq0.over [0] ∧ (base .lead).sys.mode ≠ .trail ∧
    (base .trail).canonical ∧ (base .trail).sys.mode = .trail ∧ (base .trail).pair.partner ≠ .lead ∧
    (let s := modPair (base .trail) fun x => { x with partner := .lead }
     s.canonical ∧ s.coreUp = true ∧ s.sys.mode = .trail ∧ s.pair.partner = .lead ∧ s.bit P.pairStatus 23 = false ∧
       s.bit P.pairStatus 22 = false ∧ s.sys.split = 0 ∧ s.bit P.pairStatus 25 = false ∧ s.pair.withdrawing = none ∧
       s.conflict 5 true none = none ∧ (s.setFld P.prgChangeStatus 15 13 3).canonical ∧
       (s.setFld P.prgChangeStatus 15 13 3).conflict 5 true none = some 0 ∧ 1 < 2 ∧ 7 < 8) := by
  simp only [canon_iff, Rq.over, mismatches_all]; (repeat' apply And.intro) <;> decide +kernel

/-! ### The pair -/

def resolving (m : Mode) (own partner : Option Bool) : State := modPair (base m) fun x => { x with resolution := some ⟨0, own, partner⟩ }
def twoTicksOn (s : State) : State := { s with time := { TimeS.fresh with tick := 2 } }

theorem witness_WithdrawalAndTakeover :
    (let s := modPair (base .lead) fun x => { x with withdrawing := some 31 }
     s.canonical ∧ s.pair.withdrawing = some 31 ∧ 31 < 32 ∧ s.sys.pending = none ∧ 31 ≠ 0x0B ∧ s.sys.mode.role ≠ Mode.listen.role) ∧
    (let s := modPair (modSys (base .lead) fun x => { x with pending := some (.hold, .lever) }) fun x => { x with withdrawing := some 0x0B }
     s.canonical ∧ s.sys.pending = some (.hold, .lever) ∧ ModeCause.lever.rank < 4 ∧ s.pair.takeoverDue = false) ∧
    (base .lead).canonical ∧ (base .lead).pair.withdrawing = none ∧ (base .trail).canonical ∧ (base .trail).sys.mode = .trail ∧
      (base .lead).sys.mode ≠ .trail ∧
    (let s := resolving .lead (some true) none
     s.canonical ∧ s.pair.resolution = some ⟨0, some true, none⟩ ∧ s.time.tick < 0 + 2 ∧ (twoTicksOn s).canonical ∧
       0 + 2 ≤ (twoTicksOn s).time.tick ∧ (twoTicksOn s).pair.resolution = some ⟨0, some true, none⟩) ∧
    (resolving .lead (some false) none).canonical ∧ (resolving .lead (some false) none).sys.mode = .lead ∧
    (resolving .trail (some false) (some true)).canonical ∧ (resolving .trail (some false) (some true)).sys.mode = .trail ∧
    (resolving .trail (some false) (some false)).canonical ∧ (resolving .trail (some false) none).canonical ∧
    (let s := modPair (base .trail) fun x => { x with takeoverDue := true }
     s.canonical ∧ s.pair.takeoverDue = true ∧ s.sys.mode = .trail) ∧
    (base .trail).pair.takeoverDue = false ∧
    (let s := { (base .listen).setWord P.pairAutostart 1 with time := { TimeS.fresh with tick := 10000000 } }
     s.canonical ∧ s.sys.mode = .listen ∧ s.alone = true ∧ (∀ p, p < 16 → s.used p = true → s.aloneReady p = true) ∧
       s.word P.pairAutostart = 1#32 ∧ s.sys.split = 0 ∧ s.bit P.chkStatus 14 = false) ∧
    (let s := trunkAt .lead 0 fun q => { q with outHoldRun := 16 }
     s.canonical ∧ s.sys.mode = .lead ∧ 16 ≤ (s.port 15).outHoldRun ∧ hasBit s.pair.suspect 15 = false) ∧
    (let s := trunkAt .lead 0 fun q => { q with outHoldRun := 15 }
     s.canonical ∧ (s.port 15).outHoldRun < 16) := by
  simp only [canon_iff]; decide +kernel

/-- The resolutions of other ticks: one, and none. -/
theorem witness_WithdrawalAndTakeover_verdict :
    (∀ r, (resolving .lead none none).pair.resolution = some r → r.tick ≠ 1) ∧ (resolving .lead none none).pair.resolution = some ⟨0, none, none⟩ ∧
    (∀ r, (base .lead).pair.resolution = some r → r.tick ≠ 1) :=
  ⟨fun r h => by cases h; decide, rfl, fun r h => by cases h⟩

/-- A handover at tick 8 or 4, in a phase, on the old lead's or the new one's side. -/
def handAt (m : Mode) (x : Nat) (phase : Agree3) (old : Bool) : State :=
  modPair (base m) fun p => { p with handover := some ⟨x, phase, old, none⟩, hbMissed := 0 }

theorem witness_HandoverAndPairCommands :
    rq0.over [0] ∧ (base .trail).canonical ∧ (base .trail).coreUp = true ∧ (base .trail).sys.mode ≠ .lead ∧
    (base .lead).canonical ∧ (base .lead).coreUp = true ∧ (base .lead).sys.mode = .lead ∧ (base .lead).mayHandover = false ∧
    pairAt.canonical ∧ pairAt.coreUp = true ∧ pairAt.mayHandover = true ∧ pairAt.bgFull rq0.mb = false ∧ ¬ (3 ≤ pairAt.chgPhase ∧ pairAt.chgPhase ≤ 6) ∧
    (pairAt.setChgPhase 3).canonical ∧ (pairAt.setChgPhase 3).mayHandover = true ∧ 3 ≤ (pairAt.setChgPhase 3).chgPhase ∧
      (pairAt.setChgPhase 6).canonical ∧ (pairAt.setChgPhase 6).chgPhase ≤ 6 ∧
    (base .trail).sys.mode = .trail ∧ (base .trail).bit P.pairStatus 23 = false ∧ (base .trail).bit P.pairStatus 25 = false ∧
    (handAt .lead 8 .proposed true).canonical ∧ (handAt .lead 8 .proposed true).pair.handover = some ⟨8, .proposed, true, none⟩ ∧
      (handAt .lead 8 .proposed true).time.tick + 8 ≤ 8 ∧ 8 ≤ (handAt .lead 8 .proposed true).time.tick + 8 ∧
    (handAt .lead 7 .proposed true).canonical ∧ 7 < (handAt .lead 7 .proposed true).time.tick + 8 ∧
    (handAt .lead 9 .proposed true).canonical ∧ (handAt .lead 9 .proposed true).time.tick + 8 < 9 ∧
    (handAt .trail 4 .acked false).canonical ∧ (handAt .trail 4 .acked false).time.tick + 4 ≤ 4 ∧
      4 ≤ (handAt .trail 4 .acked false).time.tick + 4 ∧ (handAt .trail 4 .acked false).bit P.pairStatus 24 = false ∧
      (handAt .trail 4 .acked false).pair.hbMissed < 8 ∧
    (modPair (handAt .trail 4 .acked false) fun p => { p with hbMissed := 8 }).canonical ∧
      8 ≤ (modPair (handAt .trail 4 .acked false) fun p => { p with hbMissed := 8 }).pair.hbMissed ∧
    (handAt .lead 1 .confirmed true).canonical ∧ (handAt .lead 1 .confirmed true).time.tick < 1 ∧
    (handAt .lead 0 .confirmed true).canonical ∧ 0 ≤ (handAt .lead 0 .confirmed true).time.tick ∧
      (handAt .lead 0 .confirmed true).sys.mode = .lead ∧
    (handAt .trail 0 .confirmed false).canonical ∧ (handAt .trail 0 .confirmed false).sys.mode = .trail ∧
    (handAt .standalone 0 .confirmed true).canonical ∧ (handAt .standalone 0 .confirmed true).sys.mode = .standalone ∧
      (handAt .standalone 0 .confirmed true).sys.pending = none ∧
    (handAt .resync 0 .confirmed false).canonical ∧ (handAt .resync 0 .confirmed false).sys.mode = .resync := by
  simp only [canon_iff, Rq.over]; decide +kernel

theorem witness_HandoverAndPairCommands_end :
    (let s := modKpr (modPair (handAt .lead 0 .confirmed true) fun p => { p with afterHandover := some 9 }) fun x =>
       { x with reqs := [{ bgReq rq0 0x0600 0 with background := true }] }
     s.canonical ∧ s.pair.afterHandover = some 9 ∧ s.background 0x0600 = some rq0 ∧ rq0.mb ≠ 4) ∧
    (base .lead).sys.mode.run = true ∧ (base .lead).pair.withdrawing = none ∧ (base .lead).sys.pending = none ∧
    (base .hold).canonical ∧ (base .hold).coreUp = true ∧ (base .hold).sys.mode.run = false ∧
    (base .listen).canonical ∧ (base .listen).coreUp = true ∧ (base .listen).sys.mode = .listen ∧
    (base .lead).canonical ∧ (base .lead).sys.mode = .lead ∧ (base .lead).pair.partner = .absent ∧ 2 ≤ (2#32).toNat ∧
    (0x10000000#32).toNat ≤ 0x10000000 ∧ (1#32).toNat < 2 ∧ 0x10000000 < (0x10000001#32).toNat := by
  simp only [canon_iff]; decide +kernel

/-! ### Resynchronisation -/

/-- A resync in a phase, seen by the lead or by the returning module, and a state in it. -/
def resyncOf (lead : Bool) (phase : Nat) : Resync := ⟨lead, phase, 0, 0, 0, 0, 0, 0, 0, 0, false, false, 512, 16, 100⟩
def inResync (s : State) (r : Resync) : State := modSync s fun x => { x with resync := some r }

/-- A module that may join, with a partner's BEAT of these levels and this order code. -/
def joining (pairLevel execLevel : Nat) (orderK : Bool) : State :=
  modSync ((linked (base .listen)).setBit P.timeStatus 4 true) fun x =>
    { x with beatLast := some { beatOf 0 with pairLevel := pairLevel, execLevel := execLevel, orderK := orderK } }

/-- A capture of tick 7: two bytes of PM. -/
def cutOf : CutState := ⟨7, [(16, 1), (17, 2)], [], [], List.replicate 32 0, pkgOf, none, 0, [], [], [], [], [], [], none, []⟩

theorem witness_JoinAndCopy_request :
    (∀ o : Bool, (let s := joining 1 1 o
      s.canonical ∧ s.mayJoin = true ∧ s.sync.accepted = none ∧ ∃ b, s.sync.beatLast = some b ∧ b.orderK = o ∧ s.levelsOk b = true)) ∧
    (∀ o : Bool, (let s := joining 3 1 o
      s.canonical ∧ s.mayJoin = true ∧ ∃ b, s.sync.beatLast = some b ∧ b.orderK = o ∧ s.levelsOk b = false)) ∧
    (let s := modSync (base .hold) fun x => { x with beatLast := some (beatOf 0) }
     s.canonical ∧ s.mayJoin = false) ∧
    (let s := modSync (joining 1 1 true) fun x => { x with accepted := some 9 }
     s.canonical ∧ s.sync.accepted ≠ none) := by
  simp only [canon_iff]
  refine ⟨fun o => ⟨by cases o <;> decide +kernel, by cases o <;> decide +kernel, rfl, _, rfl, rfl, by cases o <;> decide +kernel⟩,
    fun o => ⟨by cases o <;> decide +kernel, by cases o <;> decide +kernel, _, rfl, rfl, by cases o <;> decide +kernel⟩, ?_, ?_⟩ <;>
    decide +kernel

/-- Whatever the order code of this model is, a BEAT shows it or another. -/
theorem witness_JoinAndCopy_order : (joining 1 1 Config.orderCode).sync.beatLast.map Beat.orderK = some Config.orderCode ∧
    !Config.orderCode ≠ Config.orderCode := ⟨rfl, by cases Config.orderCode <;> decide⟩

theorem witness_JoinAndCopy_accept :
    (base .lead).canonical ∧ (base .lead).sys.mode = .lead ∧ (base .lead).inPair = false ∧ (base .lead).sync.resync = none ∧
      (base .lead).sync.accepted = none ∧ ¬ (3 ≤ (base .lead).chgPhase ∧ (base .lead).chgPhase ≤ 6) ∧ (base .lead).conflict 6 true none = none ∧
      (base .standalone).canonical ∧ (base .standalone).sys.mode = .standalone ∧ (base .standalone).inPair = false ∧
    ((base .lead).setChgPhase 3).canonical ∧ 3 ≤ ((base .lead).setChgPhase 3).chgPhase ∧ ((base .lead).setChgPhase 3).chgPhase ≤ 6 ∧
      ((base .lead).setChgPhase 6).canonical ∧ 3 ≤ ((base .lead).setChgPhase 6).chgPhase ∧ ((base .lead).setChgPhase 6).chgPhase ≤ 6 ∧
    (let s := { base .lead with maint := { (base .lead).maint with partner := 2 ^ 10 - 1 } }
     s.canonical ∧ s.inPair = false ∧ ¬ (3 ≤ s.chgPhase ∧ s.chgPhase ≤ 6) ∧ (s.conflict 6 true none).isSome = true) ∧
    (let s := modSync (base .listen) fun x => { x with joinAsked := some 0 }
     s.canonical ∧ s.sys.mode = .listen ∧ s.sync.joinAsked ≠ none) ∧
    (base .lead).sys.mode ≠ .listen ∧ (base .listen).canonical ∧ (base .listen).sync.joinAsked = none ∧
    (let s := modSync (base .listen) fun x => { x with accepted := some 0, beatLast := some (beatOf 0) }
     s.canonical ∧ s.sync.accepted = some 0 ∧ s.sync.beatLast = some (beatOf 0) ∧ 0 ≤ s.time.tick ∧ s.sys.mode = .listen ∧
     (let t := modSync s fun x => { x with accepted := some 1 }
      t.canonical ∧ t.sync.accepted = some 1 ∧ t.time.tick < 1)) ∧
    (let s := modSync (base .standalone) fun x => { x with accepted := some 0, beatLast := some { beatOf 0 with execLevel := 2 } }
     s.canonical ∧ 0 ≤ s.time.tick ∧ s.sys.mode = .standalone) ∧
    (let s := modSync (base .lead) fun x => { x with accepted := some 0, beatLast := some (beatOf 0) }
     s.canonical ∧ 0 ≤ s.time.tick ∧ s.sys.mode = .lead) := by
  simp only [canon_iff]; decide +kernel

theorem witness_JoinAndCopy_copy :
    (let s := { inResync (base .lead) (resyncOf true 1) with time := { TimeS.fresh with tick := 24 } }
     s.canonical ∧ s.sync.resync = some (resyncOf true 1) ∧ (resyncOf true 1).start + 24 ≤ s.time.tick ∧ s.pair.partnerMode ≠ Mode.resync.num) ∧
    (let s := { inResync (base .lead) (resyncOf true 1) with time := { TimeS.fresh with tick := 23 } }
     s.canonical ∧ s.sync.resync = some (resyncOf true 1) ∧ s.time.tick < (resyncOf true 1).start + 24) ∧
    (modPair (inResync (base .lead) (resyncOf true 1)) fun x => { x with partnerMode := Mode.resync.num }).canonical ∧
    (let r := resyncOf true 2
     (inResync (base .lead) r).canonical ∧ (inResync (base .lead) r).sync.resync = some r ∧ r.lead = true ∧ r.phase = 2 ∧ r.z = 0 ∧
       512 ≤ r.cutPages ∧ r.cutPages < 513 ∧ r.pass + 1 < r.maxPasses) ∧
    (let r := { resyncOf true 2 with pass := 15 }
     (inResync (base .lead) r).canonical ∧ (inResync (base .lead) r).sync.resync = some r ∧ r.lead = true ∧ r.phase = 2 ∧ r.z = 0 ∧
       r.maxPasses ≤ r.pass + 1 ∧ r.cutPages < 131072 ∧ 131072 ≤ 131072 ∧ r.cutPages < 131073 ∧ 131072 < 131073) ∧
    (inResync (linked (base .lead)) { resyncOf true 2 with pass := 15 }).canonical ∧
      (inResync (linked (base .lead)) { resyncOf true 2 with pass := 15 }).anyLink = true ∧
    (let r := { resyncOf true 2 with z := 1 }
     let s := { inResync (base .lead) r with time := { TimeS.fresh with tick := 1 } }
     (inResync (base .lead) r).canonical ∧ (inResync (base .lead) r).sync.resync = some r ∧ r.z ≠ 0 ∧ (inResync (base .lead) r).time.tick < r.z ∧
       s.canonical ∧ s.sync.resync = some r ∧ r.z ≤ s.time.tick) ∧
    (let s := inResync (base .resync) (resyncOf false 2)
     s.canonical ∧ s.sync.resync = some (resyncOf false 2) ∧ (resyncOf false 2).lead = false ∧ s.sys.mode = .resync ∧
       (inResync (base .resync) (resyncOf false 3)).canonical ∧ (resyncOf false 3).phase = 3 ∧ (resyncOf false 2).converted = false ∧
       cutOf.pm.Pairwise fun x y => x.1 ≠ y.1) := by
  simp only [canon_iff]; decide +kernel

/-- A returning module that executes tick 0 of its lead's items. -/
def catching (conv : Bool) (phase : Nat) : State := inResync (base .resync) { resyncOf false phase with converted := conv }
def itemsOf : LeadItems := ⟨exchOf 0, beatOf 0, []⟩
def tickAt (s : State) (k : Nat) : State := { s with time := { TimeS.fresh with tick := k } }

theorem witness_CatchUpAndJoin_executed :
    (catching true 4).canonical ∧ (catching true 4).sync.resync = some { resyncOf false 4 with converted := true } ∧
      itemsOf.exch.tick = (resyncOf false 4).executed ∧ itemsOf.beat.tick = (resyncOf false 4).executed ∧
      (catching true 4).time.tick = (resyncOf false 4).executed ∧ (catching true 5).canonical ∧
    (tickAt (catching true 4) 1).canonical ∧ (resyncOf false 4).executed ≠ (tickAt (catching true 4) 1).time.tick ∧
    (let r := { resyncOf false 4 with executed := 1 }
     (inResync (base .resync) r).canonical ∧ (inResync (base .resync) r).sync.resync = some r ∧ (inResync (base .resync) r).time.tick < r.executed) := by
  simp only [canon_iff]; decide +kernel

/-- A tick's digests are those of the BEAT as far as they are compared: not in a converted transfer. -/
theorem witness_CatchUpAndJoin_same :
    (let s := catching true 4
     (s.executeTick 0 itemsOf []).1.executedDiffers (s.executeTick 0 itemsOf []).2.1 (s.executeTick 0 itemsOf []).2.2 itemsOf.beat = false) := by
  have h : ((catching true 4).executeTick 0 itemsOf []).1.sync.resync.any (fun r => !r.converted) = false := by decide +kernel
  show State.executedDiffers _ _ _ _ = false
  unfold State.executedDiffers
  split <;> simp_all

/-- A BEAT without digests differs from every tick. -/
theorem witness_CatchUpAndJoin_other :
    (let s := catching false 4
     s.canonical ∧
     (s.executeTick 0 itemsOf []).1.executedDiffers (s.executeTick 0 itemsOf []).2.1 (s.executeTick 0 itemsOf []).2.2 itemsOf.beat = true) := by
  have h : ((catching false 4).executeTick 0 itemsOf []).1.sync.resync.any (fun r => !r.converted) = true := by decide +kernel
  have ho : ((catching false 4).executeTick 0 itemsOf []).2.2 ≠ [] := by simp [State.executeTick, State.leadTick]
  refine ⟨by simp only [canon_iff]; decide +kernel, ?_⟩
  have hb : itemsOf.beat.digests = [] := rfl
  unfold State.executedDiffers
  split <;> simp_all

theorem witness_CatchUpAndJoin_end :
    (let r := { resyncOf false 4 with cutAt := 10 }
     (tickAt (inResync (base .resync) r) 810).canonical ∧ (tickAt (inResync (base .resync) r) 810).sync.resync = some r ∧ r.lead = false ∧
       (tickAt (inResync (base .resync) r) 810).sys.mode = .resync ∧ r.cutAt + 8 * r.catchMax ≤ 810 ∧
       (tickAt (inResync (base .resync) r) 809).canonical ∧ 809 < r.cutAt + 8 * r.catchMax) ∧
    (let r := { resyncOf false 5 with x := 10 }
     (tickAt (inResync (base .resync) r) 19).canonical ∧ (tickAt (inResync (base .resync) r) 19).sync.resync = some r ∧ r.phase = 5 ∧
       r.j = 0 ∧ r.converted = false ∧ r.x + 8 < 19 ∧ (tickAt (inResync (base .resync) r) 18).canonical ∧ 18 ≤ r.x + 8) ∧
    (15#8).toNat < 16 ∧ (inResync (linked (base .resync)) (resyncOf false 1)).canonical ∧
      (inResync (linked (base .resync)) (resyncOf false 1)).anyLink = true ∧ (catching false 5).canonical ∧ (catching false 5).anyLink = false ∧
      (catching false 5).sys.mode = .resync ∧
    (modPair (catching false 5) fun x => { x with hbMissed := 8 }).canonical ∧
    (let s := inResync (base .lead) (resyncOf true 3)
     s.canonical ∧ s.sync.resync = some (resyncOf true 3) ∧ (resyncOf true 3).lead = true ∧ s.sys.mode ≠ .resync ∧
       (resyncOf true 3).converted = false ∧ (inResync (base .lead) (resyncOf true 4)).canonical ∧
       (inResync (base .lead) (resyncOf true 5)).canonical ∧
       (inResync (base .standalone) { resyncOf true 4 with converted := true }).canonical) ∧
    (let r := { resyncOf false 5 with readySent := true }
     (inResync (base .resync) r).canonical ∧ (inResync (base .resync) r).sync.resync = some r ∧ r.phase = 5 ∧ r.readySent = true ∧ r.j = 0) ∧
    (let r := { resyncOf true 5 with j := 9 }
     (tickAt (inResync (base .lead) r) 9).canonical ∧ (tickAt (inResync (base .lead) r) 9).sync.resync = some r ∧ r.j ≠ 0 ∧ r.j ≤ 9 ∧
       r.converted = false ∧ r.lead = true ∧ (tickAt (inResync (base .lead) r) 8).canonical ∧ 8 < r.j) ∧
    (let r := { resyncOf false 5 with j := 9, executed := 9 }
     (tickAt (inResync (base .resync) r) 9).canonical ∧ (tickAt (inResync (base .resync) r) 9).sync.resync = some r ∧ r.j ≠ 0 ∧ r.j ≤ 9 ∧
       r.converted = false ∧ r.lead = false ∧ r.executed = (tickAt (inResync (base .resync) r) 9).time.tick ∧
       (tickAt (inResync (base .resync) r) 9).sys.mode = .resync) ∧
    (base .listen).canonical ∧ (base .listen).sync.resync = none ∧ (base .listen).sys.mode = .listen ∧
    (let s := modSync (base .listen) fun x => { x with retryAt := some 0 }
     s.canonical ∧ s.sync.retryAt = some 0 ∧ 0 ≤ s.plant) ∧
    (let s := modSync (base .listen) fun x => { x with retryAt := some 10000000000 }
     s.canonical ∧ s.sync.retryAt = some 10000000000 ∧ s.plant < 10000000000) := by
  simp only [canon_iff]; (repeat' apply And.intro) <;> decide +kernel

/-! ### Debug -/

/-- A module on hold whose debugger may access PM and one DRAM block; and one with EP 3 halted. -/
def debugged : State :=
  [(9, 0, Area.words ⟨9, 0x40000000, 0x1000000, 0, 0, 6, 6⟩), (9, 1, Area.words ⟨9, 0x1000000000, 0x1000, 0, 0, 6, 6⟩),
    (10, 0, Area.words ⟨10, 0x40000000, 0x1000000, 0, 0, 6, 6⟩), (11, 0, Area.words ⟨11, 0x1000000000, 0x1000, 0, 0, 6, 6⟩)].foldl
    (fun s x => s.setWords (curKey x.1 x.2.1 0) x.2.2) (base .hold)
def haltedAt (pc : U64) : State := (base .hold).modEp 3 fun e => { e with halted := true, pc := pc, regs := [(2, 9)], breaks := [(0, 1, 64)] }

theorem witness_Debug :
    rq5.over [5] ∧ (base .hold).canonical ∧ (base .hold).debugs rq5 0 ∧ (base .hold).debugs rq5 3 ∧ ((base .hold).ep (3#8).toNat).halted = false ∧
    (haltedAt 80).canonical ∧ (haltedAt 80).debugs rq5 3 ∧ ((haltedAt 80).ep (3#8).toNat).halted = true ∧
      (base .service).canonical ∧ (base .service).debugs rq5 0 ∧ (base .replay).canonical ∧ (base .replay).debugs rq5 0 ∧
    ((haltedAt 80).ep (3#8).toNat).regs.find? (fun x => x.1 == (2#8).toNat) = some (2, 9) ∧
    ((haltedAt 80).ep (3#8).toNat).regs.find? (fun x => x.1 == (255#8).toNat) = none ∧
    4072 < (4073#32).toNat ∧ (4072#32).toNat ≤ 4072 ∧ 4072 < (List.replicate 4073 (0 : Byte)).length ∧
      (List.replicate 4072 (0 : Byte)).length ≤ 4072 ∧
    ((base .hold).guardFinds (.debug rq5 0x0715) 0 0x40000000 4072 false).isSome = true ∧
      ((base .hold).guardFinds (.debug rq5 0x0716) 1 0x1000000000 4072 false).isSome = true ∧
    debugged.canonical ∧ debugged.debugs rq5 0 ∧
      debugged.guardFinds (.debug rq5 0x0715) 0 0x40FFFFFC 4 false = none ∧ debugged.guardFinds (.debug rq5 0x0715) 0 0x1000000FFC 4 false = none ∧
      debugged.guardFinds (.debug rq5 0x0716) 1 0x40000000 4 false = none ∧ debugged.guardFinds (.debug rq5 0x0716) 1 0x40FFFFFC 4 false = none ∧
      debugged.guardFinds (.debug rq5 0x0716) 1 0x1000000000 4 false = none ∧
      (debugged.guardFinds (.debug rq5 0x0716) 1 0x1000000FFC 5 false).isSome = true ∧
    3 < (4#8).toNat ∧ (3#8).toNat ≤ 3 := by
  simp only [canon_iff, State.debugs, Rq.over]; decide +kernel

theorem witness_Debug_reset :
    (base .lead).canonical ∧ (base .lead).coreUp = true ∧ (base .lead).sys.mode.debug = false ∧ (base .lead).sys.mode.emits = true ∧
    (base .resync).canonical ∧ (base .resync).sys.mode = .resync ∧ (base .hold).sys.mode.emits = false ∧ (base .hold).sys.mode ≠ .resync ∧
    (base .hold).coreUp = true ∧
    1 ≤ (1#32).toNat ∧ (4#32).toNat ≤ 4 ∧ (base .hold).regionUp ((1#32).toNat - 1) = true ∧ (base .hold).regionUp ((4#32).toNat - 1) = true ∧
    4 < (5#32).toNat ∧
    (4072#32).toNat ≤ 4072 ∧ (0x3FFF018#64).toNat + (4072#32).toNat ≤ traceSize ∧ 4072 < (4073#32).toNat ∧
      traceSize < (0x4000000#64).toNat + (1#32).toNat := by
  simp only [canon_iff]; decide +kernel

/-! ### FAULT-SAFE -/

/-- A module in FAULT-SAFE with a command in front that a reset follows, and one with a command that changes no mode. -/
def faulted (c : Instr) : State := { base .faultSafe with pending := [c] }

theorem witness_FaultSafeIsLeftByReset :
    (faulted (.dbgReset rq5 0)).faultLocked ∧ (faulted (.dbgTraceRead rq5 0 1)).faultLocked ∧
    (∃ t, step (faulted (.dbgReset rq5 0)) = .next t) ∧ (∃ t, step (faulted (.dbgTraceRead rq5 0 1)) = .next t) :=
  ⟨⟨rfl, rfl, rfl, rfl, rfl⟩, ⟨rfl, rfl, rfl, rfl, rfl⟩, ⟨_, rfl⟩, ⟨_, rfl⟩⟩

/-! ### Ill-formed commands are refused -/

theorem test_wf_requests :
    [Instr.echo rq4 [], .echo rq7 [], .sessionClose rq4, .modeRun ⟨4, 0, 1⟩, .modeRun ⟨7, 0, 1⟩, .recScan ⟨7, 0, 9⟩, .identityRead ⟨4, 0, 1⟩,
      .keyInstall rq0 0 0 [] true, .sessionProve rq0 0 [] true, .sessionOpen rq0 0 certOf [] [] [], .paramRead rq0 [],
      .paramRead rq0 (List.replicate 257 0), .paramWrite rq0 [], .paramWrite rq0 (List.replicate 65 (0, 0)), .tableWrite rq0 0 0 [],
      .trkCommission rq0 0 0 (List.replicate 193 1), .schedCommit rq0 0 (2 ^ 64), .prgChangeStage rq0 [] pkgOf true,
      .prgChangeCommit rq0 (2 ^ 64), .prgMsgSend rq0 (List.replicate 4097 0), .dbgMemWrite rq5 0 0 (List.replicate 4085 0),
      .fioHartXfer rq0 0 0 [] [], .gaugeExport rq0 0 (2 ^ 64) 0, .replayStart rq0 0 (2 ^ 64), .recUser rq0 0 0 0 0 (List.replicate 13 0),
      .imgXferOpen rq0 1 0 [], .imgXferDrop rq0 [], .imgStage rq0 [] true, .imgInstall rq0 [] true none [], .attest rq0 [] [],
      .stnDiscard rq0 []].all (fun c => !c.wellFormed) = true := by decide +kernel

theorem test_wf_messages :
    [Instr.trunkBeaconReceive 0 ⟨[], true, true, 0⟩, .partnerBroadcastReceive 0 ⟨List.replicate 1537 0, true, true, 0⟩,
      .slotFrameReceive 0 512 ⟨[0], true, true, 0⟩ ⟨0, [], 0, none⟩, .trainingFrameReceive 0 512 ⟨[0], true, true, 0⟩ ⟨0, [], 0, none⟩,
      .identify 0 0 ⟨0, [1]⟩, .hush 0 0 ⟨0, List.replicate 256 0⟩, .partnerExchReceive hdrOf { exchOf 0 with snap := { snapNone with dio := [] } },
      .partnerExchReceive hdrOf { exchOf 0 with snap := { snapNone with cl := [] } },
      .partnerExchReceive hdrOf { exchOf 0 with snap := { snapNone with sag := [] } }, .partnerExchReceive hdrOf { exchOf 0 with done := 2 ^ 32 },
      .partnerBeatReceive hdrOf 0 { beatOf 0 with progHash := [] }, .partnerBeatReceive hdrOf 0 { beatOf 0 with cfgHash := [] },
      .partnerBeatReceive hdrOf 0 { beatOf 0 with stateDigest := [] }, .partnerBeatReceive hdrOf 0 { beatOf 0 with mask := 2 ^ 17 },
      .partnerBeatReceive hdrOf 0 { beatOf 0 with wireMask := 2 ^ 16 }, .rxRecordReceive hdrOf [⟨0, 16, 0, 0, 0, [], []⟩],
      .xferFrameReceive hdrOf 0 0 0 [], .xferFrameReceive hdrOf 1 0 0 (List.replicate 1024 0), .relayedRequest 0 (2 ^ 16) [],
      .chgPropose 0 [] (List.replicate 32 0), .chgPropose 0 (List.replicate 32 0) [],
      .mailboxMessageReceive 0 0 0 0 0 false true (List.replicate 4097 0), .hartReplyReceive 0 true [] 0 0 []].all
      (fun c => !c.wellFormed) = true := by decide +kernel

theorem test_wf_events :
    [Instr.keeperDomainRelease ⟨0, 0, false, 0, 4, false, false⟩, .bootReleaseStep { stepRes true with epFail := 16 },
      .bootReleaseStep { stepRes true with calFail := 2 ^ 16 }, .bootReleaseStep { stepRes true with volts := List.replicate 7 0 },
      .regionInitDone 0 0 (List.replicate 5 0), .tickBoundary (List.replicate 17 0) 0 [] false, .tickBoundary [] (2 ^ 16) [] false,
      .tickBoundary [] 0 (List.replicate 9 0) false, .loopWindow [1024] [] [] 0, .loopWindow [] [256] [] 0, .loopWindow [] [] [128] 0,
      .programWindowOpen [(32, 0)], .runFinish 0 { RunEffects.none with outs := [(1, 0, 0)] },
      .runFinish 0 { RunEffects.none with outs := [(0x100000, 0, 0)] }, .runFinish 0 { RunEffects.none with txqPuts := [(0, 0, List.replicate 21 0)] },
      .runFinish 0 { RunEffects.none with outbox := [List.replicate 4097 0] }, .tickEndDigest 16 [], .outputCut false [], .eventRound 0 0 [(256, 0)],
      .maintRecordReceive 0 (List.replicate 11 (0, 0)), .housekeepingPeriod { periodOf with samples := [] },
      .housekeepingPeriod { periodOf with xcvr := [] }, .housekeepingPeriod { periodOf with links := [] },
      .housekeepingPeriod { periodOf with rxErr := [] }, .replayTick [(32, RunEffects.none)] [] [] false false, .replayTick [] [0] [] false false,
      .maskViolation 0 0 0 segOf (List.replicate 5 segOf), .sbTxqSubmit 0 0 0 (List.replicate 21 0),
      .sbMbxSend 0 (List.replicate 4097 0)].all (fun c => !c.wellFormed) = true := by decide +kernel

/-- And commands at the ends of their ranges are well formed. -/
theorem test_wf_accepted :
    [Instr.echo rq0 [], .modeRun rq4, .modeRun rq7, .paramRead rq0 (List.replicate 256 0), .paramWrite rq0 (List.replicate 64 (0, 0)),
      .schedCommit rq0 0 (2 ^ 64 - 1), .attest rq0 (List.replicate 32 0) [], .trunkBeaconReceive 0 ⟨List.replicate 1536 0, true, true, 0⟩,
      .slotFrameReceive 0 511 ⟨[0], true, true, 0⟩ ⟨0, [], 0, none⟩, .identify 0 0 ⟨0, List.replicate 255 0⟩,
      .partnerExchReceive hdrOf (exchOf 0), .partnerBeatReceive hdrOf 0 (beatOf 0), .loopWindow [1023] [255] [127] 0,
      .bootReleaseStep (stepRes true), .housekeepingPeriod periodOf, .runFinish 31 RunEffects.none].all Instr.wellFormed = true := by
  decide +kernel

/-! ### Words of the table -/

/-- No row of the table gives bits, so no word spells a command. -/
theorem test_no_word (nbits w : Nat) : decodeTableWord nbits w = none := rfl

theorem test_withFetchWord (s : State) (nbits w : Nat) : s.withFetchWord nbits w = s := rfl

/-! ### The spec's worked examples -/

/-- The state after a command; the state itself where there is none. -/
def after (c : Instr) (s : State) : State :=
  match exec c s with
  | .next t => t
  | _ => s

/-- "CRC check values" (R96). -/
theorem test_crc :
    crc32c [0x31, 0x32, 0x33, 0x34, 0x35, 0x36, 0x37, 0x38, 0x39] = 0xE3069283 ∧ crc32c (List.replicate 32 0) = 0x8A9136AA ∧
      crc32c (List.replicate 32 0xFF) = 0x62A8AB43 := by decide +kernel

/-- "Reading the conventions together" (R10). -/
theorem test_signed : later32 0x100 0xFFFFFF00 = true ∧ later32 0xFFFFFF00 0x100 = false := by decide +kernel

/-- "A rate change at a tick boundary" (R33), 500 s after the anchor: a rate term of 10 ms, and no step at the change. -/
def rated : TimeS := { TimeS.fresh with raw := 1500000000000, anchor := 1000000000000, offset := 1700000000000000000, rate := 20000000 }
theorem test_rate_change :
    rated.plantAt 1500000000000 = 1700001500010000000 ∧ (rated.setRate 19000000).offset = 1700000000010000000 ∧
      (rated.setRate 19000000).anchor = 1500000000000 ∧ (rated.setRate 19000000).plantAt 1500000000000 = 1700001500010000000 := by decide +kernel

/-- "112 stations in a 4 ms cycle": the inputs are complete at 1,944.2 µs in tick 15, the broadcasts end at 3,598.2 µs, a round takes 253.4 µs,
and `APPLY` is 29 (R110, R111, R118, R119). -/
def stations112 : List MEntry := (List.range 112).map fun i => ⟨i, i + 1, 0, 0, false, false, 1, 2, i⟩
def sched112 : Sched :=
  { schedOf with rate := 0, period := 32, hyper := 1, bcast := 17, loopDelay := 6000, evLen := 4, entries := stations112, widths := [widthIn stations112 0] }
theorem test_schedule_112 :
    (positionTimes (fun a => if a = 112 then 6000 else a - 1) 0 6000 0 stations112).2 = 1944200 ∧ agreeTick 1944200 = 15 ∧
      sched112.bcastStart = 2125000 ∧ bcastLen (sched112.width 0) 0 = 729600 ∧ sched112.eventStart 0 = 3598200 ∧
      roundLen 6000 4 0 = 253400 ∧ sched112.applyNeed = 29 := by decide +kernel

/-- "A timer in mid-flight" (R192): the call of 900 ms, and with the new preset those of 905 and 1,500 ms; and a preset of 800 ms. -/
def timing900 : Timer := (Timer.ton ⟨0, 0, false, false, true, false⟩ 1000 2000000000 true)
theorem test_ton :
    timing900.start = 1000 ∧ timing900.et = 0 ∧ timing900.q = false ∧
    ((Timer.ton { timing900 with inPrev := true } (1000 + 905000000) 1500000000 true).et, (Timer.ton { timing900 with inPrev := true }
      (1000 + 905000000) 1500000000 true).q) = (905000000, false) ∧
    ((Timer.ton { timing900 with inPrev := true } (1000 + 1500000000) 1500000000 true).et, (Timer.ton { timing900 with inPrev := true }
      (1000 + 1500000000) 1500000000 true).q) = (1500000000, true) ∧
    ((Timer.ton { timing900 with inPrev := true } (1000 + 905000000) 800000000 true).et, (Timer.ton { timing900 with inPrev := true }
      (1000 + 905000000) 800000000 true).q) = (800000000, true) := by decide +kernel

/-- "An edge detector in mid-flight" (R194): E2's first call primes it, and only the next rise is an edge. -/
theorem test_rTrig :
    (after (.rTrig 31 0x1020000000 true) prgAt).prog.sbResult = [0] ∧
    (after (.rTrig 31 0x1020000000 true) (after (.rTrig 31 0x1020000000 false) (after (.rTrig 31 0x1020000000 true) prgAt))).prog.sbResult = [1] := by
  decide +kernel

/-- "Claims through the life of a pair", step 4 (R261): A at 0x101 knows 0x102. -/
theorem test_takeover :
    (after .takeover (modPair (base .trail) fun p => { p with takeoverDue := true, claim := 0x101, high := 0x102 })).pair.claim = 0x104 := by
  decide +kernel

/-- "A bouncing photo-eye" (R343): DIO5 with `PERIOD` 200 and `CEIL` 4, sampled at 0 to 1,200 µs; what its last sample decides. -/
def eye : State :=
  let s := ((base .service).setFld (dioKey 5) 31 30 1).setFld (dioKey 5) 9 0 200 |>.setFld (dioKey 5) 23 16 4
  [(false, 0), (true, 200000), (false, 400000), (true, 600000), (true, 800000), (true, 1000000)].foldl (fun s x => after (.dioSample 5 x.1 x.2) s) s
theorem test_photo_eye :
    ((eye.dio 5).c, (eye.dio 5).f) = (3, false) ∧
    (let d := (after (.dioSample 5 true 1200000) eye).dio 5
     (d.f, d.decided, d.first, d.dir, d.edges) = (true, 1200000, 600000, true, 1)) := by decide +kernel

/-- "A straddling write" (R509, R518): 16 bytes at PM 0x080438 by a program run, refused whole. -/
def straddled : State :=
  let s := [(0, 0, Area.words ⟨10, 0x40080400, 0x40, 6, 4, 6, 6⟩), (0, 1, Area.words ⟨10, 0x40080440, 0xBC0, 0, 0, 6, 6⟩)].foldl
    (fun s x => s.setWords (curKey x.1 x.2.1 0) x.2.2) prgAt
  after (.guardAccessRefused (.ep 0 3 []) 1 0x40080438 16 false []) s
theorem test_straddling_write :
    straddled.word (P.guardFirst 0 1) = 0x40080440 ∧ straddled.fld (P.guardFirst 0 2) 15 0 = 0 ∧ straddled.word (P.guardFirst 0 4) = 0x40080438 ∧
      straddled.fld (P.guardFirst 0 3) 31 28 = 2 ∧ straddled.fld (P.guardFirst 0 3) 27 26 = 3 ∧ straddled.fld (P.guardFirst 0 3) 25 24 = 1 ∧
      straddled.fld (P.guardFirst 0 3) 23 21 = 1 ∧ straddled.bit (P.guardFirst 0 3) 20 = true ∧ straddled.pmByte 0x080438 = 0 := by
  decide +kernel

/-- "Reading the tick count" (R454): the two items of tick 13,600,008,004,080, after the status and the capture tick. -/
theorem test_reading_the_tick :
    ((after (.paramRead rq0 [0x1010, 0x1011]) { base .lead with time := { TimeS.fresh with tick := 13600008004080 } }).kpr.resps.map (·.payload)) =
      [[0, 0, 0, 0, 0xF0, 0x61, 0xA5, 0x7F, 0x5E, 0x0C, 0, 0, 0x10, 0x10, 0, 0, 0xF0, 0x61, 0xA5, 0x7F, 0x11, 0x10, 0, 0, 0x5E, 0x0C, 0, 0]] := by
  decide +kernel

end Sys2Proof.Tests
end

section
/-!
The obligations of 00_scope.md: a read gives what was last written (R9, R458), and wrapping values are compared by signed
difference (R10).
-/

namespace Sys2Proof.Machine

/-! ### Wrapping values -/

theorem later32_iff_sdiff32_pos (a b : U32) : later32 a b = true ↔ 0 < sdiff32 a b := decide_eq_true_iff

/-- Settles O8: `later32` decides the sign of `sdiff32`, which is the signed difference itself. -/
theorem signedComparison : Obligations.SignedComparison := by
  unfold Obligations.SignedComparison
  intro a b
  rw [later32_iff_sdiff32_pos, sdiff32]

/-! ### Little-endian bytes -/

@[simp] theorem length_leBytes (n v : Nat) : (leBytes n v).length = n := by
  induction n generalizing v with
  | zero => rfl
  | succ n ih => rw [leBytes, List.length_cons, ih]

/-- The bytes of a number spell its low 8 · n bits (R9). -/
theorem ofLe_leBytes (n v : Nat) : ofLe (leBytes n v) = v % 256 ^ n := by
  induction n generalizing v with
  | zero => rw [Nat.pow_zero, Nat.mod_one]; rfl
  | succ n ih => rw [leBytes, ofLe, ih, BitVec.toNat_ofNat, Nat.pow_succ' (m := 256), Nat.mod_mul]

/-! ### Consecutive writes to a sparse map -/

/-- Writes from key `k` up leave every key below `k` as it was. -/
theorem Cmap.get_putAll_of_lt {α : Type} [DecidableEq α] (d : Nat → α) (vs : List α) (m : List (Nat × α)) (k j : Nat)
    (h : Cmap.wf d m = true) (hj : j < k) : Cmap.get d (Cmap.putAll d m k vs) j = Cmap.get d m j := by
  induction vs generalizing m k with
  | nil => rfl
  | cons v vs ih =>
    rw [Cmap.putAll, ih _ _ (Cmap.wf_put d m k v h) (by omega), Cmap.get_put d m k j v h, if_neg (by omega)]

theorem Cmap.getAll_putAll {α : Type} [DecidableEq α] (d : Nat → α) (vs : List α) (m : List (Nat × α)) (k : Nat)
    (h : Cmap.wf d m = true) : Cmap.getAll d (Cmap.putAll d m k vs) k vs.length = vs := by
  induction vs generalizing m k with
  | nil => rfl
  | cons v vs ih =>
    have hw := Cmap.wf_put d m k v h
    rw [Cmap.putAll, List.length_cons, Cmap.getAll, ih _ _ hw, Cmap.get_putAll_of_lt d vs _ _ _ hw (by omega),
      Cmap.get_put d m k k v h, if_pos rfl]

/-! ### Reads after writes of State -/

theorem State.pmGet_pmPut (s : State) (hc : s.canonical) (a n v : Nat) : (s.pmPut a n v).pmGet a n = v % 256 ^ n := by
  obtain ⟨-, hpm, -⟩ := hc
  have hbytes := Cmap.getAll_putAll byteDflt (leBytes n v) s.pm a hpm
  rw [length_leBytes] at hbytes
  rw [State.pmGet, State.pmPut, State.setPm, hbytes, ofLe_leBytes]

theorem State.bit_setBit (s : State) (hc : s.canonical) (k b : Nat) (v : Bool) (j c : Nat) (hb : b < 32) :
    (s.setBit k b v).bit j c = if j = k ∧ c = b then v else s.bit j c := by
  by_cases hj : j = k
  · subst hj
    by_cases hcb : c = b
    · subst hcb; rw [State.bit_setBit_self s hc j c v hb, if_pos ⟨rfl, rfl⟩]
    · rw [State.bit_setBit_ne s hc j b c v hb hcb, if_neg fun h => hcb h.2]
  · rw [State.bit_setBit_key s hc k j b c v hj, if_neg fun h => hj h.1]

theorem State.word_inc (s : State) (hc : s.canonical) (k j : Nat) :
    (s.inc k).word j = if j = k then satInc32 (s.word k) else s.word j := State.word_setWord s hc k j _

theorem State.bit_setFld_outside (s : State) (hc : s.canonical) (k hi lo v b : Nat) (h : lo ≤ hi) (h2 : hi < 32)
    (hb : b < lo ∨ hi < b) : (s.setFld k hi lo v).bit k b = s.bit k b := by
  rw [State.bit_setFld s hc k hi lo v b h h2, if_neg (by omega)]

/-- Settles O7: each read is that of a sparse map after one write, or after consecutive writes, and a field is written into its word
with every bit outside it kept. -/
theorem readAfterWrite : Obligations.ReadAfterWrite := by
  unfold Obligations.ReadAfterWrite
  intro s hc
  refine ⟨?word, ?field, ?bit, ?counter, ?pm, ?dram, ?number⟩
  case word => exact fun k j v => State.word_setWord s hc k j v
  case field =>
    intro k hi lo v h h2
    exact ⟨State.fld_setFld_self s hc k hi lo v h h2, fun b hb => State.bit_setFld_outside s hc k hi lo v b h h2 hb⟩
  case bit => exact fun k b v j c hb => State.bit_setBit s hc k b v j c hb
  case counter => exact fun k j => State.word_inc s hc k j
  case pm => exact fun a b v => State.pmByte_setPmByte s hc a b v
  case dram => exact fun a b v => State.dramByte_setDramByte s hc a b v
  case number => exact fun a n v => ⟨ofLe_leBytes n v, State.pmGet_pmPut s hc a n v⟩

end Sys2Proof.Machine
end

section
/-!
The obligation on what two partners do for each other (R127, R184, R188, R199, R285, R286, R292, R445, R547, R552): relayed changes and
requests, the maintenance record, and the frames of the management plane.
-/

namespace Sys2Proof.Machine

/-! ### Loops over State -/

/-- What every pass of a loop leaves as it was, the loop leaves as it was. -/
theorem State.each_keeps {α β : Type} (g : State → β) (f : State → α → State) (hf : ∀ s a, g (f s a) = g s) (l : List α)
    (s : State) : g (s.each l f) = g s := by
  induction l generalizing s with
  | nil => rfl
  | cons a l ih => exact (ih (f s a)).trans (hf s a)

/-- What holds after `n` passes of a loop over `0, 1, …`, when each pass carries it one further. -/
theorem State.each_range (P : Nat → State → Prop) (f : State → Nat → State) (s : State) (n : Nat) (h0 : P 0 s)
    (hstep : ∀ i u, i < n → P i u → P (i + 1) (f u i)) : P n (s.each (List.range n) f) := by
  induction n with
  | zero => exact h0
  | succ n ih =>
    have hn := ih fun i u hi => hstep i u (by omega)
    rw [State.each, List.range_succ, List.foldl_append]
    exact hstep n _ (by omega) hn

/-! ### Answers -/

/-- A direct answer leaves the sync link as it was. -/
theorem State.respond_sync_direct (s : State) (hc : s.canonical) (rq : Rq) (hm : rq.mb ≠ 4) (op st d : Nat) (data : List Byte) :
    (s.respond rq op st d data).sync = s.sync := by
  obtain ⟨-, hframe, -⟩ := State.respond_replies s hc rq hm op st d data
  rw [hframe]

/-- An answer leaves the staged changes as they were. -/
theorem State.respond_staged_direct (s : State) (hc : s.canonical) (rq : Rq) (hm : rq.mb ≠ 4) (op st d : Nat) (data : List Byte) :
    (s.respond rq op st d data).kpr.staged = s.kpr.staged := by
  obtain ⟨-, -, hkpr, -⟩ := State.respond_replies s hc rq hm op st d data
  rw [hkpr]

/-! ### Relayed changes taken (R445), and ACTION (R188, R199) -/

theorem State.takeRelayed_trail (s : State) (effect : Nat) (id : U32) (items : List StagedItem) (hm : s.sys.mode = .trail) :
    s.takeRelayed effect id items = { s with kpr := { s.kpr with staged := s.kpr.staged ++
      [(⟨effect, items, none, 0, true, true, true, id⟩ : StagedChange)] } } := by
  rw [State.takeRelayed, hm]; rfl

theorem exec_relayChangeReceive_trail (s : State) (effect : Nat) (id : U32) (items : List StagedItem) (hm : s.sys.mode = .trail)
    (hsolo : s.bit P.pairStatus 25 = false) :
    exec (.relayChangeReceive effect id items) s = .next (s.takeRelayed effect id items) := by
  show execRelayChangeReceive effect id items s = _
  rw [execRelayChangeReceive, hm, hsolo]; rfl

theorem exec_action_forceSet_trail (s : State) (effect : Nat) (fseq : U32) (hm : s.sys.mode = .trail) :
    exec (.action 1 effect fseq) s = .next (s.takeRelayed effect fseq [.forces true]) := by
  show execAction 1 effect fseq s = _
  rw [execAction, hm]; rfl

theorem exec_action_inbox_trail (s : State) (effect : Nat) (fseq : U32) (m : MsgFrame) (hm : s.sys.mode = .trail)
    (hf : s.sync.msgIn.find? (fun m => m.fseq == fseq) = some m) :
    exec (.action 5 effect fseq) s = .next { s with prog := { s.prog with inbox := s.prog.inbox ++ [(effect, m.body)] } } := by
  show execAction 5 effect fseq s = _
  rw [execAction, hm, hf]; rfl

/-! ### A change applied at its effect tick (R445, R462) -/

theorem State.applyDue_param (s : State) (due : StagedChange → Bool) (c : StagedChange) (id : Nat) (v : U32) (hst : s.kpr.staged = [c])
    (hdue : due c = true) (hi : c.items = [.param id v]) :
    s.applyDue due = { s with kpr := { s.kpr with staged := [] } }.applyChange c := by
  have hown : c.ownRow = false := by rw [StagedChange.ownRow, hi]; rfl
  simp [State.applyDue, State.each, hst, hdue, hi, hown, StagedItem.ownRow]

/-- `TRK_SNR_WARN` is a writable parameter of the module, no pair configuration, current at a tick boundary (R88). -/
theorem paramRow_trkSnrWarn : ∀ p : Fin 16, paramRow (P.trkSnrWarn p) =
    some { base := 0x2010, insts := 16, acc := .rw, dflt := 0xb4, range := .le 120 400, cls := .tick } := by
  decide

/-- A new `TRK_SNR_WARN` is written, and nothing follows from it. -/
theorem State.applyParam_trkSnrWarn (s : State) (p : Fin 16) (v : U32) :
    s.applyParam (P.trkSnrWarn p) v = s.setWord (P.trkSnrWarn p) v := by
  have hp := p.isLt
  have hport : (0x2010 + 0x100 * p.val) / 0x100 % 16 = p.val := by omega
  simp only [State.applyParam, paramRow_trkSnrWarn, State.paramEffect, P.trkSnrWarn, hport]
  simp

/-- A change of `TRK_SNR_WARN` applied: the word is written with its event, the Keeper and memory stay, and the change is answered. -/
theorem State.applyChange_trkSnrWarn (s : State) (hc : s.canonical) (c : StagedChange) (p : Fin 16) (v : U32)
    (hi : c.items = [.param (P.trkSnrWarn p) v]) :
    ∃ u : State, s.applyChange c = u.changeDone c ∧ u.canonical ∧ u.word (P.trkSnrWarn p) = v ∧ u.kpr = s.kpr ∧
      u.raises 0 "PARAM_WRITE" [P.trkSnrWarn p, v.toNat] ∧ u.sameMemory s := by
  have hpair : StagedItem.pair (.param (P.trkSnrWarn p) v) = false := by rw [StagedItem.pair, paramRow_trkSnrWarn]; rfl
  have hown : [StagedItem.param (P.trkSnrWarn p) v].filter (fun i => !i.ownRow) = [.param (P.trkSnrWarn p) v] := rfl
  have hcanon := State.setWord_canonical s (P.trkSnrWarn p) v hc
  have hword := State.word_setWord_self s hc (P.trkSnrWarn p) v
  have hev : ((s.setWord (P.trkSnrWarn p) v).ev 0 "PARAM_WRITE" [P.trkSnrWarn p, v.toNat]).raises 0 "PARAM_WRITE"
      [P.trkSnrWarn p, v.toNat] := ⟨_, List.mem_append_right _ (List.mem_singleton.2 rfl), rfl, rfl, rfl⟩
  rw [State.applyChange, hi, hown]
  simp only [State.each, List.foldl_cons, List.foldl_nil, State.applyItem, State.applyParam_trkSnrWarn, List.any_cons, List.any_nil,
    hpair, Bool.or_self, Bool.false_and, State.when, Bool.false_eq_true, if_false]
  split
  · exact ⟨_, rfl, hcanon, hword, rfl, hev, fun _ => rfl, fun _ => rfl⟩
  · exact ⟨_, rfl, hcanon, hword, rfl, hev, fun _ => rfl, fun _ => rfl⟩

theorem State.changeDone_paramWrite (s : State) (c : StagedChange) (rq : Rq) (hrq : c.rq = some rq) (hop : c.opcode = 0x0101) :
    s.changeDone c = s.respond rq 0x0101 St.ok 0 (leBytes 8 c.effect) := by
  rw [State.changeDone, hrq, hop]; rfl

theorem trkSnrWarn_not_mem_mbWords (p : Fin 16) (mb : Nat) : P.trkSnrWarn p ∉ mbWords mb := by
  have hp := p.isLt
  simp only [mbWords, P.trkSnrWarn, P.kprMbReq, P.kprMbFail, P.kprMbLatMax, List.mem_cons, List.not_mem_nil, or_false]
  omega

theorem exec_pairChangeEffect_param (s : State) (c : StagedChange) (id : Nat) (v : U32) (hm : s.sys.mode ≠ .resync)
    (hst : s.kpr.staged = [c]) (hrel : c.relayed = true) (hack : c.acked = true) (hdue : c.effect ≤ s.time.tick)
    (hi : c.items = [.param id v]) :
    exec .pairChangeEffect s = .next ({ s with kpr := { s.kpr with staged := [] } }.applyChange c) := by
  show execPairChangeEffect s = _
  rw [execPairChangeEffect, if_neg (by simpa using hm), State.applyDue_param s _ c id v hst (by simp [hrel, hack, hdue]) hi]

/-- The acknowledged change of `TRK_SNR_WARN` that is due is applied and answered, and no byte of memory changes. -/
theorem State.applyChange_trkSnrWarn_answers (s : State) (hc : s.canonical) (p : Fin 16) (v : U32) (c : StagedChange) (rq : Rq)
    (hi : c.items = [.param (P.trkSnrWarn p) v]) (hrq : c.rq = some rq) (hmb : rq.mb ≠ 4) (hop : c.opcode = 0x0101) :
    (s.applyChange c).word (P.trkSnrWarn p) = v ∧ (s.applyChange c).kpr.staged = s.kpr.staged ∧
      (s.applyChange c).answered rq 0x0101 St.ok 0 (leBytes 8 c.effect) ∧
      (s.applyChange c).raises 0 "PARAM_WRITE" [P.trkSnrWarn p, v.toNat] ∧ (s.applyChange c).sameMemory s := by
  obtain ⟨u, happly, hu, hword, hkpr, hev, hpm, hdram⟩ := State.applyChange_trkSnrWarn s hc c p v hi
  obtain ⟨hans, hframe, -, hwords⟩ := State.respond_replies u hu rq hmb 0x0101 St.ok 0 (leBytes 8 c.effect)
  rw [happly, State.changeDone_paramWrite u c rq hrq hop]
  refine ⟨(hwords _ (trkSnrWarn_not_mem_mbWords p _)).trans hword, ?staged, hans, ?event, ?memory⟩
  case staged => rw [State.respond_staged_direct u hu rq hmb, hkpr]
  case event => rwa [State.raises, State.respond_recorder]
  case memory => exact ⟨fun a => by rw [hframe]; exact hpm a, fun a => by rw [hframe]; exact hdram a⟩

/-! ### A change that its lead abandons (R445) -/

theorem State.unstageSched_kpr (s : State) (it : StagedItem) : (s.unstageSched it).kpr = s.kpr := by
  cases it <;> rfl

theorem State.unstageSched_sync (s : State) (it : StagedItem) : (s.unstageSched it).sync = s.sync := by
  cases it <;> rfl

/-- An abandoned change taken out of those that wait, and the partner told its number: what comes before its answer. -/
def State.dropChange (s : State) (c : StagedChange) : State :=
  let s := (s.message 14 (leBytes 4 c.id.toNat)).2
  State.each { s with kpr := { s.kpr with staged := s.kpr.staged.filter (· != c) } } c.items State.unstageSched

theorem State.abandonChange_answers (s : State) (c : StagedChange) (rq : Rq) (hrq : c.rq = some rq) :
    s.abandonChange c = (s.dropChange c).respond rq c.opcode St.timeout 0 [] := by
  rw [State.abandonChange, hrq]; rfl

theorem State.dropChange_canonical (s : State) (hc : s.canonical) (c : StagedChange) : (s.dropChange c).canonical :=
  State.each_canonical _ _ _ hc fun y it hy => State.unstageSched_canonical y it hy

theorem State.dropChange_staged (s : State) (c : StagedChange) : (s.dropChange c).kpr.staged = s.kpr.staged.filter (· != c) := by
  rw [State.dropChange, State.each_keeps State.kpr _ State.unstageSched_kpr]; rfl

theorem State.dropChange_sync (s : State) (c : StagedChange) :
    (s.dropChange c).sync = (s.message 14 (leBytes 4 c.id.toNat)).2.sync := by
  rw [State.dropChange, State.each_keeps State.sync _ State.unstageSched_sync]

/-- The one change that waits, abandoned: it is gone and answered with TIMEOUT, and the partner is told its number. -/
theorem State.abandonChange_single (s : State) (hc : s.canonical) (c : StagedChange) (rq : Rq) (hst : s.kpr.staged = [c])
    (hrq : c.rq = some rq) (hmb : rq.mb ≠ 4) :
    (s.abandonChange c).kpr.staged = [] ∧ (s.abandonChange c).answered rq c.opcode St.timeout 0 [] ∧
      ∃ m ∈ (s.abandonChange c).sync.msgOut, m.kind = 14 ∧ m.body = leBytes 4 c.id.toNat := by
  have hd := State.dropChange_canonical s hc c
  rw [State.abandonChange_answers s c rq hrq]
  refine ⟨?_, (State.respond_replies _ hd rq hmb _ _ _ _).1, ?_⟩
  · rw [State.respond_staged_direct _ hd rq hmb, State.dropChange_staged, hst]
    simp
  · rw [State.respond_sync_direct _ hd rq hmb, State.dropChange_sync]
    exact ⟨_, List.mem_append_right _ (List.mem_singleton.2 rfl), rfl, rfl⟩

theorem exec_relayAckTimeout_due (s : State) (c : StagedChange) (hst : s.kpr.staged = [c]) (hrel : c.relayed = true)
    (hack : c.acked = false) (hdue : c.effect ≤ s.time.tick + 2) : exec .relayAckTimeout s = .next (s.abandonChange c) := by
  show execRelayAckTimeout s = _
  simp [execRelayAckTimeout, State.each, hst, hrel, hack, hdue]

theorem exec_relayAckTimeout_early (s : State) (c : StagedChange) (hst : s.kpr.staged = [c]) (hdue : s.time.tick + 2 < c.effect) :
    exec .relayAckTimeout s = .next s := by
  show execRelayAckTimeout s = _
  simp [execRelayAckTimeout, State.each, hst, hdue]

/-! ### Relayed requests (R445, R547) -/

theorem exec_relayedRequest_waits (s : State) (tag : U16) (opcode : Nat) (payload : List Byte)
    (hm : s.sys.mode = .lead ∨ s.sys.mode = .standalone) (hfree : (s.kpr.reqs.filter fun r => r.rq.mb == 4).length < 16) :
    exec (.relayedRequest tag opcode payload) s = .next { s with kpr := { s.kpr with reqs := s.kpr.reqs ++
      [(⟨⟨4, tag, 0⟩, opcode, payload, 0, false, false, false, 1, s.kpr.now⟩ : MbReq)] } } := by
  show execRelayedRequest tag opcode payload s = _
  rw [execRelayedRequest, if_neg (by rcases hm with hm | hm <;> simp [hm, hfree])]

/-- A trail relays TRK_ASSIGN to its lead (R147, R445). -/
theorem exec_trkAssign_trail (s : State) (rq : Rq) (port addr : U8) (serial : U32) (hrq : rq.onAny [0] = true) (hup : s.coreUp = true)
    (hm : s.sys.mode = .trail) :
    exec (.trkAssign rq port addr serial) s =
      .next (s.relay rq 0x0302 ([port, addr, 0, 0] ++ leBytes 4 serial.toNat)) := by
  show execTrkAssign rq port addr serial s = _
  rw [execTrkAssign, State.cmd_runs s rq _ _ _ _ _ hrq (fun _ => hup) (by rw [hm]; rfl), hm]; rfl

theorem State.relay_paired (s : State) (rq : Rq) (opcode : Nat) (payload : List Byte) (hsolo : s.bit P.pairStatus 25 = false) :
    s.relay rq opcode payload =
      { s with
        kpr := { s.kpr with relays := s.kpr.relays ++ [(⟨rq, opcode, payload⟩ : RelayOut)] }
        sync := { s.sync with
          fseq := s.sync.fseq + 1
          msgOut := s.sync.msgOut ++ [⟨s.sync.fseq, 4, leBytes 2 opcode ++ leBytes 2 rq.tag.toNat ++ payload⟩] } } := by
  rw [State.relay, hsolo]; rfl

/-! ### The partner's maintenance record (R547, R552) -/

/-- `SYS_MAINT` of activity `a` brought up to date, where the module's own activities are `own`. -/
def State.maintShow (own : Nat) (s : State) (a : Nat) : State :=
  let was := s.bit (tkey 0x00C2 a 0) 31 || s.bit (tkey 0x00C2 a 0) 30
  let now := hasBit own a || hasBit s.maint.partner a
  let theirs := ((s.maint.partnerPorts.find? fun (x : Nat × Nat) => x.1 == a).map (·.2)).getD 0
  let s := (s.setBit (tkey 0x00C2 a 0) 31 (hasBit own a)).setBit (tkey 0x00C2 a 0) 30 (hasBit s.maint.partner a)
  let s := s.setFld (tkey 0x00C2 a 1) 31 16 (Nat.lor (s.maintPorts a) theirs)
  if now && !was then s.set64 (tkey 0x00C2 a 2) s.time.tick else s

/-- Bringing `SYS_MAINT` up to date shows every activity; a change of the module's own is sent to the partner. -/
theorem State.maintRefresh_eq (s : State) : ∃ own body, s.maintRefresh =
    if own = s.maint.own then s.each (List.range 10) (State.maintShow own)
    else (State.message
      { s.each (List.range 10) (State.maintShow own) with
        maint := { (s.each (List.range 10) (State.maintShow own)).maint with own := own } } 8 body).2 := ⟨_, _, rfl⟩

/-- From s to u the first n activities are shown, and only words differ. -/
def State.maintShown (s : State) (n : Nat) (u : State) : Prop :=
  u.canonical ∧ u = { s with words := u.words } ∧ ∀ a, a < n → u.bit (tkey 0x00C2 a 0) 30 = hasBit s.maint.partner a

theorem State.maintShow_frame (own : Nat) (s : State) (a : Nat) :
    s.maintShow own a = { s with words := (s.maintShow own a).words } := by
  unfold State.maintShow
  dsimp only
  split <;> rfl

theorem State.maintShow_canonical (own : Nat) (s : State) (hc : s.canonical) (a : Nat) : (s.maintShow own a).canonical := by
  have hbits := fun x y => State.setBit_canonical _ (tkey 0x00C2 a 0) 30 y (State.setBit_canonical s (tkey 0x00C2 a 0) 31 x hc)
  have hports := fun x y z => State.setFld_canonical _ (tkey 0x00C2 a 1) 31 16 z (hbits x y)
  unfold State.maintShow
  dsimp only
  split
  · exact State.set64_canonical _ _ _ (hports _ _ _)
  · exact hports _ _ _

theorem State.bit_setFld_key (s : State) (hc : s.canonical) (k hi lo v j b : Nat) (h : j ≠ k) :
    (s.setFld k hi lo v).bit j b = s.bit j b := by
  rw [State.bit, State.word_setFld_ne s hc _ _ _ _ _ h, State.bit]

theorem State.bit_set64_key (s : State) (hc : s.canonical) (k v j b : Nat) (h : j ≠ k) (h1 : j ≠ k + 1) :
    (s.set64 k v).bit j b = s.bit j b := by
  rw [State.bit, State.set64, State.word_setWord_ne _ (State.setWord_canonical s _ _ hc) _ _ _ h1, State.word_setWord_ne s hc _ _ _ h,
    State.bit]

/-- The first word of a table entry is not a later word of any. -/
theorem tkey_first_ne (tid a b w : Nat) (h : 0 < w) (hw : w < 64) : tkey tid b 0 ≠ tkey tid a w := by
  unfold tkey
  omega

/-- Entries of a table have first words of their own. -/
theorem tkey_first_ne_of_ne (tid a b : Nat) (h : b ≠ a) : tkey tid b 0 ≠ tkey tid a 0 := by
  unfold tkey
  omega

/-- One pass shows whether the partner has activity `a` in progress, and leaves what is shown of the others. -/
theorem State.maintShow_bit (own : Nat) (s : State) (hc : s.canonical) (a b : Nat) :
    (s.maintShow own a).bit (tkey 0x00C2 b 0) 30 = if b = a then hasBit s.maint.partner a else s.bit (tkey 0x00C2 b 0) 30 := by
  have hown := fun x => State.setBit_canonical s (tkey 0x00C2 a 0) 31 x hc
  have hboth := fun x y => State.setBit_canonical _ (tkey 0x00C2 a 0) 30 y (hown x)
  have hports := fun x y z => State.setFld_canonical _ (tkey 0x00C2 a 1) 31 16 z (hboth x y)
  have hpartner : ∀ x y z, ((((s.setBit (tkey 0x00C2 a 0) 31 x).setBit (tkey 0x00C2 a 0) 30 y).setFld (tkey 0x00C2 a 1) 31 16 z).bit
      (tkey 0x00C2 b 0) 30) = if b = a then y else s.bit (tkey 0x00C2 b 0) 30 := by
    intro x y z
    rw [State.bit_setFld_key _ (hboth x y) _ _ _ _ _ _ (tkey_first_ne _ _ _ 1 (by decide) (by decide)),
      State.bit_setBit _ (hown x) _ _ _ _ _ (by decide), State.bit_setBit s hc _ _ _ _ _ (by decide)]
    by_cases hba : b = a
    · rw [if_pos hba, if_pos ⟨congrArg (tkey 0x00C2 · 0) hba, rfl⟩]
    · have hkey := tkey_first_ne_of_ne 0x00C2 a b hba
      rw [if_neg hba, if_neg fun h => hkey h.1, if_neg fun h => hkey h.1]
  unfold State.maintShow
  dsimp only
  split
  · rw [State.bit_set64_key _ (hports _ _ _) _ _ _ _ (tkey_first_ne _ _ _ 2 (by decide) (by decide))
      (tkey_first_ne _ _ _ 3 (by decide) (by decide)), hpartner]
  · rw [hpartner]

theorem State.maintShown_step (s : State) (own n : Nat) (u : State) (h : s.maintShown n u) : s.maintShown (n + 1) (u.maintShow own n) := by
  obtain ⟨hc, hframe, hbits⟩ := h
  have hmaint : u.maint = s.maint := by rw [hframe]
  refine ⟨State.maintShow_canonical own u hc n, ?_, fun a ha => ?_⟩
  · rw [State.maintShow_frame, hframe]
  · rw [State.maintShow_bit own u hc n a, hmaint]
    split
    · next e => rw [e]
    · exact hbits a (by omega)

/-- Bringing `SYS_MAINT` up to date shows the partner's activities, and touches nothing but words, the record and what is sent. -/
theorem State.maintRefresh_shows (s : State) (hc : s.canonical) :
    s.maintRefresh.maint.partner = s.maint.partner ∧
    (∀ a, a < 10 → s.maintRefresh.bit (tkey 0x00C2 a 0) 30 = hasBit s.maint.partner a) ∧
    s.maintRefresh = { s with words := s.maintRefresh.words, maint := s.maintRefresh.maint, sync := s.maintRefresh.sync } := by
  obtain ⟨own, body, hrun⟩ := State.maintRefresh_eq s
  obtain ⟨-, hframe, hbits⟩ : s.maintShown 10 (s.each (List.range 10) (State.maintShow own)) :=
    State.each_range s.maintShown _ s 10 ⟨hc, rfl, fun a ha => absurd ha (Nat.not_lt_zero a)⟩
      fun i u _ => State.maintShown_step s own i u
  rw [hrun]
  generalize s.each (List.range 10) (State.maintShow own) = u at hframe hbits
  split
  · exact ⟨by rw [hframe], hbits, by rw [hframe]⟩
  · exact ⟨by rw [hframe]; rfl, hbits, by rw [hframe]; rfl⟩

/-! ### Frames of the sync link (R282 to R286) -/

/-- An unsound frame is counted on its link and discarded (R285). -/
theorem State.frameIn_unsound (s : State) (h : LinkFrame) (data : Bool) (f : State → State) (hup : s.coreUp = true)
    (hs : h.sound = false) : s.frameIn h data f = s.inc h.link.errKey := by
  simp [State.frameIn, State.linkFrame, hup, hs]

theorem State.modLink_frame (s : State) (l : Link) (f : LinkS → LinkS) :
    ∃ a b, s.modLink l f = { s with sync := { s.sync with linkA := a, linkB := b } } := by
  cases l
  · exact ⟨_, _, rfl⟩
  · exact ⟨_, _, rfl⟩

/-- What a sound frame does on its link touches words, the links and the recorder only. -/
theorem State.linkFrame_frame (s : State) (h : LinkFrame) (hs : h.sound = true) :
    ∃ w a b r, s.linkFrame h = { s with words := w, sync := { s.sync with linkA := a, linkB := b }, recorder := r } := by
  obtain ⟨a, b, hlink⟩ := State.modLink_frame s h.link fun l => { l with frames := true }
  rw [State.linkFrame, hs, hlink, if_neg (by decide)]
  dsimp only
  split
  · exact ⟨_, a, b, _, rfl⟩
  · exact ⟨_, a, b, _, rfl⟩

/-- The state in which the content of a frame is acted on: the link has seen it, and its number is noted (R282). -/
def State.frameTaken (s : State) (h : LinkFrame) : State :=
  let u := s.linkFrame h
  { u with sync := { u.sync with seen := u.sync.seen ++ [(h.fseq, u.time.tick)] } }

theorem State.frameTaken_canonical (s : State) (hc : s.canonical) (h : LinkFrame) : (s.frameTaken h).canonical :=
  State.linkFrame_canonical s h hc

theorem State.frameTaken_frame (s : State) (h : LinkFrame) (ht : s.takesFrame h false) : ∃ w a b r, s.frameTaken h =
    { s with
      words := w
      sync := { s.sync with linkA := a, linkB := b, seen := s.sync.seen ++ [(h.fseq, s.time.tick)] }
      recorder := r } := by
  obtain ⟨-, hs, -⟩ := ht
  obtain ⟨w, a, b, r, hlink⟩ := State.linkFrame_frame s h hs
  exact ⟨w, a, b, r, by rw [State.frameTaken, hlink]⟩

/-- A frame of the management plane that is taken is acted on (R282, R283). -/
theorem State.frameIn_taken (s : State) (h : LinkFrame) (f : State → State) (ht : s.takesFrame h false) :
    s.frameIn h false f = f (s.frameTaken h) := by
  obtain ⟨hup, hs, -, hnew⟩ := ht
  obtain ⟨w, a, b, r, hlink⟩ := State.linkFrame_frame s h hs
  have hseen : (s.linkFrame h).sync.seen.any (fun (x : U32 × Nat) => x.1 == h.fseq) = false := by
    rw [hlink]
    simpa using fun a b hab => hnew (a, b) hab
  rw [State.frameIn, hup]
  dsimp only [Bool.not_true, Bool.false_eq_true, if_false]
  rw [hseen, hs]
  rfl

/-! ### Management frames (R286, R445) -/

/-- An acknowledgement marks the change that it names (R445). -/
theorem exec_msgFrameReceive_ack (s : State) (h : LinkFrame) (ht : s.takesFrame h false) (body : List Byte) (content : MsgContent) :
    exec (.msgFrameReceive h 13 body content) s = .next ((s.frameTaken h).ackIn (ofLe (body.take 4))) := by
  show execMsgFrameReceive h 13 body content s = _
  rw [execMsgFrameReceive, State.frameIn_taken s h _ ht]; rfl

/-- The body of a control message is kept for it (R292). -/
theorem exec_msgFrameReceive_body (s : State) (h : LinkFrame) (ht : s.takesFrame h false) (body : List Byte) (content : MsgContent) :
    exec (.msgFrameReceive h 3 body content) s = .next { s.frameTaken h with
      sync := { (s.frameTaken h).sync with msgIn := ((⟨h.fseq, 3, body⟩ : MsgFrame) :: (s.frameTaken h).sync.msgIn).take 64 } } := by
  show execMsgFrameReceive h 3 body content s = _
  rw [execMsgFrameReceive, State.frameIn_taken s h _ ht]; rfl

theorem exec_xferFrameReceive_taken (s : State) (h : LinkFrame) (ht : s.takesFrame h false) (addr : Nat) (quarter : Fin 4) (pass : U8)
    (data : List Byte) :
    exec (.xferFrameReceive h addr quarter pass data) s = .next ((s.frameTaken h).pageIn addr quarter pass.toNat data) := by
  show execXferFrameReceive h addr quarter pass data s = _
  rw [execXferFrameReceive, State.frameIn_taken s h _ ht]

/-! ### A quarter of a page (R286, R304) -/

/-- A read after consecutive writes: a value written at its key, and what was there at every other. -/
theorem Cmap.get_putAll {α : Type} [DecidableEq α] (d : Nat → α) (vs : List α) (m : List (Nat × α)) (k j : Nat) (e : α)
    (h : Cmap.wf d m = true) :
    Cmap.get d (Cmap.putAll d m k vs) j = if k ≤ j ∧ j < k + vs.length then vs.getD (j - k) e else Cmap.get d m j := by
  induction vs generalizing m k with
  | nil => rw [Cmap.putAll, if_neg (by simp)]
  | cons v vs ih =>
    rw [Cmap.putAll, ih _ _ (Cmap.wf_put d m k v h), Cmap.get_put d m k j v h, List.length_cons]
    rcases Nat.lt_trichotomy j k with hj | rfl | hj
    · rw [if_neg (by omega), if_neg (by omega), if_neg (by omega)]
    · rw [if_neg (by omega), if_pos rfl, if_pos (by omega), Nat.sub_self, List.getD_cons_zero]
    · obtain ⟨n, rfl⟩ : ∃ n, j = k + 1 + n := ⟨j - (k + 1), by omega⟩
      rw [if_neg (show ¬ k + 1 + n = k by omega), show k + 1 + n - k = n + 1 by omega, List.getD_cons_succ,
        show k + 1 + n - (k + 1) = n by omega]
      split
      · rw [if_pos (by omega)]
      · rw [if_neg (by omega)]

theorem State.dramByte_setDram (s : State) (hc : s.canonical) (a j : Nat) (bs : List Byte) :
    (s.setDram a bs).dramByte j = if a ≤ j ∧ j < a + bs.length then bs.getD (j - a) 0 else s.dramByte j := by
  obtain ⟨-, -, hdram, -⟩ := hc
  exact Cmap.get_putAll byteDflt bs s.dram a j 0 hdram

theorem State.putMem_dram (s : State) (a : Nat) (v : Byte) (ha : 0x41020000 ≤ a) : s.putMem a v = s.setDramByte a v := by
  rw [State.putMem, if_neg (by omega), if_neg (by omega)]

/-- Consecutive cells above the process memory and the loop-engine window are bytes of the DRAM (R504). -/
theorem State.putCells_dram (s : State) (a n : Nat) (bs : List Byte) (ha : 0x41020000 ≤ a) :
    s.putCells ((bs.zipIdx n).map fun x => (a + x.2, x.1)) = s.setDram (a + n) bs := by
  induction bs generalizing s n with
  | nil => rfl
  | cons v vs ih =>
    rw [List.zipIdx_cons, List.map_cons]
    show (s.putMem (a + n) v).putCells _ = _
    rw [ih, State.putMem_dram s _ v (by omega)]
    rfl

/-- A quarter of a page that a returning module takes in phase COPY (R303), with no conversion: its bytes go to the DRAM. -/
theorem State.pageIn_dram (s : State) (addr quarter pass : Nat) (data : List Byte) (r : Resync) (hr : s.sync.resync = some r)
    (hlead : r.lead = false) (hphase : r.phase = 2) (hconv : r.converted = false) (hm : s.sys.mode = .resync)
    (ha : 0x1000000000 ≤ addr) :
    ∃ r', s.pageIn addr quarter pass data =
      ({ s with sync := { s.sync with resync := some r' } }.setFld P.syncStatus 23 18 pass).setDram (addr + 1024 * quarter)
        (data.take 1024) := by
  have hcells : ∀ l, s.converted l = (l, s) := fun l => by rw [State.converted, hr]; simp [hconv]
  rw [State.pageIn, hr]
  have hopen : (r.lead || r.phase == 1 || decide (3 < r.phase) || s.sys.mode != .resync) = false := by
    rw [hlead, hphase, hm]; rfl
  dsimp only
  rw [hopen, if_neg (by decide), hcells]
  exact ⟨_, State.putCells_dram _ (addr + 1024 * quarter) 0 (data.take 1024) (by omega)⟩

/-- What the frame of a page's quarter leaves: its bytes in the DRAM and nowhere else, and its pass shown. -/
theorem exec_xferFrameReceive_page (s : State) (hc : s.canonical) (h : LinkFrame) (ht : s.takesFrame h false) (addr : Nat)
    (quarter : Fin 4) (pass : U8) (data : List Byte) (r : Resync) (hr : s.sync.resync = some r) (hlead : r.lead = false)
    (hphase : r.phase = 2) (hconv : r.converted = false) (hm : s.sys.mode = .resync) (ha : 0x1000000000 ≤ addr) :
    ∃ t, exec (.xferFrameReceive h addr quarter pass data) s = .next t ∧
      (∀ i, i < 1024 → i < data.length → t.dramByte (addr + 1024 * quarter + i) = data.getD i 0) ∧
      (∀ a, a < addr + 1024 * quarter ∨ addr + 1024 * quarter + 1024 ≤ a → t.dramByte a = s.dramByte a) ∧
      t.pm = s.pm ∧ t.fld P.syncStatus 23 18 = pass.toNat % 64 := by
  obtain ⟨w, la, lb, ev, hframe⟩ := State.frameTaken_frame s h ht
  obtain ⟨r', hpage⟩ := State.pageIn_dram (s.frameTaken h) addr quarter pass.toNat data r (by rw [hframe]; exact hr) hlead hphase hconv
    (by rw [hframe]; exact hm) ha
  have htaken : ({ s.frameTaken h with sync := { (s.frameTaken h).sync with resync := some r' } } : State).canonical :=
    State.frameTaken_canonical s hc h
  have hshown := State.setFld_canonical _ P.syncStatus 23 18 pass.toNat htaken
  have hdram : (s.frameTaken h).dram = s.dram := by rw [hframe]
  refine ⟨_, exec_xferFrameReceive_taken s h ht addr quarter pass data, ?_⟩
  rw [hpage]
  refine ⟨fun i hi hlen => ?_, fun a ha => ?_, by rw [State.setDram_pm, State.setFld_pm, hframe],
    State.fld_setFld_self _ htaken _ _ _ _ (by decide) (by decide)⟩
  · rw [State.dramByte_setDram _ hshown, if_pos (by rw [List.length_take]; omega), Nat.add_sub_cancel_left]
    simp [List.getD, hi]
  · rw [State.dramByte_setDram _ hshown, if_neg (by rw [List.length_take]; omega), State.dramByte, State.setFld_dram, hdram,
      State.dramByte]

/-! ### The obligation -/

/-- Settles O48: each command runs through the equation for its case, and what it leaves is read off the one operation it applies: a
change taken, applied or abandoned, a request kept or relayed, the maintenance record shown, a frame counted or acted on. The
kinds of the messages and the form of the answers are the model's choices (log entries 77 and 78). -/
theorem relayedWork : Obligations.RelayedWork := by
  unfold Obligations.RelayedWork
  intro s hc
  refine ⟨?taken, ?action, ?applied, ?abandoned, ?request, ?relayed, ?record, ?unsound, ?frames⟩
  case taken =>
    intro effect id items hm hsolo
    exact ⟨_, exec_relayChangeReceive_trail s effect id items hm hsolo, State.takeRelayed_trail s effect id items hm⟩
  case action =>
    intro effect fseq hm
    exact ⟨⟨_, _, exec_action_forceSet_trail s effect fseq hm, rfl, rfl, rfl, rfl, rfl, rfl⟩,
      fun m hf => ⟨_, exec_action_inbox_trail s effect fseq m hm hf, rfl⟩⟩
  case applied =>
    intro p v c rq hm hst hrel hack hdue hi hrq hmb hop
    exact ⟨_, exec_pairChangeEffect_param s c _ v hm hst hrel hack hdue hi,
      State.applyChange_trkSnrWarn_answers { s with kpr := { s.kpr with staged := [] } } hc p v c rq hi hrq hmb hop⟩
  case abandoned =>
    intro c rq hst hrel hack hrq hmb
    exact ⟨fun hdue => ⟨_, exec_relayAckTimeout_due s c hst hrel hack hdue, State.abandonChange_single s hc c rq hst hrq hmb⟩,
      exec_relayAckTimeout_early s c hst⟩
  case request =>
    intro tag opcode payload hm hfree
    exact ⟨_, exec_relayedRequest_waits s tag opcode payload hm hfree, rfl⟩
  case relayed =>
    intro rq port addr serial ⟨hrq, _⟩ hup hm hsolo
    refine ⟨_, exec_trkAssign_trail s rq port addr serial hrq hup hm, ?_⟩
    rw [State.relay_paired s rq _ _ hsolo]
    exact ⟨rfl, ⟨_, List.mem_append_right _ (List.mem_singleton.2 rfl), rfl⟩, rfl⟩
  case record =>
    intro set ports
    obtain ⟨hpartner, hbits, hframe⟩ := State.maintRefresh_shows
      { s with maint := { s.maint with partner := set.toNat, partnerPorts := ports.map fun x => (x.1.val, x.2.toNat) } } hc
    exact ⟨_, rfl, hpartner, hbits, hframe⟩
  case unsound =>
    intro h kind body content hup hs
    refine ⟨s.inc h.link.errKey, congrArg _ (State.frameIn_unsound s h false _ hup hs), State.word_inc_self s hc _, rfl, fun k hk => ?_⟩
    exact State.word_inc_ne s hc _ _ (by simpa using hk)
  case frames =>
    intro h ht
    obtain ⟨w, la, lb, ev, hframe⟩ := State.frameTaken_frame s h ht
    refine ⟨fun body => ⟨_, exec_msgFrameReceive_ack s h ht body .none, ?acked, ?seen⟩,
      fun body => ⟨_, exec_msgFrameReceive_body s h ht body .none, ?kept⟩, exec_xferFrameReceive_page s hc h ht⟩
    case acked => rw [hframe]; rfl
    case seen => rw [hframe]; simp [State.ackIn]
    case kept => rw [hframe]

end Sys2Proof.Machine
end

section
/-!
The obligation on firmware updates of a station (R145, R534, R535): its update session, from the new second bank to the switch, and
the trial of the new version.
-/

namespace Sys2Proof.Machine

/-! ### One station written -/

theorem State.stn_setStn_self (s : State) (hc : s.canonical) (k : Nat) (v : StnS) : (s.setStn k v).stn k = v := by
  rw [State.stn_setStn s hc, if_pos rfl]

theorem State.setStn_onlyStation (s : State) (hc : s.canonical) (k : Nat) (v : StnS) : s.onlyStation k (s.setStn k v) :=
  State.modStn_onlyStation s hc k fun _ => v

/-- A request that a station takes, of a command that carries no serial, is executed (R142, R143, R149). -/
theorem State.stnRequest_takes (s : State) (p : Nat) (serial : U32) (r : MReq) (inQuar : Bool) (f : StnS → StnS)
    (h : (s.stn (stnKey p serial)).takes serial r) :
    s.stnRequest p serial r false inQuar f = s.setStn (stnKey p serial) (f (s.stn (stnKey p serial))) := by
  obtain ⟨hrate, hrepeat, haddr, hquar⟩ := h
  simp [State.stnRequest, State.modStn, hrate, hrepeat, haddr, hquar]

/-! ### The reply and the restart of a station (R107, R141) -/

@[simp] theorem StnS.answer_upd (t : StnS) (r : MReq) (status : Nat) (b37 rest : List Byte) :
    (t.answer r status b37 rest).upd = t.upd := rfl

@[simp] theorem StnS.restart_version (t : StnS) (now : Nat) : (t.restart now).version = t.version := rfl
@[simp] theorem StnS.restart_onTrial (t : StnS) (now : Nat) : (t.restart now).onTrial = t.onTrial := rfl
@[simp] theorem StnS.restart_oldVersion (t : StnS) (now : Nat) : (t.restart now).oldVersion = t.oldVersion := rfl
@[simp] theorem StnS.restart_rateFound (t : StnS) (now : Nat) : (t.restart now).rateFound = false := rfl

/-! ### The fill of the second bank (R534) -/

@[simp] theorem StnUpd.fillOf_setFill (u : StnUpd) (b n : Nat) : (u.setFill b n).fillOf b = n := by
  simp [StnUpd.fillOf, StnUpd.setFill]

/-- An update frame of a target block, in its session and in order, fills the block by what its commands produce; a check passed at
the block's end marks the block and leaves its fill. -/
theorem StnS.updateFrame_fills (t : StnS) (r : MReq) (ok : Bool) (u : StnUpd) (n : Nat) (hupd : t.upd = some u)
    (hsession : u.session = r.be 0 2) (hblock : r.be 2 2 ≠ 0xFFFF)
    (hlen : updLength 256 ((r.payload.drop 8).take (r.byte 6)) 0 = some n) (horder : r.be 4 2 = u.fillOf (r.be 2 2)) :
    ∃ v, (t.updateFrame r ok).upd = some v ∧ v.fillOf (r.be 2 2) = u.fillOf (r.be 2 2) + n ∧ v.session = u.session := by
  have hopen : (u.session != r.be 0 2) = false := by simp [hsession]
  simp only [StnS.updateFrame, hupd, hopen, Bool.false_eq_true, if_false, if_neg hblock, hlen, horder, Nat.lt_irrefl, StnS.answer_upd,
    Option.some.injEq, exists_eq_left']
  split
  · exact ⟨StnUpd.fillOf_setFill u _ _, rfl⟩
  · exact ⟨StnUpd.fillOf_setFill u _ _, rfl⟩

/-! ### What each command of an update leaves -/

/-- The update session that `UPD_BEGIN` opens (R535): its second bank is empty. -/
def MReq.newSession (r : MReq) : StnUpd :=
  { session := r.be 2 2, total := r.be 4 2, version := w32 (r.be 12 4), level := r.byte 6, fill := [], checked := [],
    verified := false, switching := false }

section
variable (s : State) (p : Fin 16) (serial : U32) (r : MReq)

theorem exec_updBegin_new (h : (s.stn (stnKey p serial)).takes serial r) (hupd : (s.stn (stnKey p serial)).upd = none) :
    exec (.updBegin p serial r) s = .next (s.setStn (stnKey p serial)
      (StnS.answer { s.stn (stnKey p serial) with upd := some r.newSession } r 0
        (0#8 :: beBytes 2 (r.newSession.done r.newSession.total 0) ++ [0, 0]) [])) := by
  show execUpdBegin p serial r s = _
  rw [execUpdBegin, State.stnRequest_takes s p serial r false _ h, hupd]
  rfl

theorem exec_updateFrame_addressed (ok : Bool) (hrate : (s.stn (stnKey p serial)).rateFound = true)
    (haddr : r.addr.toNat = (s.stn (stnKey p serial)).addr) (hquar : (s.stn (stnKey p serial)).quarantined = false) :
    exec (.updateFrame p serial r ok) s =
      .next (s.setStn (stnKey p serial) ((s.stn (stnKey p serial)).updateFrame r ok)) := by
  show execUpdateFrame p serial r ok s = _
  simp [execUpdateFrame, State.modStn, hrate, haddr, hquar]

theorem exec_updVerify_session (res : Fin 3) (u : StnUpd) (h : (s.stn (stnKey p serial)).takes serial r)
    (hupd : (s.stn (stnKey p serial)).upd = some u) (hsession : u.session = r.be 2 2) :
    exec (.updVerify p serial r res) s = .next (s.setStn (stnKey p serial)
      (StnS.answer { s.stn (stnKey p serial) with upd := some { u with verified := res == 0 } } r 0
        [BitVec.ofNat 8 res.val, 0, 0, 0, 0] [])) := by
  show execUpdVerify p serial r res s = _
  rw [execUpdVerify, State.stnRequest_takes s p serial r false _ h, hupd]
  simp [hsession]

theorem exec_updActivate_verified (u : StnUpd) (h : (s.stn (stnKey p serial)).takes serial r)
    (hupd : (s.stn (stnKey p serial)).upd = some u) (hsession : u.session = r.be 2 2) (hver : u.verified = true) :
    exec (.updActivate p serial r) s = .next (s.setStn (stnKey p serial)
      (StnS.answer { s.stn (stnKey p serial) with upd := some { u with switching := true } } r 0 zero5 [])) := by
  show execUpdActivate p serial r s = _
  rw [execUpdActivate, State.stnRequest_takes s p serial r false _ h, hupd]
  simp [hsession, hver]

theorem exec_stationBankSwitch_due (u : StnUpd) (hupd : (s.stn (stnKey p serial)).upd = some u) (hswitch : u.switching = true) :
    exec (.stationBankSwitch p serial) s = .next (s.setStn (stnKey p serial)
      (StnS.restart { s.stn (stnKey p serial) with
        oldVersion := (s.stn (stnKey p serial)).version
        oldLevel := (s.stn (stnKey p serial)).level
        version := some u.version
        level := some u.level
        onTrial := true
        upd := none } s.plant)) := by
  show execStationBankSwitch p serial s = _
  simp [execStationBankSwitch, State.modStn, hupd, hswitch]

theorem exec_stationHealthFallback_onTrial (htrial : (s.stn (stnKey p serial)).onTrial = true) :
    exec (.stationHealthFallback p serial) s = .next (s.setStn (stnKey p serial)
      (StnS.restart { s.stn (stnKey p serial) with
        version := (s.stn (stnKey p serial)).oldVersion
        level := (s.stn (stnKey p serial)).oldLevel
        onTrial := false } s.plant)) := by
  show execStationHealthFallback p serial s = _
  simp [execStationHealthFallback, State.modStn, htrial]

theorem exec_stationHealthConfirmed_onTrial (htrial : (s.stn (stnKey p serial)).onTrial = true) :
    exec (.stationHealthConfirmed p serial) s = .next (s.setStn (stnKey p serial)
      { s.stn (stnKey p serial) with onTrial := false, noticeDue := (s.stn (stnKey p serial)).addr != 0xFF }) := by
  show execStationHealthConfirmed p serial s = _
  simp [execStationHealthConfirmed, State.modStn, htrial]

end

/-! ### The obligation -/

/-- Settles O13: each command writes the one station that its equation names, and what the station then holds is read off that write.
That a fall-back is a restart is the model's reading of the rules (log entry 20). -/
theorem stationUpdate : Obligations.StationUpdate := by
  unfold Obligations.StationUpdate
  intro s p serial r hc
  have hself := State.stn_setStn_self s hc (stnKey p serial)
  have honly := State.setStn_onlyStation s hc (stnKey p serial)
  refine ⟨?begin, ?frame, ?verify, ?activate, ?switch, fun htrial => ⟨?fallback, ?confirmed⟩⟩
  case begin =>
    intro htakes hupd
    exact ⟨_, exec_updBegin_new s p serial r htakes hupd, by rw [hself, StnS.answer_upd]; rfl, honly _⟩
  case frame =>
    intro u n ok hrate haddr hquar hupd hsession hblock hlen horder
    obtain ⟨v, hv, hfill, hkept⟩ := StnS.updateFrame_fills _ r ok u n hupd hsession hblock hlen horder
    exact ⟨_, v, exec_updateFrame_addressed s p serial r ok hrate haddr hquar, by rw [hself, hv], hfill, hkept, honly _⟩
  case verify =>
    intro u res htakes hupd hsession
    exact ⟨_, exec_updVerify_session s p serial r res u htakes hupd hsession, by rw [hself, StnS.answer_upd], honly _⟩
  case activate =>
    intro u htakes hupd hsession hver
    exact ⟨_, exec_updActivate_verified s p serial r u htakes hupd hsession hver, by rw [hself, StnS.answer_upd], honly _⟩
  case switch =>
    intro u hupd hswitch
    refine ⟨_, exec_stationBankSwitch_due s p serial u hupd hswitch, ?_⟩
    simp [hself, honly]
  case fallback =>
    refine ⟨_, exec_stationHealthFallback_onTrial s p serial htrial, ?_⟩
    simp [hself, honly]
  case confirmed =>
    refine ⟨_, exec_stationHealthConfirmed_onTrial s p serial htrial, ?_⟩
    simp [hself, honly]

end Sys2Proof.Machine
end

section
/-!
The obligations on an online change (R209 to R212, R222, R223, R292, R453): the package staged or refused, the change discarded, and the
commit tick agreed.
-/

namespace Sys2Proof.Machine

/-! ### Background commands and their answers (R442, R443) -/

/-- The words of the program group lie below those that count a mailbox's responses. -/
theorem not_mem_mbWords_of_lt {k : Nat} (h : k < 0xe040) (mb : Nat) : k ∉ mbWords mb := by
  simp only [mbWords, P.kprMbReq, P.kprMbFail, P.kprMbLatMax, List.mem_cons, List.not_mem_nil, or_false]
  omega

/-- An answer, relayed or not, touches no word but the counters of its mailbox. -/
theorem State.respond_word (s : State) (hc : s.canonical) (rq : Rq) (op st d : Nat) (data : List Byte) (k : Nat)
    (hk : k ∉ mbWords rq.mb) : (s.respond rq op st d data).word k = s.word k := by
  simp only [mbWords, List.mem_cons, List.not_mem_nil, or_false, not_or] at hk
  obtain ⟨hreq, hfail, hlat⟩ := hk
  have hposted := State.post_canonical _ rq op false (respBytes st d data) (State.latency_canonical s rq op hc)
  have hkept := (State.word_of_words (State.post_words _ rq op false (respBytes st d data)) k).trans (State.latency_word s hc rq op k hlat)
  rw [State.respond]
  exact (State.tally_word _ (by exact hposted) _ _ _ hreq hfail).trans hkept

/-- An answer drops no message that waits for the partner. -/
theorem State.mem_msgOut_respond (s : State) (rq : Rq) (op st d : Nat) (data : List Byte) (m : MsgFrame) (h : m ∈ s.sync.msgOut) :
    m ∈ (s.respond rq op st d data).sync.msgOut := by
  have hs : m ∈ (s.latency rq op).sync.msgOut := by rwa [State.latency_sync]
  rw [State.respond, State.tally_sync]
  show m ∈ ((s.latency rq op).post rq op false (respBytes st d data)).sync.msgOut
  unfold State.post
  split
  · exact List.mem_append_left _ hs
  · exact hs

theorem State.finish_of_background {s : State} {op : Nat} {rq : Rq} (h : s.background op = some rq) (st d : Nat) (data : List Byte) :
    s.finish op st d data = s.respond rq op st d data := by
  rw [State.finish, h]

theorem State.finish_of_none {s : State} {op : Nat} (h : s.background op = none) (st d : Nat) (data : List Byte) :
    s.finish op st d data = s := by
  rw [State.finish, h]

/-- What an answer leaves as it was, the end of a background command leaves as it was. -/
theorem State.finish_keeps (P : State → Prop) (s : State) (op st d : Nat) (data : List Byte) (h : P s)
    (hr : ∀ rq, P (s.respond rq op st d data)) : P (s.finish op st d data) := by
  cases hb : s.background op with
  | none => rwa [State.finish_of_none hb]
  | some rq => rw [State.finish_of_background hb]; exact hr rq

@[simp] theorem State.finish_change (s : State) (op st d : Nat) (data : List Byte) : (s.finish op st d data).change = s.change :=
  State.finish_keeps (fun t => t.change = s.change) s op st d data rfl fun rq => State.respond_change s rq op st d data

@[simp] theorem State.finish_recorder (s : State) (op st d : Nat) (data : List Byte) :
    (s.finish op st d data).recorder = s.recorder :=
  State.finish_keeps (fun t => t.recorder = s.recorder) s op st d data rfl fun rq => State.respond_recorder s rq op st d data

theorem State.finish_word (s : State) (hc : s.canonical) (op st d : Nat) (data : List Byte) (k : Nat) (hk : k < 0xe040) :
    (s.finish op st d data).word k = s.word k :=
  State.finish_keeps (fun t => t.word k = s.word k) s op st d data rfl fun rq =>
    State.respond_word s hc rq op st d data k (not_mem_mbWords_of_lt hk _)

theorem State.mem_msgOut_finish (s : State) (op st d : Nat) (data : List Byte) (m : MsgFrame) (h : m ∈ s.sync.msgOut) :
    m ∈ (s.finish op st d data).sync.msgOut :=
  State.finish_keeps (fun t => m ∈ t.sync.msgOut) s op st d data h fun rq => State.mem_msgOut_respond s rq op st d data m h

theorem dropReq_subset (rq : Rq) (op : Nat) (l : List MbReq) : dropReq rq op l ⊆ l := by
  unfold dropReq
  dsimp only
  split
  · exact List.eraseP_subset
  · exact List.eraseP_subset

theorem State.accept_reqs (s : State) (rq : Rq) (op : Nat) (data : List Byte) :
    (s.accept rq op data).kpr.reqs = dropReq rq op s.kpr.reqs ++ [bgReq rq op s.kpr.now] := by
  unfold State.accept State.post
  split
  · rfl
  · rfl

/-- A command accepted is the one in progress with its opcode, when there was none (R443). -/
theorem State.background_accept (s : State) (rq : Rq) (op : Nat) (data : List Byte) (h : s.background op = none) :
    (s.accept rq op data).background op = some rq := by
  have hnone : (dropReq rq op s.kpr.reqs).find? (fun r => r.background && r.opcode == op) = none := by
    rw [State.background, Option.map_eq_none_iff, List.find?_eq_none] at h
    exact List.find?_eq_none.2 fun r hr => h r (dropReq_subset rq op _ hr)
  rw [State.background, State.accept_reqs, List.find?_append, hnone]
  simp [bgReq]

theorem State.bg_runs (s : State) (rq : Rq) (op : Nat) (data : List Byte) (f : State → State) (h : s.bgFull rq.mb = false) :
    s.bg rq op data f = f (s.accept rq op data) := by
  rw [State.bg, h]; rfl

/-- The role and the partner decide whether a module is paired. -/
theorem State.paired_congr {s t : State} (hsys : t.sys = s.sys) (hpair : t.pair = s.pair)
    (hw : t.word P.pairStatus = s.word P.pairStatus) : t.paired = s.paired := by
  rw [State.paired, State.paired, State.bit, State.bit, hsys, hpair, hw]

@[simp] theorem State.accept_paired (s : State) (rq : Rq) (op : Nat) (data : List Byte) : (s.accept rq op data).paired = s.paired :=
  State.paired_congr (State.accept_sys ..) (State.accept_pair ..) (State.word_of_words (State.accept_words ..) _)

theorem State.acceptedRq_congr {s t : State} (hkpr : t.kpr = s.kpr) {rq : Rq} {op : Nat} {data : List Byte}
    (h : s.acceptedRq rq op data) : t.acceptedRq rq op data := by
  rw [State.acceptedRq, hkpr]; exact h

theorem State.message_kpr (s : State) (kind : Nat) (body : List Byte) : (s.message kind body).2.kpr = s.kpr := rfl

/-- A message waits for the partner (R292). -/
theorem State.message_sent (s : State) (kind : Nat) (body : List Byte) :
    ∃ m ∈ (s.message kind body).2.sync.msgOut, m.kind = kind ∧ m.body = body :=
  ⟨_, List.mem_append_right _ (List.mem_singleton.2 rfl), rfl, rfl⟩

theorem State.control_sent (s : State) (code arg : Nat) (word : U32) (tick : Nat) : (s.control code arg word tick).controls code arg tick :=
  ⟨_, List.mem_append_right _ (List.mem_singleton.2 rfl), rfl, rfl, rfl⟩

theorem State.ev_raises (s : State) (chan : Nat) (name : String) (vals : List Nat) : (s.ev chan name vals).raises chan name vals :=
  ⟨_, List.mem_append_right _ (List.mem_singleton.2 rfl), rfl, rfl, rfl⟩

theorem State.raises_ev_of_raises {s : State} {chan : Nat} {name : String} {vals : List Nat} (h : s.raises chan name vals)
    (chan' : Nat) (name' : String) (vals' : List Nat) : (s.ev chan' name' vals').raises chan name vals := by
  obtain ⟨r, hr, hfacts⟩ := h
  exact ⟨r, List.mem_append_left _ hr, hfacts⟩

/-! ### The phase and the status of a change (R225) -/

theorem State.chgPhase_congr {s t : State} (h : t.word P.prgChangeStatus = s.word P.prgChangeStatus) : t.chgPhase = s.chgPhase := by
  rw [State.chgPhase, State.fld, h]; rfl

theorem State.message_chgPhase (s : State) (kind : Nat) (body : List Byte) : (s.message kind body).2.chgPhase = s.chgPhase := rfl

theorem State.control_chgPhase (s : State) (code arg : Nat) (word : U32) (tick : Nat) :
    (s.control code arg word tick).chgPhase = s.chgPhase := rfl

theorem State.chgPhase_setChgPhase (s : State) (hc : s.canonical) (ph : Fin 8) : (s.setChgPhase ph).chgPhase = ph :=
  (State.fld_setFld_self s hc P.prgChangeStatus 15 13 ph (by decide) (by decide)).trans (Nat.mod_eq_of_lt ph.isLt)

/-- The bits below `PHASE` are shown without touching it. -/
theorem State.chgPhase_setBit (s : State) (hc : s.canonical) (b : Nat) (v : Bool) (hb : b < 13) :
    (s.setBit P.prgChangeStatus b v).chgPhase = s.chgPhase :=
  State.fld_setBit_ne s hc P.prgChangeStatus b 15 13 v (by omega) (Or.inr hb)

theorem State.fld_setFld_outside (s : State) (hc : s.canonical) (k hi lo hi' lo' v : Nat) (h : lo ≤ hi) (h2 : hi < 32)
    (hd : hi' < lo ∨ hi < lo') : (s.setFld k hi lo v).fld k hi' lo' = s.fld k hi' lo' := by
  rw [State.fld, State.setFld, State.word_setWord_self s hc, fieldOf_withField_ne _ _ _ _ _ _ h h2 hd, State.fld]

theorem State.word_set64_lo (s : State) (hc : s.canonical) (k v : Nat) : (s.set64 k v).word k = lo32 v := by
  rw [State.set64, State.word_setWord_ne _ (State.setWord_canonical s _ _ hc) _ _ _ (by omega), State.word_setWord_self s hc]

theorem State.word_set64_ne (s : State) (hc : s.canonical) (k v j : Nat) (h : j ≠ k) (h1 : j ≠ k + 1) :
    (s.set64 k v).word j = s.word j := by
  rw [State.set64, State.word_setWord_ne _ (State.setWord_canonical s _ _ hc) _ _ _ h1, State.word_setWord_ne s hc _ _ _ h]

/-! ### Refusals shown (R222, R225) -/

theorem State.chgRefuse_cause (s : State) (hc : s.canonical) (cause : Fin 16) : (s.chgRefuse cause).fld P.prgChangeStatus 12 9 = cause := by
  rw [State.chgRefuse, State.fld_setBit_ne _ (State.setFld_canonical s _ _ _ _ hc) _ _ _ _ _ (by decide) (by decide),
    State.fld_setFld_self s hc _ _ _ _ (by decide) (by decide)]
  exact Nat.mod_eq_of_lt cause.isLt

theorem State.chgRefuse_refused (s : State) (hc : s.canonical) (cause : Nat) : (s.chgRefuse cause).bit P.prgChangeStatus 8 = true :=
  State.bit_setBit_self _ (State.setFld_canonical s _ _ _ _ hc) _ _ _ (by decide)

theorem State.chgRefuse_chgPhase (s : State) (hc : s.canonical) (cause : Nat) : (s.chgRefuse cause).chgPhase = s.chgPhase :=
  (State.chgPhase_setBit _ (State.setFld_canonical s _ _ _ _ hc) 8 true (by decide)).trans
    (State.fld_setFld_outside s hc P.prgChangeStatus 12 9 15 13 cause (by decide) (by decide) (by decide))

/-! ### Staging (R209, R210) -/

/-- The package of an accepted PRG_CHANGE_STAGE taken out of its transfer, in phase STAGING (R209). -/
def State.takePackage (s : State) (rq : Rq) (obj : List Byte) (pkg : Package) : State :=
  let s := { s with img.objects := s.img.objects.filter fun (o : Obj) => o.hash != obj }
  { s.setChgPhase 1 with change.package := some pkg, change.rq := some (rq.mb, rq.tag) }

theorem State.takePackage_canonical (s : State) (hc : s.canonical) (rq : Rq) (obj : List Byte) (pkg : Package) :
    (s.takePackage rq obj pkg).canonical :=
  State.setChgPhase_canonical { s with img.objects := s.img.objects.filter fun (o : Obj) => o.hash != obj } 1 hc

theorem State.takePackage_chgPhase (s : State) (hc : s.canonical) (rq : Rq) (obj : List Byte) (pkg : Package) :
    (s.takePackage rq obj pkg).chgPhase = 1 :=
  State.chgPhase_setChgPhase { s with img.objects := s.img.objects.filter fun (o : Obj) => o.hash != obj } hc 1

theorem State.takePackage_kpr (s : State) (rq : Rq) (obj : List Byte) (pkg : Package) : (s.takePackage rq obj pkg).kpr = s.kpr := rfl

/-- The transferred object is gone once its package is taken. -/
theorem State.takePackage_objects (s : State) (rq : Rq) (obj : List Byte) (pkg : Package) :
    ∀ o ∈ (s.takePackage rq obj pkg).img.objects, o.hash ≠ obj := by
  intro o ho
  simpa using (List.mem_filter.1 ho).2

theorem State.takePackage_paired (s : State) (hc : s.canonical) (rq : Rq) (obj : List Byte) (pkg : Package) :
    (s.takePackage rq obj pkg).paired = s.paired :=
  State.paired_congr rfl rfl (State.word_setFld_ne s hc P.prgChangeStatus P.pairStatus 15 13 1 (by decide))

/-- The package staged alone: the phase is STAGED, and PRG_CHANGE_STAGE is answered. -/
theorem State.stagedNow_answers (s : State) (hc : s.canonical) (rq : Rq) (hmb : rq.mb ≠ 4) (hbg : s.background 0x0400 = some rq) :
    s.stagedNow.chgPhase = 2 ∧ s.stagedNow.change = s.change ∧ s.stagedNow.img = s.img ∧
      s.stagedNow.answered rq 0x0400 St.ok 0 [] := by
  have hphase := State.setChgPhase_canonical s 2 hc
  have hshown := State.setBit_canonical _ P.prgChangeStatus 8 false hphase
  have hrun : s.stagedNow = ((s.setChgPhase 2).setBit P.prgChangeStatus 8 false).respond rq 0x0400 St.ok 0 [] :=
    State.finish_of_background (s := (s.setChgPhase 2).setBit P.prgChangeStatus 8 false) hbg _ _ _
  rw [hrun]
  refine ⟨?_, State.respond_change _ rq _ _ _ _, State.respond_img _ rq _ _ _ _, (State.respond_replies _ hshown rq hmb _ _ _ _).1⟩
  rw [State.chgPhase_congr (State.respond_word _ hshown rq _ _ _ _ _ (not_mem_mbWords_of_lt (by decide) _)),
    State.chgPhase_setBit _ hphase _ _ (by decide)]
  exact State.chgPhase_setChgPhase s hc 2

theorem State.dropPackage_chgPhase (s : State) (hc : s.canonical) : s.dropPackage.chgPhase = 0 :=
  (State.chgPhase_setBit _ (State.setChgPhase_canonical s 0 hc) 6 false (by decide)).trans (State.chgPhase_setChgPhase s hc 0)

/-! ### The commit tick chosen (R211) -/

/-- The commit tick of a PRG_CHANGE_COMMIT accepted in tick k0 shown, and its proposal made with a new seed (R189, R211). -/
def State.chooseTick (s : State) (rq : Rq) (c k0 : Nat) : State :=
  let r := s.drawBytes 32
  { (r.2.setBit P.prgChangeStatus 8 false).set64 P.prgChangeTickLo c with
    change := { s.change with commit := c, agree := some .proposed, proposedAt := k0, seed := r.1, lead := true,
                              ackSent := false, rq := some (rq.mb, rq.tag) } }

/-- PROPOSE on its way to the trail, with the hash of the new program and the seed in its message (R212). -/
def State.propose (s : State) (c : Nat) : State :=
  let m := s.message 3 ((s.change.package.map (·.program)).getD [] ++ s.change.seed)
  (m.2.control 0x10 0 m.1 c).setChgPhase 3

/-- The commit confirmed: the module switches at its tick (R212). -/
def State.confirm (s : State) : State := { s.setChgPhase 4 with change.agree := some .confirmed }

theorem State.confirm_chgPhase (s : State) (hc : s.canonical) : s.confirm.chgPhase = 4 := State.chgPhase_setChgPhase s hc 4

theorem State.propose_chgPhase (s : State) (hc : s.canonical) (c : Nat) : (s.propose c).chgPhase = 3 :=
  State.chgPhase_setChgPhase (((s.message _ _).2).control 0x10 0 _ c) hc 3

theorem State.propose_controls (s : State) (c : Nat) : (s.propose c).controls 0x10 0 c := State.control_sent _ _ _ _ _

theorem State.propose_change (s : State) (c : Nat) : (s.propose c).change = s.change := rfl

theorem State.propose_kpr (s : State) (c : Nat) : (s.propose c).kpr = s.kpr := rfl

theorem State.chooseTick_kpr (s : State) (rq : Rq) (c k0 : Nat) : (s.chooseTick rq c k0).kpr = s.kpr := rfl

theorem State.confirm_kpr (s : State) : s.confirm.kpr = s.kpr := rfl

theorem State.confirm_tick (s : State) (hc : s.canonical) : s.confirm.word P.prgChangeTickLo = s.word P.prgChangeTickLo :=
  State.word_setFld_ne s hc P.prgChangeStatus P.prgChangeTickLo 15 13 4 (by decide)

theorem State.chooseTick_canonical (s : State) (hc : s.canonical) (rq : Rq) (c k0 : Nat) : (s.chooseTick rq c k0).canonical :=
  State.set64_canonical _ P.prgChangeTickLo c (State.setBit_canonical _ P.prgChangeStatus 8 false (State.drawBytes_canonical s 32 hc))

theorem State.chooseTick_tick (s : State) (hc : s.canonical) (rq : Rq) (c k0 : Nat) :
    (s.chooseTick rq c k0).word P.prgChangeTickLo = lo32 c :=
  State.word_set64_lo _ (State.setBit_canonical _ P.prgChangeStatus 8 false (State.drawBytes_canonical s 32 hc)) _ _

theorem State.chooseTick_paired (s : State) (hc : s.canonical) (rq : Rq) (c k0 : Nat) : (s.chooseTick rq c k0).paired = s.paired := by
  have hdrawn := State.drawBytes_canonical s 32 hc
  have hkept := State.word_set64_ne _ (State.setBit_canonical _ P.prgChangeStatus 8 false hdrawn) P.prgChangeTickLo c P.pairStatus
    (by decide) (by decide)
  exact State.paired_congr rfl rfl (hkept.trans (State.word_setBit_ne _ hdrawn P.prgChangeStatus P.pairStatus 8 false (by decide)))

/-- PRG_CHANGE_COMMIT by its parts: a cause found is a refusal, and else the chosen tick is proposed to the trail or confirmed alone. -/
theorem exec_prgChangeCommit_eq (rq : Rq) (tick : Nat) (s : State) : exec (.prgChangeCommit rq tick) s = .next (
    s.cmd rq 0x0401 [0] true (s.sys.mode == .standalone || s.sys.mode == .lead) fun s =>
      let c := if tick = 0 then s.time.tick + (s.word P.prgChangeLead).toNat else tick
      let cause := if s.chgPhase = 2 then s.commitCause c s.time.tick else 6
      if cause == 7 then (s.chgRefuse 7).refuseConflict rq 0x0401 7 ((s.conflict 0 true none).getD 0)
      else if cause != 0 then (s.chgRefuse cause).respond rq 0x0401 St.refused cause []
      else s.bg rq 0x0401 (leBytes 8 c) fun u =>
        if (u.chooseTick rq c s.time.tick).paired then (u.chooseTick rq c s.time.tick).propose c
        else (u.chooseTick rq c s.time.tick).confirm) := rfl

section
variable (s : State) (hc : s.canonical) (hup : s.coreUp = true) (hm : s.sys.mode = .standalone ∨ s.sys.mode = .lead)
include hup hm

/-- A module in STANDALONE or LEAD carries a command of the online change out (R209, R211). -/
theorem State.cmd_runs_leading (rq : Rq) (op : Nat) (f : State → State) (hrq : rq.over [0]) :
    s.cmd rq op [0] true (s.sys.mode == .standalone || s.sys.mode == .lead) f = f s :=
  State.cmd_runs s rq op [0] true _ f hrq.1 (fun _ => hup) (by rcases hm with hm | hm <;> rw [hm] <;> rfl)

section
variable (rq : Rq) (obj : List Byte) (pkg : Package) (hrq : rq.over [0]) (hph : s.chgPhase ≠ 2) (hfree : s.conflict 0 true none = none)
  (hobj : ∃ o ∈ s.img.objects, o.kind = 2 ∧ o.hash = obj)
include hrq hph hfree hobj

/-- PRG_CHANGE_STAGE with no activity against it and its object held: refused with the cause that staging finds, or accepted (R209). -/
theorem exec_prgChangeStage (signed : Bool) : exec (.prgChangeStage rq obj pkg signed) s = .next (
    let c := s.stageCause pkg (signed && s.kpr.ownerKey.isSome)
    if c != 0 then (s.chgRefuse c).respond rq 0x0400 (if c == 1 then St.verifyFail else St.refused) c []
    else s.bg rq 0x0400 [] fun s =>
      if (s.takePackage rq obj pkg).paired then ((s.takePackage rq obj pkg).message 2 pkg.hash).2
      else (s.takePackage rq obj pkg).stagedNow) := by
  have hheld : (s.img.objects.any fun (o : Obj) => o.kind == 2 && o.hash == obj) = true := by
    simpa [List.any_eq_true] using hobj
  show execPrgChangeStage rq obj pkg signed s = _
  rw [execPrgChangeStage, State.cmd_runs_leading s hup hm rq _ _ hrq]
  simp only [beq_eq_false_iff_ne.2 hph, Bool.false_eq_true, if_false, hfree, hheld, Bool.not_true]
  rfl

include hc

/-- A package that passes every check of staging is staged here, or sent to the partner of a pair (R209). -/
theorem exec_prgChangeStage_passed (hcause : s.stageCause pkg s.kpr.ownerKey.isSome = 0) (hfull : s.bgFull rq.mb = false) :
    exec (.prgChangeStage rq obj pkg true) s = .next (
      let u := (s.accept rq 0x0400 []).takePackage rq obj pkg
      if s.paired then (u.message 2 pkg.hash).2 else u.stagedNow) := by
  rw [exec_prgChangeStage s hup hm rq obj pkg hrq hph hfree hobj true]
  simp only [Bool.true_and, hcause, bne_self_eq_false, Bool.false_eq_true, if_false, State.bg_runs s rq _ _ _ hfull,
    State.takePackage_paired _ (State.accept_canonical s rq _ _ hc), State.accept_paired]

/-- In a module that runs alone, a package that passes is STAGED. -/
theorem exec_prgChangeStage_alone (hcause : s.stageCause pkg s.kpr.ownerKey.isSome = 0) (hfull : s.bgFull rq.mb = false)
    (hp : s.paired = false) (hbg : s.background 0x0400 = none) :
    ∃ t, exec (.prgChangeStage rq obj pkg true) s = .next t ∧ t.chgPhase = 2 ∧ t.change.package = some pkg ∧
      (∀ o ∈ t.img.objects, o.hash ≠ obj) ∧ t.answered rq 0x0400 St.ok 0 [] := by
  have htaken := State.takePackage_canonical _ (State.accept_canonical s rq 0x0400 [] hc) rq obj pkg
  obtain ⟨hphase, hchange, himg, hans⟩ := State.stagedNow_answers _ htaken rq hrq.2 (State.background_accept s rq 0x0400 [] hbg)
  refine ⟨_, exec_prgChangeStage_passed s hc hup hm rq obj pkg hrq hph hfree hobj hcause hfull, ?_⟩
  simp only [hp, Bool.false_eq_true, if_false]
  exact ⟨hphase, by rw [hchange]; rfl, by rw [himg]; exact State.takePackage_objects _ rq obj pkg, hans⟩

/-- In the lead of a pair, a package that passes is sent to the partner. -/
theorem exec_prgChangeStage_paired (hcause : s.stageCause pkg s.kpr.ownerKey.isSome = 0) (hfull : s.bgFull rq.mb = false)
    (hp : s.paired = true) :
    ∃ t, exec (.prgChangeStage rq obj pkg true) s = .next t ∧ t.chgPhase = 1 ∧ t.change.package = some pkg ∧
      t.acceptedRq rq 0x0400 [] ∧ ∃ m ∈ t.sync.msgOut, m.kind = 2 ∧ m.body = pkg.hash := by
  refine ⟨_, exec_prgChangeStage_passed s hc hup hm rq obj pkg hrq hph hfree hobj hcause hfull, ?_⟩
  have hkpr := (State.message_kpr _ 2 pkg.hash).trans (State.takePackage_kpr (s.accept rq 0x0400 []) rq obj pkg)
  simp only [hp, if_true]
  exact ⟨(State.message_chgPhase ..).trans (State.takePackage_chgPhase _ (State.accept_canonical s rq _ _ hc) rq obj pkg), rfl,
    State.acceptedRq_congr hkpr (State.accept_accepts s rq hrq.2 _ _).1, State.message_sent _ _ _⟩

/-- A package whose signature does not verify is refused with cause 1, and nothing is staged (R209, R222). -/
theorem exec_prgChangeStage_unsigned :
    ∃ t, exec (.prgChangeStage rq obj pkg false) s = .next t ∧ t.fld P.prgChangeStatus 12 9 = 1 ∧
      t.bit P.prgChangeStatus 8 = true ∧ t.change = s.change ∧ t.answered rq 0x0400 St.verifyFail 1 [] := by
  have hshown : (s.chgRefuse 1).canonical := State.chgRefuse_canonical s 1 hc
  have hword := State.respond_word _ hshown rq 0x0400 St.verifyFail 1 [] P.prgChangeStatus (not_mem_mbWords_of_lt (by decide) _)
  refine ⟨(s.chgRefuse 1).respond rq 0x0400 St.verifyFail 1 [], exec_prgChangeStage s hup hm rq obj pkg hrq hph hfree hobj false,
    ?_, ?_, State.respond_change .., (State.respond_replies _ hshown rq hrq.2 _ _ _ _).1⟩
  · rw [State.fld, hword]; exact State.chgRefuse_cause s hc 1
  · rw [State.bit, hword]; exact State.chgRefuse_refused s hc 1

end

include hc

/-- PRG_CHANGE_DISCARD from STAGING to PROPOSED drops the package, and is answered (R209). -/
theorem exec_prgChangeDiscard_staged (rq : Rq) (hrq : rq.over [0]) (h1 : 1 ≤ s.chgPhase) (h3 : s.chgPhase ≤ 3) :
    ∃ t, exec (.prgChangeDiscard rq) s = .next t ∧ t.chgPhase = 0 ∧ t.change.package = none ∧ t.change.agree = none ∧
      t.answered rq 0x0402 St.ok 0 [] := by
  have hrun : s.sys.mode.run = true := by rcases hm with hm | hm <;> rw [hm] <;> rfl
  have htrail : (s.sys.mode == .trail) = false := by rcases hm with hm | hm <;> rw [hm] <;> rfl
  have hopen : (s.chgPhase == 0 || s.chgPhase == 7 || decide (4 ≤ s.chgPhase)) = false := by
    rw [Bool.or_eq_false_iff, Bool.or_eq_false_iff, beq_eq_false_iff_ne, beq_eq_false_iff_ne, decide_eq_false_iff_not]
    omega
  obtain ⟨u, hu, hexec⟩ : ∃ u : State, u.canonical ∧
      exec (.prgChangeDiscard rq) s = .next (u.dropPackage.respond rq 0x0402 St.ok 0 []) := by
    refine ⟨_, State.finish_canonical _ 0x0401 St.aborted 0 [] (State.finish_canonical _ 0x0400 St.aborted 0 []
      (State.when_canonical s s.paired (fun s => (s.message 6 []).2) hc fun y hy => State.message_canonical y 6 [] hy)), ?_⟩
    show execPrgChangeDiscard rq s = _
    rw [execPrgChangeDiscard, State.cmd_runs s rq _ _ _ _ _ hrq.1 (fun _ => hup) hrun]
    simp only [htrail, hopen, Bool.false_eq_true, if_false]
  have hd := State.dropPackage_canonical u hu
  refine ⟨_, hexec, ?_, by rw [State.respond_change]; rfl, by rw [State.respond_change]; rfl,
    (State.respond_replies _ hd rq hrq.2 _ _ _ _).1⟩
  rw [State.chgPhase_congr (State.respond_word _ hd rq _ _ _ _ _ (not_mem_mbWords_of_lt (by decide) _)),
    State.dropPackage_chgPhase u hu]

section
variable (rq : Rq) (tick c : Nat) (hrq : rq.over [0]) (hph : s.chgPhase = 2) (hfull : s.bgFull rq.mb = false)
  (hchosen : c = if tick = 0 then s.time.tick + (s.word P.prgChangeLead).toNat else tick) (hcause : s.commitCause c s.time.tick = 0)
include hrq hph hfull hchosen hcause

/-- PRG_CHANGE_COMMIT of a staged package with no cause against its tick: the tick is chosen, and confirmed at once alone or proposed to
the trail (R211, R212). -/
theorem exec_prgChangeCommit_staged : exec (.prgChangeCommit rq tick) s = .next (
    let u := (s.accept rq 0x0401 (leBytes 8 c)).chooseTick rq c s.time.tick
    if s.paired then u.propose c else u.confirm) := by
  have hpaired := (State.chooseTick_paired _ (State.accept_canonical s rq 0x0401 (leBytes 8 c) hc) rq c s.time.tick).trans
    (State.accept_paired s rq _ _)
  rw [exec_prgChangeCommit_eq, State.cmd_runs_leading s hup hm rq _ _ hrq]
  simp only [← hchosen, hph, if_true, hcause, State.bg_runs s rq _ _ _ hfull, hpaired]
  rfl

/-- In a module that runs alone, the commit is CONFIRMED at once. -/
theorem exec_prgChangeCommit_alone (hp : s.paired = false) :
    ∃ t, exec (.prgChangeCommit rq tick) s = .next t ∧ t.chgPhase = 4 ∧ t.change.commit = c ∧ t.change.agree = some .confirmed ∧
      t.change.package = s.change.package ∧ t.word P.prgChangeTickLo = lo32 c ∧ t.acceptedRq rq 0x0401 (leBytes 8 c) := by
  have hacc := State.accept_canonical s rq 0x0401 (leBytes 8 c) hc
  have hpkg := congrArg ChangeS.package (State.accept_change s rq 0x0401 (leBytes 8 c))
  have hchoice := State.chooseTick_canonical _ hacc rq c s.time.tick
  have htick := State.chooseTick_tick _ hacc rq c s.time.tick
  have hkpr := (State.confirm_kpr _).trans (State.chooseTick_kpr (s.accept rq 0x0401 (leBytes 8 c)) rq c s.time.tick)
  refine ⟨_, exec_prgChangeCommit_staged s hc hup hm rq tick c hrq hph hfull hchosen hcause, ?_⟩
  simp only [hp, Bool.false_eq_true, if_false]
  exact ⟨State.confirm_chgPhase _ hchoice, rfl, rfl, hpkg, (State.confirm_tick _ hchoice).trans htick,
    State.acceptedRq_congr hkpr (State.accept_accepts s rq hrq.2 _ _).1⟩

/-- In the lead of a pair, the commit is PROPOSED to the trail. -/
theorem exec_prgChangeCommit_paired (hp : s.paired = true) :
    ∃ t, exec (.prgChangeCommit rq tick) s = .next t ∧ t.chgPhase = 3 ∧ t.change.commit = c ∧ t.change.agree = some .proposed ∧
      t.change.lead = true ∧ t.acceptedRq rq 0x0401 (leBytes 8 c) ∧ ∃ x ∈ t.sync.ctlOut, x.code = 0x10 ∧ x.tick = c := by
  have hchoice := State.chooseTick_canonical _ (State.accept_canonical s rq 0x0401 (leBytes 8 c) hc) rq c s.time.tick
  obtain ⟨x, hx, hcode, -, htick⟩ := State.propose_controls ((s.accept rq 0x0401 (leBytes 8 c)).chooseTick rq c s.time.tick) c
  refine ⟨_, exec_prgChangeCommit_staged s hc hup hm rq tick c hrq hph hfull hchosen hcause, ?_⟩
  simp only [hp, if_true]
  rw [State.propose_change]
  have hkpr := (State.propose_kpr _ c).trans (State.chooseTick_kpr (s.accept rq 0x0401 (leBytes 8 c)) rq c s.time.tick)
  exact ⟨State.propose_chgPhase _ hchoice c, rfl, rfl, rfl, State.acceptedRq_congr hkpr (State.accept_accepts s rq hrq.2 _ _).1,
    ⟨x, hx, hcode, htick⟩⟩

end

end

/-- Settles O31: the checks of each command lead to one case of its meaning, and what the case leaves is read off the named operations
of staging, refusal, discarding and the choice of the tick. The kind and body of the message to the partner are the model's choice
(log entry 78), and so is the form in which a refusal is shown (log entry 76). -/
theorem stagingChange : Obligations.StagingChange := by
  unfold Obligations.StagingChange
  intro s hc hup hm
  refine ⟨?stage, ?discard, ?commit⟩
  case stage =>
    intro rq obj pkg hrq hph hfree hobj
    exact ⟨fun hcause hfull =>
        ⟨exec_prgChangeStage_alone s hc hup hm rq obj pkg hrq hph hfree hobj hcause hfull,
          exec_prgChangeStage_paired s hc hup hm rq obj pkg hrq hph hfree hobj hcause hfull⟩,
      exec_prgChangeStage_unsigned s hc hup hm rq obj pkg hrq hph hfree hobj⟩
  case discard => exact fun rq hrq h1 h3 => exec_prgChangeDiscard_staged s hc hup hm rq hrq h1 h3
  case commit =>
    intro rq tick hrq hph hfull c hcause
    exact ⟨exec_prgChangeCommit_alone s hc hup hm rq tick c hrq hph hfull rfl hcause,
      exec_prgChangeCommit_paired s hc hup hm rq tick c hrq hph hfull rfl hcause⟩

/-! ### A proposal received by the trail (R212) -/

/-- The trail has the proposal in hand, and its ACK is due (R212). -/
def State.holdProposal (s : State) (c : Nat) (seed : List Byte) : State :=
  { (s.setChgPhase 3).set64 P.prgChangeTickLo c with
    change := { s.change with commit := c, agree := some .acked, proposedAt := s.time.tick, seed := seed, lead := false,
                              ackSent := true } }

theorem State.holdProposal_word (s : State) (c : Nat) (seed : List Byte) (k : Nat) :
    (s.holdProposal c seed).word k = ((s.setChgPhase 3).set64 P.prgChangeTickLo c).word k :=
  State.word_of_words (by rw [State.holdProposal]) k

theorem State.holdProposal_chgPhase (s : State) (hc : s.canonical) (c : Nat) (seed : List Byte) :
    (s.holdProposal c seed).chgPhase = 3 := by
  have hkept := State.word_set64_ne _ (State.setChgPhase_canonical s 3 hc) P.prgChangeTickLo c P.prgChangeStatus (by decide) (by decide)
  rw [State.chgPhase_congr ((State.holdProposal_word s c seed _).trans hkept)]
  exact State.chgPhase_setChgPhase s hc 3

section
variable (s : State) (hc : s.canonical) (hm : s.sys.mode = .trail) (hsolo : s.bit P.pairStatus 25 = false)
include hm hsolo

/-- A trail checks a proposal, and answers ACK, or NAK with the cause it finds (R212). -/
theorem exec_chgPropose_trail (c : Nat) (hash seed : List Byte) : exec (.chgPropose c hash seed) s = .next (
    let cause := if s.chgPhase ≠ 2 ∨ (s.change.package.map (·.program)) ≠ some hash then 6
      else s.commitCause c (c - (s.word P.prgChangeLead).toNat)
    if cause != 0 then ((s.chgRefuse cause).control 0x12 cause 0 c).ev 3 "CHANGE_NAK" [cause]
    else (s.holdProposal c seed).control 0x11 0 0 c) := by
  show execChgPropose c hash seed s = _
  rw [execChgPropose, hm, hsolo]; rfl

include hc

/-- The program proposed is staged and no cause is found: ACK. -/
theorem exec_chgPropose_acked (c : Nat) (hash seed : List Byte) (hph : s.chgPhase = 2)
    (hprog : s.change.package.map (·.program) = some hash) (hcause : s.commitCause c (c - (s.word P.prgChangeLead).toNat) = 0) :
    ∃ t, exec (.chgPropose c hash seed) s = .next t ∧ t.chgPhase = 3 ∧
      t.change = { s.change with commit := c, agree := some .acked, proposedAt := s.time.tick, seed := seed, lead := false,
                                 ackSent := true } ∧ ∃ x ∈ t.sync.ctlOut, x.code = 0x11 ∧ x.tick = c := by
  obtain ⟨x, hx, hcode, -, htick⟩ := State.control_sent (s.holdProposal c seed) 0x11 0 0 c
  refine ⟨_, exec_chgPropose_trail s hm hsolo c hash seed, ?_⟩
  simp only [hph, hprog, hcause, ne_eq, not_true_eq_false, or_self, if_false, bne_self_eq_false, Bool.false_eq_true]
  exact ⟨(State.control_chgPhase ..).trans (State.holdProposal_chgPhase s hc c seed), rfl, x, hx, hcode, htick⟩

/-- Nothing is staged: NAK with cause 6 (R222). -/
theorem exec_chgPropose_unstaged (c : Nat) (hash seed : List Byte) (hph : s.chgPhase ≠ 2) :
    ∃ t, exec (.chgPropose c hash seed) s = .next t ∧ t.change = s.change ∧ t.chgPhase = s.chgPhase ∧
      t.fld P.prgChangeStatus 12 9 = 6 ∧ t.raises 3 "CHANGE_NAK" [6] ∧
      ∃ x ∈ t.sync.ctlOut, x.code = 0x12 ∧ x.arg = 6 ∧ x.tick = c := by
  refine ⟨_, exec_chgPropose_trail s hm hsolo c hash seed, ?_⟩
  simp only [ne_eq, hph, not_false_eq_true, true_or, if_true]
  exact ⟨rfl, State.chgRefuse_chgPhase s hc 6, State.chgRefuse_cause s hc 6, State.ev_raises _ 3 "CHANGE_NAK" [6],
    State.control_sent (s.chgRefuse 6) 0x12 6 0 c⟩

end

/-! ### A commit abandoned (R212, R223) -/

/-- The commit given up: the package is STAGED again, and `ABANDONED` is shown (R225). -/
def State.backToStaged (s : State) : State :=
  { (s.setChgPhase 2).setBit P.prgChangeStatus 7 true with change.agree := none, change.ackSent := false }

theorem State.backToStaged_canonical (s : State) (hc : s.canonical) : s.backToStaged.canonical := by
  rw [State.backToStaged, State.canonical_mk]
  exact State.canonical_parts (State.setBit_canonical _ P.prgChangeStatus 7 true (State.setChgPhase_canonical s 2 hc))

theorem State.backToStaged_word (s : State) (k : Nat) :
    s.backToStaged.word k = ((s.setChgPhase 2).setBit P.prgChangeStatus 7 true).word k :=
  State.word_of_words (by rw [State.backToStaged]) k

theorem State.backToStaged_chgPhase (s : State) (hc : s.canonical) : s.backToStaged.chgPhase = 2 := by
  rw [State.chgPhase_congr (State.backToStaged_word s _),
    State.chgPhase_setBit _ (State.setChgPhase_canonical s 2 hc) 7 true (by decide)]
  exact State.chgPhase_setChgPhase s hc 2

theorem State.backToStaged_abandoned (s : State) (hc : s.canonical) : s.backToStaged.bit P.prgChangeStatus 7 = true := by
  rw [State.bit, State.backToStaged_word]
  exact State.bit_setBit_self _ (State.setChgPhase_canonical s 2 hc) P.prgChangeStatus 7 true (by decide)

theorem State.backToStaged_cause (s : State) (hc : s.canonical) :
    s.backToStaged.fld P.prgChangeStatus 12 9 = s.fld P.prgChangeStatus 12 9 := by
  have hphase := State.fld_setFld_outside s hc P.prgChangeStatus 15 13 12 9 2 (by decide) (by decide) (by decide)
  rw [State.fld, State.backToStaged_word]
  exact (State.fld_setBit_ne _ (State.setChgPhase_canonical s 2 hc) P.prgChangeStatus 7 12 9 true (by decide) (by decide)).trans hphase

theorem State.abandonCommit_proposed (s : State) (hph : s.chgPhase = 3) (st d : Nat) :
    s.abandonCommit st d = (s.backToStaged.finish 0x0401 st d []).ev 2 "CHANGE_ABANDONED" [d] := by
  rw [State.abandonCommit, hph]; rfl

/-- What abandoning a proposed commit leaves: the package STAGED and the cause shown as it was, the abandonment shown and recorded, and
every event and message before it kept. -/
theorem State.abandonCommit_spec (s : State) (hc : s.canonical) (hph : s.chgPhase = 3) (st d : Nat) :
    (s.abandonCommit st d).chgPhase = 2 ∧ (s.abandonCommit st d).bit P.prgChangeStatus 7 = true ∧
      (s.abandonCommit st d).fld P.prgChangeStatus 12 9 = s.fld P.prgChangeStatus 12 9 ∧
      (s.abandonCommit st d).change = { s.change with agree := none, ackSent := false } ∧
      (s.abandonCommit st d).raises 2 "CHANGE_ABANDONED" [d] ∧
      (∀ chan name vals, s.raises chan name vals → (s.abandonCommit st d).raises chan name vals) ∧
      ∀ m ∈ s.sync.msgOut, m ∈ (s.abandonCommit st d).sync.msgOut := by
  have hback := State.backToStaged_canonical s hc
  have hword := State.finish_word _ hback 0x0401 st d [] P.prgChangeStatus (by decide)
  have hevents := State.finish_recorder s.backToStaged 0x0401 st d []
  rw [State.abandonCommit_proposed s hph]
  refine ⟨?_, ?_, ?_, State.finish_change .., State.ev_raises .., fun chan name vals h => ?_, fun m hm => ?_⟩
  · exact (State.chgPhase_congr hword).trans (State.backToStaged_chgPhase s hc)
  · rw [State.bit, State.word_ev, hword]; exact State.backToStaged_abandoned s hc
  · rw [State.fld, State.word_ev, hword]; exact State.backToStaged_cause s hc
  · apply State.raises_ev_of_raises
    rw [State.raises, hevents]; exact h
  · exact State.mem_msgOut_finish s.backToStaged _ _ _ _ m hm

/-! ### The answers of the trail, and their absence (R212) -/

section
variable (s : State) (hc : s.canonical) (c : Nat) (hph : s.chgPhase = 3) (hcommit : s.change.commit = c)
include hph hcommit

section
variable (hlead : s.change.lead = true)
include hlead

theorem exec_chgAck_inTime (htime : s.time.tick + 8 ≤ c) : exec (.chgAck c) s = .next (s.confirm.control 0x13 0 0 c) := by
  show execChgAck c s = _
  rw [execChgAck, if_neg (by simp [hph, hlead, hcommit, htime])]; rfl

theorem exec_chgNak_proposed (cause : Nat) :
    exec (.chgNak c cause) s = .next (((s.chgRefuse 11).ev 3 "CHANGE_NAK" [cause]).abandonCommit St.refused 11) := by
  show execChgNak c cause s = _
  rw [execChgNak, if_neg (by simp [hph, hlead, hcommit])]

theorem exec_chgAckTimeout_due (hdue : min (s.change.proposedAt + 8) (c - 8) ≤ s.time.tick) :
    exec .chgAckTimeout s = .next ((s.message 7 []).2.abandonCommit St.timeout 0) := by
  show execChgAckTimeout s = _
  rw [execChgAckTimeout, hcommit, if_pos (by simpa [hph, hlead] using hdue)]

include hc

/-- The lead confirms an ACK that comes in time. -/
theorem exec_chgAck_confirms (htime : s.time.tick + 8 ≤ c) :
    ∃ t, exec (.chgAck c) s = .next t ∧ t.chgPhase = 4 ∧ t.change = { s.change with agree := some .confirmed } ∧
      ∃ x ∈ t.sync.ctlOut, x.code = 0x13 ∧ x.tick = c := by
  obtain ⟨x, hx, hcode, -, htick⟩ := State.control_sent s.confirm 0x13 0 0 c
  exact ⟨_, exec_chgAck_inTime s c hph hcommit hlead htime, State.confirm_chgPhase s hc, rfl, x, hx, hcode, htick⟩

/-- The lead abandons the commit on a NAK, shows cause 0xB and records the trail's cause (R222). -/
theorem exec_chgNak_abandons (cause : Nat) :
    ∃ t, exec (.chgNak c cause) s = .next t ∧ t.chgPhase = 2 ∧ t.fld P.prgChangeStatus 12 9 = 11 ∧
      t.bit P.prgChangeStatus 7 = true ∧ t.change = { s.change with agree := none, ackSent := false } ∧
      t.raises 3 "CHANGE_NAK" [cause] ∧ t.raises 2 "CHANGE_ABANDONED" [11] := by
  have hshown : ((s.chgRefuse 11).ev 3 "CHANGE_NAK" [cause]).canonical := State.chgRefuse_canonical s 11 hc
  obtain ⟨hphase, hbit, hfld, hchange, hgone, hkept, -⟩ :=
    State.abandonCommit_spec _ hshown ((State.chgRefuse_chgPhase s hc 11).trans hph) St.refused 11
  exact ⟨_, exec_chgNak_proposed s c hph hcommit hlead cause, hphase, hfld.trans (State.chgRefuse_cause s hc 11), hbit, hchange,
    hkept _ _ _ (State.ev_raises ..), hgone⟩

/-- The lead abandons the commit in both modules when no ACK comes. -/
theorem exec_chgAckTimeout_abandons (hdue : min (s.change.proposedAt + 8) (c - 8) ≤ s.time.tick) :
    ∃ t, exec .chgAckTimeout s = .next t ∧ t.chgPhase = 2 ∧ t.change = { s.change with agree := none, ackSent := false } ∧
      t.raises 2 "CHANGE_ABANDONED" [0] ∧ ∃ m ∈ t.sync.msgOut, m.kind = 7 := by
  obtain ⟨m, hm, hkind, -⟩ := State.message_sent s 7 []
  obtain ⟨hphase, -, -, hchange, hgone, -, hsent⟩ :=
    State.abandonCommit_spec _ (State.message_canonical s 7 [] hc) ((State.message_chgPhase s 7 []).trans hph) St.timeout 0
  exact ⟨_, exec_chgAckTimeout_due s c hph hcommit hlead hdue, hphase, hchange, hgone, m, hsent m hm, hkind⟩

end

/-! ### CONFIRM at the trail, and its absence (R212) -/

section
variable (htrail : s.change.lead = false)
include htrail

theorem exec_chgConfirm_inTime (htime : s.time.tick + 4 ≤ c) : exec (.chgConfirm c) s = .next s.confirm := by
  show execChgConfirm c s = _
  rw [execChgConfirm, if_neg (by simp [hph, htrail, hcommit, htime])]; rfl

theorem exec_chgConfirmTimeout_due (hack : s.change.ackSent = true) (hdue : c ≤ s.time.tick + 4) (hheard : s.pair.hbMissed < 8)
    (hm : s.sys.mode = .trail) : exec .chgConfirmTimeout s = .next
      { (s.ev 3 "CHANGE_NO_CONFIRM" []).backToStaged with pair.withdrawAt := some (c, 0x07) } := by
  show execChgConfirmTimeout s = _
  rw [execChgConfirmTimeout, if_pos (by simp [hph, htrail, hcommit, hack, hdue, hheard, hm]), ← hcommit]; rfl

include hc

/-- A trail with CONFIRM is CONFIRMED, and nothing else happens. -/
theorem exec_chgConfirm_confirms (htime : s.time.tick + 4 ≤ c) :
    ∃ t, exec (.chgConfirm c) s = .next t ∧ t.chgPhase = 4 ∧ t.change = { s.change with agree := some .confirmed } ∧
      t = { s with words := t.words, change := t.change } :=
  ⟨_, exec_chgConfirm_inTime s c hph hcommit htrail htime, State.confirm_chgPhase s hc, rfl, rfl⟩

/-- A trail that sent ACK and gets no CONFIRM withdraws at C with cause 0x07; its package stays STAGED. -/
theorem exec_chgConfirmTimeout_withdraws (hack : s.change.ackSent = true) (hdue : c ≤ s.time.tick + 4) (hheard : s.pair.hbMissed < 8)
    (hm : s.sys.mode = .trail) :
    ∃ t, exec .chgConfirmTimeout s = .next t ∧ t.pair = { s.pair with withdrawAt := some (c, 0x07) } ∧ t.chgPhase = 2 ∧
      t.change = { s.change with agree := none, ackSent := false } ∧ t.raises 3 "CHANGE_NO_CONFIRM" [] :=
  ⟨_, exec_chgConfirmTimeout_due s c hph hcommit htrail hack hdue hheard hm, rfl,
    State.backToStaged_chgPhase (s.ev 3 "CHANGE_NO_CONFIRM" []) hc, rfl, State.ev_raises s 3 "CHANGE_NO_CONFIRM" []⟩

end

end

/-- Settles O32: each message, or its absence, runs through the equation for its case; a commit given up goes back to STAGED by one
operation, whoever gives it up. The kind of the message that abandons is the model's choice (log entry 78). -/
theorem commitAgreement : Obligations.CommitAgreement := by
  unfold Obligations.CommitAgreement
  intro s hc
  refine ⟨?propose, ?lead, ?trail⟩
  case propose =>
    intro c hash seed hm hsolo
    exact ⟨exec_chgPropose_acked s hc hm hsolo c hash seed, exec_chgPropose_unstaged s hc hm hsolo c hash seed⟩
  case lead =>
    intro c hph hlead hcommit
    exact ⟨exec_chgAck_confirms s hc c hph hcommit hlead, exec_chgNak_abandons s hc c hph hcommit hlead,
      exec_chgAckTimeout_abandons s hc c hph hcommit hlead⟩
  case trail =>
    intro c hph htrail hcommit
    exact ⟨exec_chgConfirm_confirms s hc c hph hcommit htrail, exec_chgConfirmTimeout_withdraws s hc c hph hcommit htrail⟩

end Sys2Proof.Machine
end
